-- ==== Sys2Proof/Word.lean ====
section
/-!
DEFINITION. The word types of the Krador and the shape of its sparse tables.
-/
namespace Sys2Proof

/-- A 64-bit register or address value (R112, R65). -/
abbrev Word := BitVec 64

/-- One byte of memory. -/
abbrev Byte := BitVec 8

/-- A sparse table by number: what is not listed holds its reader's default. -/
abbrev Tbl (α : Type) := List (Nat × α)

/-- Sext(x, n) of R26: the low `n` bits read as signed, in 64 bits. -/
def sext (n : Nat) (x : Word) : Word := (x.setWidth n).signExtend 64

/-- Zext(x, n) of R26: the low `n` bits read as unsigned, in 64 bits. -/
def zext (n : Nat) (x : Word) : Word := (x.setWidth n).setWidth 64

/-- `x[hi:lo]` of R26 as a number. -/
def bits (x : Word) (hi lo : Nat) : Nat := x.toNat / 2 ^ lo % 2 ^ (hi + 1 - lo)

/-- wrapdiff of R26 on 32-bit levels. -/
def wrapdiff (x y : BitVec 32) : Int := (x - y).toInt

end Sys2Proof
end

