-- ==== Sys2Proof/Syntax.lean ====
section
/-!
DEFINITION. The instructions of the Krador and the steps of its units: one constructor of `Instr`
for each row of the opcode table, with the small field types of R10-R16 that they carry.
-/
set_option linter.all false
namespace Sys2Proof

/-- A 5-bit register field: g0-g7, a0-a7, l0-l7, o0-o7 (R13). -/
abbrev Reg := BitVec 5
/-- A 4-bit handle field h0-h15 (R13). -/
abbrev HIx := BitVec 4
/-- A 3-bit guard field q0-q7 (R13). -/
abbrev QIx := BitVec 3

/-- Rounding-mode field RM of word 1 and of FPU F[6:4] (R15, R35). -/
inductive Rm where
  | dyn | rne | rtz | rdn | rup | rna
  deriving DecidableEq, Repr

/-- The format that X names on FPU: 00 FP64, 01 FP32 (R35). -/
inductive FFmt where
  | d | s
  deriving DecidableEq, Repr

/-- Element types by code 0-14 (R133). -/
inductive ElemTy where
  | f64 | f32 | bf16 | f16 | t8 | t6 | q4 | s8 | n8 | s16 | n16 | s32 | n32 | s64 | n64
  deriving DecidableEq, Repr

/-- W of the M and LSX formats (R11). -/
inductive MemW where
  | s8 | n8 | s16 | n16 | s32 | n32 | d64
  deriving DecidableEq, Repr

/-- Z of the S format (R11). -/
inductive StSz where
  | b | h | w | d
  deriving DecidableEq, Repr

/-- C of the B format (R11). -/
inductive Cond where
  | eq0 | ne0 | lt0 | ge0 | gt0 | le0 | b0c | b0s
  deriving DecidableEq, Repr

/-- Scope codes 000-100 (R16). -/
inductive Scope where
  | core | cl | die | pkg | sys
  deriving DecidableEq, Repr

/-- Order codes 000-100 (R16). -/
inductive Ord where
  | plain | rlx | acq | rel | acqrel
  deriving DecidableEq, Repr

/-- Width of SEXT and ZEXT (R30). -/
inductive ExtW where
  | b | h | w
  deriving DecidableEq, Repr

/-- Condition of CMPGI (R31). -/
inductive CmpI where
  | eq | ne | lt | ge
  deriving DecidableEq, Repr

/-- Condition of FCMPG (R35). -/
inductive FCond where
  | eq | lt | le | uo
  deriving DecidableEq, Repr

/-- Affinity of SPAWN: 0 LOCAL, 4-7 DIE 0-3, 8 ANY (R37). -/
inductive Affinity where
  | loc | die (n : BitVec 2) | any
  deriving DecidableEq, Repr

/-- The types FCVT accepts (R35). -/
inductive NumTy where
  | f64 | f32 | s32 | n32 | s64 | n64
  deriving DecidableEq, Repr

/-- FCVT's conversion code: B[4] set names the integer source, clear names the target (R35). -/
structure Cvt where
  fromInt : Bool
  ty : NumTy
  deriving DecidableEq, Repr

/-- The CSRs of R47. -/
inductive CsrName where
  | fpc | fpf | nbv | qtlo | qthi
  | coord | widl | dgx | dgy | dox | doy | ctx | gtid | supv
  | tvec | epc | ecause | eaddr | einfo | estat | reix | wins
  | stsz | dqbase | migth | agesh | pcap | devcap
  | pmc (n : BitVec 2) | pmcsel | rchk
  deriving DecidableEq, Repr

/-- A guard prefix: GE, GN and GQ (R15, R19). -/
structure Gd where
  ge : Bool
  gn : Bool
  gq : QIx
  deriving DecidableEq, Repr

/-- The fields of an LSX load (R15, R82). -/
structure LsxLoad where
  lu : Bool
  scope : Scope
  ord : Ord
  g : Bool
  w : MemW
  a : Reg
  d : Reg
  off : BitVec 32
  deriving DecidableEq, Repr

/-- The fields of an LSX store (R15, R82): its W codes are those of a store size. -/
structure LsxStore where
  lu : Bool
  scope : Scope
  ord : Ord
  g : Bool
  w : StSz
  a : Reg
  s : Reg
  off : BitVec 32
  deriving DecidableEq, Repr

/-- The fields of an AMO word other than OP (R15): `sz` is 1 for 64 bits. -/
structure AmoF where
  g : Bool
  sz : Bool
  b : Reg
  a : Reg
  d : Reg
  scope : Scope
  ord : Ord
  c : Reg
  off : BitVec 32
  deriving DecidableEq, Repr

/-- The fields of an ECX word with ENG = 00 (R15, R94): `lit` is the literal of LEN = 11. -/
structure Ecx where
  ch : BitVec 2
  b : Reg
  a : Reg
  d : Reg
  g : Bool
  scope : Scope
  rel : Bool
  acq : Bool
  gd : Gd
  lit : Option Word
  imm : BitVec 4
  deriving DecidableEq, Repr

/-- The fields of a VX word other than VFN (R15): `lit` is the literal of LEN = 11. -/
structure Vx where
  bs : Bool
  hb : HIx
  ha : HIx
  hd : HIx
  ty : ElemTy
  sb : Reg
  sat : Bool
  rm : Rm
  lc : Bool
  lb : Bool
  la : Bool
  gd : Gd
  hc : HIx
  imm : BitVec 32
  lit : Option Word
  deriving DecidableEq, Repr

/-- The fields of an MX word other than MFN (R15): `n` and `m` are N-1 and M-1. A TA or TB of 0 that a
function does not use is the code of f64. -/
structure Mx where
  z : Bool
  hx : HIx
  hb : HIx
  ha : HIx
  ta : ElemTy
  tb : ElemTy
  n : BitVec 6
  m : BitVec 6
  lb : Bool
  la : Bool
  gd : Gd
  ht : HIx
  hs : HIx
  k : BitVec 16
  deriving DecidableEq, Repr

/-- An access to FPF or a write of FPC, as the step of R137 performs it. -/
inductive FpAcc where
  | readFpf (d : Reg)
  | writeFpf (v : Word)
  | writeFpc (v : Word)
  deriving DecidableEq, Repr

/-- A register without behaviour of its own: a CSR of a core's context or a word of the hub block (R46, R389). -/
inductive RegTarget where
  | csr (core ctx : Nat) (c : CsrName)
  | hub (offset : Nat)
  deriving DecidableEq, Repr

/-- Where an injection register stands: in a core's control window or at the hub (R387). -/
inductive InjTarget where
  | core (n : Nat)
  | hub
  deriving DecidableEq, Repr

/-- A Callyn packet's head beat and payload (R246). `payload` is INL or the payload beats. `info` is what an XRUN, MSG, GANG, MIG, SHOOT or
NADIR packet carries besides, to which R246 gives no field: DESIGN CHOICE, log 25. -/
structure Packet where
  op : Nat
  cont : Nat
  src : Nat
  dst : Nat
  seq : Nat
  faddr : Nat
  len : Nat
  flg : Nat
  ord : Nat
  tag : Nat
  raddr : Nat
  payload : List Byte
  info : List Byte := []
  deriving DecidableEq, Repr

/-- One constructor per row of the opcode table: 217 instruction forms, then the 134 steps of the units
(memory system, engines, hub, fabric, host port), which the machine takes between instructions. -/
inductive Instr where
  /-- NOP: Does nothing and retires; the all-zero word (R355). -/
  | nop
  /-- TRAP: Writes the trap number into EINFO and takes an in-core trap, or parks when no handler can run (R355). -/
  | trap (n : BitVec 5)
  /-- SVC: Sends a 32-byte message or supervisor command to the core named by B, with a release (R360). -/
  | svc (b a : Reg)
  /-- HRET: Returns from an in-core handler to EPC, finishing pending LOOP slots (R356). -/
  | hret
  /-- EVWAIT: Waits until the context's event count is nonzero, then takes it into D and clears it (R296). -/
  | evwait (d : Reg)
  /-- EVPOST: Adds one to the event count of every context of the domain on the named core (R297). -/
  | evpost (a : Reg)
  /-- BRK: Writes the break number into EINFO and takes an in-core trap, or halts to a watching debugger (R355). -/
  | brk (n : BitVec 5)
  /-- SYNCI: Waits for the context's earlier local stores, then drops the fetch buffer (R71). -/
  | synci
  /-- FENCE: Performs an acquire, a release or both at the scope given in field B (R213). -/
  | fence (scope : Scope) (rel acq : Bool)
  /-- BAR: Arrives at a barrier with a release and waits for the episode's count of arrivals (R298). -/
  | bar (scope : Scope) (a : Reg)
  /-- HALT: Stops the issuing context as a debug stop after it retires (R371). -/
  | halt
  /-- ADD: D := A + B modulo 2^n (R131). -/
  | add (w : Bool) (b a d : Reg)
  /-- SUB: D := A - B modulo 2^n (R131). -/
  | sub (w : Bool) (b a d : Reg)
  /-- AND: D := A AND B (R131). -/
  | and (w : Bool) (b a d : Reg)
  /-- OR: D := A OR B (R131). -/
  | or (w : Bool) (b a d : Reg)
  /-- XOR: D := A XOR B (R131). -/
  | xor (w : Bool) (b a d : Reg)
  /-- ANDN: D := A AND NOT B (R131). -/
  | andn (w : Bool) (b a d : Reg)
  /-- SHL: D := A shifted left by B (R131). -/
  | shl (w : Bool) (b a d : Reg)
  /-- SHR: D := A shifted logically right by B (R131). -/
  | shr (w : Bool) (b a d : Reg)
  /-- SAR: D := A shifted arithmetically right by B (R131). -/
  | sar (w : Bool) (b a d : Reg)
  /-- ROL: D := A rotated left by B (R131). -/
  | rol (w : Bool) (b a d : Reg)
  /-- SLT: D := 1 if A < B signed, else 0 (R131). -/
  | slt (w : Bool) (b a d : Reg)
  /-- SLTN: D := 1 if A < B unsigned, else 0 (R131). -/
  | sltn (w : Bool) (b a d : Reg)
  /-- MIN: D := the signed smaller of A and B (R131). -/
  | min (w : Bool) (b a d : Reg)
  /-- MAX: D := the signed larger of A and B (R131). -/
  | max (w : Bool) (b a d : Reg)
  /-- MINN: D := the unsigned smaller of A and B (R131). -/
  | minn (w : Bool) (b a d : Reg)
  /-- MAXN: D := the unsigned larger of A and B (R131). -/
  | maxn (w : Bool) (b a d : Reg)
  /-- MUL: D := low n bits of A times B (R131). -/
  | mul (w : Bool) (b a d : Reg)
  /-- MULH: D := high n bits of the signed product (R131). -/
  | mulh (w : Bool) (b a d : Reg)
  /-- MULHN: D := high n bits of the unsigned product (R131). -/
  | mulhn (w : Bool) (b a d : Reg)
  /-- DIV: D := signed quotient rounded toward zero, never trapping (R131). -/
  | div (w : Bool) (b a d : Reg)
  /-- DIVN: D := unsigned quotient, never trapping (R131). -/
  | divn (w : Bool) (b a d : Reg)
  /-- REM: D := signed remainder with the sign of the dividend (R131). -/
  | rem (w : Bool) (b a d : Reg)
  /-- REMN: D := unsigned remainder (R131). -/
  | remn (w : Bool) (b a d : Reg)
  /-- CLZ: D := leading zeros of A (R131). -/
  | clz (w : Bool) (a d : Reg)
  /-- CTZ: D := trailing zeros of A (R131). -/
  | ctz (w : Bool) (a d : Reg)
  /-- POPC: D := number of set bits of A (R131). -/
  | popc (w : Bool) (a d : Reg)
  /-- SEXT: D := A sign-extended from the width coded in B (R131). -/
  | sext (w : ExtW) (a d : Reg)
  /-- ZEXT: D := A zero-extended from the width coded in B (R131). -/
  | zext (w : ExtW) (a d : Reg)
  /-- MOVG: D := A when the guard (inverted by N) is true, waiting while it is unresolved (R131). -/
  | movg (n : Bool) (q : QIx) (a d : Reg)
  /-- BSWAP: D := the bytes of A in reverse order (R131). -/
  | bswap (w : Bool) (a d : Reg)
  /-- ADDI: D := A + sign-extended IMM14 (R132). -/
  | addi (i : BitVec 14) (a d : Reg)
  /-- ADDI_LIT: D := A + the 64-bit literal (R132). -/
  | addiLit (i : Word) (a d : Reg)
  /-- ANDI: D := A AND sign-extended IMM14 (R132). -/
  | andi (i : BitVec 14) (a d : Reg)
  /-- ANDI_LIT: D := A AND the 64-bit literal (R132). -/
  | andiLit (i : Word) (a d : Reg)
  /-- ORI: D := A OR sign-extended IMM14 (R132). -/
  | ori (i : BitVec 14) (a d : Reg)
  /-- ORI_LIT: D := A OR the 64-bit literal (R132). -/
  | oriLit (i : Word) (a d : Reg)
  /-- XORI: D := A XOR sign-extended IMM14 (R132). -/
  | xori (i : BitVec 14) (a d : Reg)
  /-- XORI_LIT: D := A XOR the 64-bit literal (R132). -/
  | xoriLit (i : Word) (a d : Reg)
  /-- SHLI: D := A shifted left by the immediate amount (R132). -/
  | shli (s : BitVec 6) (a d : Reg)
  /-- SHRI: D := A shifted logically right by the immediate amount (R132). -/
  | shri (s : BitVec 6) (a d : Reg)
  /-- SARI: D := A shifted arithmetically right by the immediate amount (R132). -/
  | sari (s : BitVec 6) (a d : Reg)
  /-- ROLI: D := A rotated left by the immediate amount (R132). -/
  | roli (s : BitVec 6) (a d : Reg)
  /-- SLTI: D := 1 if A < IMM14 signed (R132). -/
  | slti (i : BitVec 14) (a d : Reg)
  /-- SLTI_LIT: D := 1 if A < the literal signed (R132). -/
  | sltiLit (i : Word) (a d : Reg)
  /-- SLTIN: D := 1 if A < sign-extended IMM14, both read unsigned (R132). -/
  | sltin (i : BitVec 14) (a d : Reg)
  /-- SLTIN_LIT: D := 1 if A < the literal, unsigned (R132). -/
  | sltinLit (i : Word) (a d : Reg)
  /-- LDI: D := sign-extended IMM19 (R132). -/
  | ldi (i : BitVec 19) (d : Reg)
  /-- LDL: D := the 64-bit literal (R132). -/
  | ldl (i : Word) (d : Reg)
  /-- CADR: Builds an absolute core address from packed coordinates and an offset (R126). -/
  | cadr (b a d : Reg)
  /-- CREL: Builds a relative core address from signed dx, dy and an offset (R126). -/
  | crel (b a d : Reg)
  /-- CXY: D := packed coordinates of the core an address names (R126). -/
  | cxy (a d : Reg)
  /-- CRES: D := the absolute form of a core address (R126). -/
  | cres (a d : Reg)
  /-- WFLD: D := band k of a work identifier under WIDL (R126). -/
  | wfld (k : BitVec 5) (a d : Reg)
  /-- LD: Loads W-typed data at A plus scaled OFF11 into D (R81). -/
  | ld (o : BitVec 11) (w : MemW) (a d : Reg)
  /-- ST: Stores Z bytes of S at A plus scaled OFF11, with the G bit (R81). -/
  | st (o : BitVec 11) (g : Bool) (z : StSz) (a s : Reg)
  /-- LSX_LOAD: Extended load with unscaled offset, order, scope and last-use hint (R82). -/
  | lsxLoad (l : LsxLoad)
  /-- LSX_STORE: Extended store with unscaled offset, order, scope, G and last-use hint (R82). -/
  | lsxStore (l : LsxStore)
  /-- STMAP: Creates a stash window mapping a source range onto the stash region (R85). -/
  | stmap (b a d : Reg)
  /-- STUNMAP: Writes back and removes the stash window at an offset (R86). -/
  | stunmap (a : Reg)
  /-- STFLUSH: Writes back dirty sectors of one window or of all windows (R87). -/
  | stflush (a : Reg)
  /-- LASTUSE: Marks the lines of a range first to evict and writes back stash sectors (R88). -/
  | lastuse (b a : Reg)
  /-- DISCARD: Drops dirty copies of a range, leaving each sector's content old or memory's (R89). -/
  | discard (b a : Reg)
  /-- PREF: Hints a fill of a range into the die cache or a window (R88). -/
  | pref (b a : Reg)
  /-- TLBINV: Removes the domain's translations of one page or all pages across packages (R59). -/
  | tlbinv (a : Reg)
  /-- AADD: Atomically adds B to the location and returns the old value (R233). -/
  | aadd (m : AmoF)
  /-- AAND: Atomically ANDs B into the location (R233). -/
  | aand (m : AmoF)
  /-- AOR: Atomically ORs B into the location (R233). -/
  | aor (m : AmoF)
  /-- AXOR: Atomically XORs B into the location (R233). -/
  | axor (m : AmoF)
  /-- AMIN: Atomically lowers the location to B, signed (R233). -/
  | amin (m : AmoF)
  /-- AMAX: Atomically raises the location to B, signed (R233). -/
  | amax (m : AmoF)
  /-- AMINN: Atomically lowers the location to B, unsigned (R233). -/
  | aminn (m : AmoF)
  /-- AMAXN: Atomically raises the location to B, unsigned (R233). -/
  | amaxn (m : AmoF)
  /-- ASWAP: Atomically writes B and returns the old value (R233). -/
  | aswap (m : AmoF)
  /-- ACAS: Atomically writes B when the location equals C (R233). -/
  | acas (m : AmoF)
  /-- AFADD: Atomically adds B as f32 or f64 with RNE (R234). -/
  | afadd (m : AmoF)
  /-- BZ: Branches when register A meets condition C (R288). -/
  | bz (o : BitVec 15) (h : Bool) (c : Cond) (a : Reg)
  /-- BG: Branches on a guard, waiting while it is unresolved (R289). -/
  | bg (o : BitVec 15) (h n : Bool) (q : QIx)
  /-- J: Jumps to PC plus the word offset (R290). -/
  | j (o : BitVec 24)
  /-- CALL: Saves a frame, moves the window one depth deeper and jumps (R290). -/
  | call (o : BitVec 24)
  /-- JR: Jumps to the target in register A (R290). -/
  | jr (a : Reg)
  /-- CALLR: Calls the target in register A (R290). -/
  | callr (a : Reg)
  /-- RET: Returns through l7, restoring the caller's frame (R290). -/
  | ret
  /-- LOOP: Decrements A, runs two delay slots and branches while the result is nonzero (R292). -/
  | loop (o : BitVec 15) (a : Reg)
  /-- CMPG_EQ: Resolves a guard to A = B (R130). -/
  | cmpgEq (b a : Reg) (g : QIx)
  /-- CMPG_NE: Resolves a guard to A ≠ B (R130). -/
  | cmpgNe (b a : Reg) (g : QIx)
  /-- CMPG_LT: Resolves a guard to A < B signed (R130). -/
  | cmpgLt (b a : Reg) (g : QIx)
  /-- CMPG_GE: Resolves a guard to A ≥ B signed (R130). -/
  | cmpgGe (b a : Reg) (g : QIx)
  /-- CMPG_LTN: Resolves a guard to A < B unsigned (R130). -/
  | cmpgLtn (b a : Reg) (g : QIx)
  /-- CMPG_GEN: Resolves a guard to A ≥ B unsigned (R130). -/
  | cmpgGen (b a : Reg) (g : QIx)
  /-- GSET: Resolves a guard to a constant value (R130). -/
  | gset (v : Bool) (g : QIx)
  /-- GCLR: Makes a guard unresolved (R130). -/
  | gclr (g : QIx)
  /-- GMOV: Copies one guard into another once it resolves (R130). -/
  | gmov (h g : QIx)
  /-- GAND: Resolves a guard to the AND of two guards (R130). -/
  | gand (j h g : QIx)
  /-- GOR: Resolves a guard to the OR of two guards (R130). -/
  | gor (j h g : QIx)
  /-- GNOT: Resolves a guard to the inverse of another (R130). -/
  | gnot (h g : QIx)
  /-- CMPGI: Resolves a guard by comparing A with sign-extended IMM14 under a condition (R130). -/
  | cmpgi (i : BitVec 14) (a : Reg) (c : CmpI) (q : QIx)
  /-- CMPGI_LIT: Resolves a guard by comparing A with the 64-bit literal (R130). -/
  | cmpgiLit (i : Word) (a : Reg) (c : CmpI) (q : QIx)
  /-- HLD: Loads and validates a shape record into a handle (R123). -/
  | hld (a : Reg) (h : HIx)
  /-- HST: Stores a handle's record form to memory (R123). -/
  | hst (a : Reg) (h : HIx)
  /-- HSET: Replaces one double word of a handle's record and validates it (R123). -/
  | hset (k : BitVec 5) (a : Reg) (h : HIx)
  /-- HGET: Reads one double word of a handle's record form into D (R123). -/
  | hget (k : BitVec 5) (j : HIx) (d : Reg)
  /-- HADV: Advances a handle's base by its advance field (R122). -/
  | hadv (h : HIx)
  /-- HCOPY: Copies a handle's record form into another handle (R123). -/
  | hcopy (j h : HIx)
  /-- PART: Gives this core its share of one dimension of a handle (R124). -/
  | part (b : Reg) (j h : HIx)
  /-- RBIND: Binds a handle to a ring record as producer or consumer (R109). -/
  | rbind (a : Reg) (h : HIx)
  /-- RWAIT: Waits until a ring handle's avail reaches B, with an acquire (R110). -/
  | rwait (b : Reg) (h : HIx)
  /-- RADVP: Adds B slots to a producer handle's pending advance (R110). -/
  | radvp (b : Reg) (h : HIx)
  /-- RADVC: Adds B slots to a consumer handle's pending advance (R110). -/
  | radvc (b : Reg) (h : HIx)
  /-- RCNT: D := a ring handle's avail (R110). -/
  | rcnt (h : HIx) (d : Reg)
  /-- WPRD: D := the write pointer of a channel (R106). -/
  | wprd (c : BitVec 5) (d : Reg)
  /-- WPWAIT: Waits until a channel's write pointer reaches B, then acquires the delivered bytes (R106). -/
  | wpwait (b : Reg) (c : BitVec 5)
  /-- FADD: D := A + B in f64 or f32 (R150). -/
  | fadd (x : FFmt) (r : Rm) (b a d : Reg)
  /-- FSUB: D := A - B in f64 or f32 (R150). -/
  | fsub (x : FFmt) (r : Rm) (b a d : Reg)
  /-- FMUL: D := A times B in f64 or f32 (R150). -/
  | fmul (x : FFmt) (r : Rm) (b a d : Reg)
  /-- FDIV: D := A / B in f64 or f32 (R150). -/
  | fdiv (x : FFmt) (r : Rm) (b a d : Reg)
  /-- FSQRT: D := square root of A (R150). -/
  | fsqrt (x : FFmt) (r : Rm) (a d : Reg)
  /-- FMAC: D := D + A times B, fused (R150). -/
  | fmac (x : FFmt) (r : Rm) (b a d : Reg)
  /-- FMIN: D := the smaller of A and B (R150). -/
  | fmin (x : FFmt) (b a d : Reg)
  /-- FMAX: D := the larger of A and B (R150). -/
  | fmax (x : FFmt) (b a d : Reg)
  /-- FABS: D := A with its sign cleared (R150). -/
  | fabs (x : FFmt) (a d : Reg)
  /-- FNEG: D := A with its sign inverted (R150). -/
  | fneg (x : FFmt) (a d : Reg)
  /-- FCVT: Converts between the X float format and a type given by the conversion code (R151). -/
  | fcvt (x : FFmt) (r : Rm) (c : Cvt) (a d : Reg)
  /-- FCLASS: D := a one-bit class mask of A (R152). -/
  | fclass (x : FFmt) (a d : Reg)
  /-- FCMPG: Resolves a guard from a float comparison of A and B (R153). -/
  | fcmpg (x : FFmt) (b a : Reg) (k : FCond) (g : QIx)
  /-- COPY: Queues a copy of elements from source handle to destination handle on a channel (R99). -/
  | copy (c : BitVec 2) (b a d : Reg)
  /-- GATHER: Queues a gather of source rows by an index handle (R99). -/
  | gather (c : BitVec 2) (b a d : Reg)
  /-- SCATTER: Queues a scatter of source rows to destination rows by an index handle (R99). -/
  | scatter (c : BitVec 2) (b a d : Reg)
  /-- COMPACT: Queues a copy of the source elements whose mask is nonzero (R100). -/
  | compact (c : BitVec 2) (b a d : Reg)
  /-- FILL: Queues a fill of every destination element with a value (R99). -/
  | fill (c : BitVec 2) (b a d : Reg)
  /-- FLUSHR: Queues write-back of the dirty sectors a handle covers (R101). -/
  | flushr (c : BitVec 2) (a d : Reg)
  /-- CSTAT: D := copy-engine queue and channel status, at once (R102). -/
  | cstat (d : Reg)
  /-- COPY_ECX: Extended COPY with guard, order, scope and G (R95). -/
  | copyEcx (e : Ecx)
  /-- GATHER_ECX: Extended GATHER with guard, order, scope and G (R95). -/
  | gatherEcx (e : Ecx)
  /-- SCATTER_ECX: Extended SCATTER with guard, order, scope and G (R95). -/
  | scatterEcx (e : Ecx)
  /-- COMPACT_ECX: Extended COMPACT that may resolve a guard from its count (R100). -/
  | compactEcx (e : Ecx)
  /-- FILL_ECX: Extended FILL, possibly with a literal value (R95). -/
  | fillEcx (e : Ecx)
  /-- FLUSHR_ECX: Extended FLUSHR with guard, order and scope (R95). -/
  | flushrEcx (e : Ecx)
  /-- XSTART: Checks an exchange record and queues the exchange (R283). -/
  | xstart (a d : Reg)
  /-- XSTART_ECX: Guarded XSTART in extended form (R283). -/
  | xstartEcx (gd : Gd) (a d : Reg)
  /-- XWAIT: Waits for the context's exchange at a record to end and returns its reply (R284). -/
  | xwait (a d : Reg)
  /-- XSTAT: Returns an exchange's status without waiting (R284). -/
  | xstat (a d : Reg)
  /-- XCANCEL: Discards or cancels the context's exchange at a record (R285). -/
  | xcancel (a : Reg)
  /-- MCWR: Writes one switch's Asterism entry for a group (R259). -/
  | mcwr (b a d : Reg)
  /-- ACLWR: Writes one last-hop access-table entry at the package's own ports (R260). -/
  | aclwr (b a d : Reg)
  /-- FEND: Ends a firing: waits for its work, then commits level and ring advances (R327). -/
  | fend
  /-- FEND_COMMIT: The atomic commit of a firing's level, buffers and ring advances once its work has drained (R327). -/
  | fendCommit (core ctx : Nat)
  /-- LVRD: Reads own block, nadir, neighbour or other block level into D (R328). -/
  | lvrd (a d : Reg)
  /-- LVSTEP: Records the block's next step for FEND (R329). -/
  | lvstep (a : Reg)
  /-- LVBIND: Binds a new rule table to a frozen domain and classifies it (R330). -/
  | lvbind (a d : Reg)
  /-- LVSEND: Sends a level-stamped 64-byte message to a context's inbox (R331). -/
  | lvsend (b a : Reg)
  /-- LVRECV: Takes the lowest-stamped message for the context, if any (R332). -/
  | lvrecv (a d : Reg)
  /-- FREEZE: Stops dispatch in the domain and waits until all work is ended, parked or halted (R367). -/
  | freeze
  /-- THAW: Ends the freeze after earlier SVCs are applied (R370). -/
  | thaw
  /-- FRONT: Writes the front table of a frozen domain to memory (R369). -/
  | front (a d : Reg)
  /-- SPAWN: Creates a task, raises its join counter and enqueues it by affinity (R300). -/
  | spawn (b a : Reg) (f : Affinity)
  /-- TEND: Ends a task: waits, releases and lowers its join counter (R302). -/
  | tend
  /-- JOINW: Waits on a join counter until its count bits are zero (R303). -/
  | joinw (a : Reg)
  /-- LAUNCH: Starts a child domain from a launch record (R351). -/
  | launch (a d : Reg)
  /-- VADD: Element-wise a + b (R167). -/
  | vadd (v : Vx)
  /-- VSUB: Element-wise a - b (R167). -/
  | vsub (v : Vx)
  /-- VMUL: Element-wise a times b (R167). -/
  | vmul (v : Vx)
  /-- VFMA: Element-wise fused a times b plus c (R167). -/
  | vfma (v : Vx)
  /-- VFMS: Element-wise fused a times b minus c (R167). -/
  | vfms (v : Vx)
  /-- VMIN: Element-wise minimum (R168). -/
  | vmin (v : Vx)
  /-- VMAX: Element-wise maximum (R168). -/
  | vmax (v : Vx)
  /-- VABS: Element-wise absolute value (R168). -/
  | vabs (v : Vx)
  /-- VNEG: Element-wise negation (R168). -/
  | vneg (v : Vx)
  /-- VDIV: Element-wise a / b (R167). -/
  | vdiv (v : Vx)
  /-- VSQRT: Element-wise square root (R167). -/
  | vsqrt (v : Vx)
  /-- VRCP: Element-wise reciprocal (R167). -/
  | vrcp (v : Vx)
  /-- VRSQ: Element-wise reciprocal square root (R167). -/
  | vrsq (v : Vx)
  /-- VEXP2: Element-wise 2^x by the reference algorithm (R172). -/
  | vexp2 (v : Vx)
  /-- VLOG2: Element-wise log2 by the reference algorithm (R172). -/
  | vlog2 (v : Vx)
  /-- VTANH: Element-wise tanh by the reference algorithm (R172). -/
  | vtanh (v : Vx)
  /-- VSIGM: Element-wise sigmoid by the reference algorithm (R172). -/
  | vsigm (v : Vx)
  /-- VAND: Element-wise bitwise AND (R169). -/
  | vand (v : Vx)
  /-- VOR: Element-wise bitwise OR (R169). -/
  | vor (v : Vx)
  /-- VXOR: Element-wise bitwise XOR (R169). -/
  | vxor (v : Vx)
  /-- VNOT: Element-wise bitwise NOT (R169). -/
  | vnot (v : Vx)
  /-- VSHL: Element-wise shift left (R169). -/
  | vshl (v : Vx)
  /-- VSHR: Element-wise logical shift right (R169). -/
  | vshr (v : Vx)
  /-- VSAR: Element-wise arithmetic shift right (R169). -/
  | vsar (v : Vx)
  /-- VCMP: Element-wise comparison writing 1 or 0 (R170). -/
  | vcmp (v : Vx)
  /-- VSEL: Element-wise select of a or b by a mask (R170). -/
  | vsel (v : Vx)
  /-- VCVT: Element-wise type conversion (R171). -/
  | vcvt (v : Vx)
  /-- VRED: Reduces elements over selected dimensions into a handle or a register (R173). -/
  | vred (v : Vx)
  /-- VSCAN: Inclusive prefix of an op along dimension 0 (R174). -/
  | vscan (v : Vx)
  /-- VBCST: Repeats a source or scalar over the destination (R175). -/
  | vbcst (v : Vx)
  /-- VLERP: Element-wise a + c(b - a) with one rounding (R167). -/
  | vlerp (v : Vx)
  /-- VQEXP: Expands q4 codes through the table into TY (R171). -/
  | vqexp (v : Vx)
  /-- VIOTA: Writes start + i to each element (R175). -/
  | viota (v : Vx)
  /-- VCOUNT: Counts nonzero elements into a register (R175). -/
  | vcount (v : Vx)
  /-- VCLAMP: Element-wise clamp between b and c (R168). -/
  | vclamp (v : Vx)
  /-- MMA: Accumulates an M×K by K×N product into the context's accumulator slot (R186). -/
  | mma (m : Mx)
  /-- MMAG: Accumulates a product whose A rows are gathered by an index vector (R186). -/
  | mmag (m : Mx)
  /-- MZERO: Zeroes an M×N region of the accumulator (R188). -/
  | mzero (m : Mx)
  /-- MSCA: Adds the scaled accumulator into a destination tile (R189). -/
  | msca (m : Mx)
  /-- MRD: Writes the converted accumulator into a destination tile (R190). -/
  | mrd (m : Mx)
  /-- MPRI: Sets the matrix class of later MAT commands, never below the launch class (R191). -/
  | mpri (c : BitVec 3)
  /-- MWAIT: Waits for the context's MAT commands to end, then acquires their writes (R192). -/
  | mwait
  /-- CNTRD: D := performance counter n (R381). -/
  | cntrd (n : BitVec 5) (d : Reg)
  /-- MARK: Writes a trace record of kind 4 carrying A (R382). -/
  | mark (a : Reg)
  /-- CSRRD: D := the CSR (R46). -/
  | csrrd (c : CsrName) (d : Reg)
  /-- CSRWR: CSR := A (R46). -/
  | csrwr (c : CsrName) (a : Reg)
  /-- CSRSW: Swaps A into the CSR and returns the old value (R46). -/
  | csrsw (c : CsrName) (a d : Reg)
  /-- CSRSET: Sets the bits of A in the CSR and returns the old value (R46). -/
  | csrset (c : CsrName) (a d : Reg)
  /-- CSRCLR: Clears the bits of A in the CSR and returns the old value (R46). -/
  | csrclr (c : CsrName) (a d : Reg)
  /-- STSZ_WRITE: Flushes the stash, removes every window and sets the new stash size (R75). -/
  | stszWrite (v : Word)
  /-- MIGTH_WRITE: Sets the migration threshold and clears every migration counter (R61). -/
  | migthWrite (v : Word)
  /-- RCHK_CLR: Clears every race-check tag in the package (R220). -/
  | rchkClr
  /-- RCHK_EN_WRITE: Changes race checking on or off and clears every tag (R220). -/
  | rchkEnWrite (en : Bool)
  /-- QTABLE_WRITE: Writes QTLO or QTHI after earlier q4 commands of the core end (R143). -/
  | qtableWrite (hi : Bool) (v : Word)
  /-- FP_CSR_ACCESS: A read of FPF or write of FPF or FPC, waiting for earlier commands and AFADD replies (R137). -/
  | fpCsrAccess (acc : FpAcc)
  /-- PCAP_WRITE: Sets the package power cap, clamped to 500 watts … design power (R344). -/
  | pcapWrite (v : Word)
  /-- REGISTER_WRITE: A write to any register without behaviour of its own (R46). -/
  | registerWrite (r : RegTarget) (v : Word)
  /-- CONTEXT_SELECT: Each cycle the core chooses the issuing context by effective class, wait and round robin (R341). -/
  | contextSelect (core : Nat)
  /-- LOAD_REPLY: A load's data returns and is written into its destination register (R84). -/
  | loadReply (core id : Nat)
  /-- STORE_PERFORM: A buffered store is performed at its location, or fails there and parks the firing (R396). -/
  | storePerform (core id : Nat)
  /-- PARK: A firing with a recorded engine, store or VISFAIL failure stops before its next instruction and messages the supervisor (R357). -/
  | park (core ctx : Nat)
  /-- STASH_FILL: First touch of a window sector fills it from the source (R76). -/
  | stashFill (core off : Nat)
  /-- DIE_CACHE_EVICT: A die-cache line is evicted, invalidating stash copies and writing back dirty sectors (R73). -/
  | dieCacheEvict (die line : Nat)
  /-- DIRECTORY_OVERFLOW_EVENT: A fill finds four sharer pointers in use and context 15 runs the overflow handler (R79). -/
  | directoryOverflowEvent (core line requester : Nat)
  /-- DIRECTORY_OVF_WRITE: A write to a line with OVF set invalidates table sharers through the firmware handler (R79). -/
  | directoryOvfWrite (core line : Nat)
  /-- PAGE_WALK: A TLB miss walks the page tables, coalesced per page (R52). -/
  | pageWalk (core dom va : Nat)
  /-- MIGRATION_START: A page's foreign-die counter reaches TH and a move begins (R61). -/
  | migrationStart (dom va die : Nat)
  /-- MIGRATION_COMPLETE: A page move ends with a compare-and-swap of the leaf, a shootdown and release of stalled writes (R62). -/
  | migrationComplete (id : Nat)
  /-- CROSS_PACKAGE_MIGRATION: A MIGRATE page counter reaches TH and the page moves to the requester package (R64). -/
  | crossPackageMigration (dom va : Nat) (dat : Tbl Byte)
  /-- OWNERSHIP_REQUEST: A die cache asks the hub for ownership and the hub sends invalidations (R223). -/
  | ownershipRequest (die line id : Nat)
  /-- INVALIDATION_ACK: A die acknowledges an invalidation to the hub (R223). -/
  | invalidationAck (die line : Nat)
  /-- INVALIDATION_RESEND: An unacknowledged invalidation is sent again after 0.5 µs (R227). -/
  | invalidationResend (die line : Nat)
  /-- DIE_UNRESPONSIVE: After 2 µs without acknowledgement the hub isolates the die and poisons its lines (R227). -/
  | dieUnresponsive (die : Nat)
  /-- HOST_CXL_READ: A host read of device memory is served at the line's serialisation point (R229). -/
  | hostCxlRead (off n : Nat)
  /-- HOST_CXL_WRITE: A host write of device memory is handled as a G=1 write (R388). -/
  | hostCxlWrite (off : Nat) (bytes : List Byte)
  /-- MEMORY_ERROR_DETECTED: An uncorrectable error is detected in memory, poisoning the sector and logging it (R49). -/
  | memoryErrorDetected (addr : Nat)
  /-- DIE_RESET_GRACEFUL: RST with FORCED 0 resets a die after write-back, or is refused (R230). -/
  | dieResetGraceful (die : Nat)
  /-- DIE_RESET_FORCED: RST with FORCED 1 resets a die, poisoning owned lines and aborting its work (R230). -/
  | dieResetForced (die : Nat)
  /-- DIE_RESET_END: A die reset finishes and waiting accesses to its near memory proceed (R230). -/
  | dieResetEnd (die : Nat)
  /-- POOL_PUSH: Pushes a free near-memory frame onto a die's migration pool (R391). -/
  | poolPush (die frame : Nat)
  /-- COPY_QUEUE_RELEASE: The copy-engine queue head is released to its idle channel, or discarded by its guard (R92). -/
  | copyQueueRelease (core : Nat)
  /-- COPY_BEAT: The copy engine writes one 64-byte beat and advances the write pointer (R92). -/
  | copyBeat (core ch : Nat)
  /-- COPY_COMMAND_END: A copy-engine command ends and writes its reply, resolving any COMPACT guard (R93). -/
  | copyCommandEnd (core ch : Nat)
  /-- VECTOR_BEAT: The vector engine processes one beat of its running command (R157). -/
  | vectorBeat (core : Nat)
  /-- VECTOR_COMMAND_END: A vector command ends, performing its last-read marks and ORing flags into FPF (R161). -/
  | vectorCommandEnd (core : Nat)
  /-- MATRIX_SELECT: The idle matrix array selects a ready head by credits (R181). -/
  | matrixSelect (octet : Nat)
  /-- MATRIX_KSTEP: The matrix unit completes one k-step of the running command (R186). -/
  | matrixKstep (octet : Nat)
  /-- MATRIX_OVERTAKE: A lower-class ready command overtakes at the end of a k-step (R182). -/
  | matrixOvertake (octet pos : Nat)
  /-- MATRIX_COMMAND_END: A MAT command ends or stops, leaving the unit (R195). -/
  | matrixCommandEnd (octet : Nat)
  /-- RING_NOTIFICATION: A ring commit reaches the other side, updating its counts and event count (R111). -/
  | ringNotification (core rec : Nat) (toProducer : Bool)
  /-- LEVEL_NOTIFICATION: A neighbour's commit arrives at the gate unit and updates the edge register (R317). -/
  | levelNotification (dom blk edge : Nat) (lvl : BitVec 32) (step : Nat) (fin : Bool)
  /-- GATE_EVALUATE: The gate unit re-evaluates a block's gate after an arrival or FEND (R316). -/
  | gateEvaluate (dom blk : Nat)
  /-- FIRING_DISPATCH: A runnable firing is dispatched into its home context with an acquire (R312). -/
  | firingDispatch (dom actor : Nat)
  /-- NADIR_REFRESH: Every 64 cycles the Nadir tree publishes the minimum level, ending spread holds (R318). -/
  | nadirRefresh (dom : Nat)
  /-- LVSTALL: A domain quiescent for 10 µs sends the supervisor an LVSTALL message (R325). -/
  | lvstall (dom : Nat)
  /-- DOMAIN_COMPLETE: Every block finished and nothing in flight: the completion record is written (R326). -/
  | domainComplete (dom : Nat)
  /-- INBOX_MESSAGE: An LVSEND message is accepted into an inbox entry (R324). -/
  | inboxMessage (id : Nat)
  /-- SUPERVISOR_MESSAGE: A supervisor message is delivered into inbox entries 28–31 (R359). -/
  | supervisorMessage (dom : Nat)
  /-- RESUME: Supervisor command: the parked firing continues or replays (R362). -/
  | resume (core : Nat) (gtid : Word)
  /-- RESUME_VALUE: Supervisor command: the parked firing continues with a substituted value (R362). -/
  | resumeValue (core : Nat) (gtid v : Word)
  /-- RESTART: Supervisor command: the parked firing starts again from its entry (R362). -/
  | restart (core : Nat) (gtid : Word)
  /-- ABORT: Supervisor command: the parked firing ends ABORTED and its block finishes at T (R362). -/
  | abort (core : Nat) (gtid : Word)
  /-- P0_REQUEST: A P0 firing halts contexts of higher class numbers at instruction boundaries (R364). -/
  | p0Request (core : Nat)
  /-- CONTEXT_SAVE: A victim's state is written to a save slot for a P0 placement (R365). -/
  | contextSave (core ctx : Nat)
  /-- CONTEXT_RESUME: A saved firing resumes when a context frees, at home or on another core of the die (R366). -/
  | contextResume (die slot : Nat)
  /-- TASK_SEARCH: An idle task context searches its deque, cluster, die queue and other dies (R307). -/
  | taskSearch (core ctx : Nat)
  /-- TASK_SEARCH_REST_END: After 4,096 resting cycles a core searches for tasks again (R307). -/
  | taskSearchRestEnd (core : Nat)
  /-- JOINW_WAKE: A write to the counter's line wakes JOINW to read again (R303). -/
  | joinwWake (core ctx : Nat)
  /-- BARRIER_DEPART: The barrier's count is reached and every waiter departs with an acquire (R298). -/
  | barrierDepart (id : Nat)
  /-- EXCHANGE_START: A queued exchange starts once the core has fewer than four active (R283). -/
  | exchangeStart (core : Nat)
  /-- EXCHANGE_RUN: The hub walk forms and sends one run to a destination party (R273). -/
  | exchangeRun (id : Nat)
  /-- EXCHANGE_RUN_DELIVER: A receiving engine checks and writes a run, then acknowledges it (R275). -/
  | exchangeRunDeliver (id : Nat)
  /-- EXCHANGE_ACK: A run's acknowledgement reaches the sender (R275). -/
  | exchangeAck (id : Nat)
  /-- CLOSING_NOTICE: An INDEX sender's closing notice of bytes sent reaches a destination party (R274). -/
  | closingNotice (id : Nat)
  /-- ABANDONMENT: A failed party's abandonment beat reaches a destination party (R280). -/
  | abandonment (id : Nat)
  /-- EXCHANGE_END: A party's part completes or fails, writing the record and reply (R277). -/
  | exchangeEnd (id : Nat)
  /-- RD: Fabric packet: the target hub reads LEN bytes at FADDR (R247). -/
  | rd (p : Packet)
  /-- WR: Fabric packet: the target hub writes the payload at FADDR (R248). -/
  | wr (p : Packet)
  /-- AMO: Fabric packet: the target executes a remote AMO once under its reply cache (R242). -/
  | amo (p : Packet)
  /-- GWR: Fabric packet: a group write climbs, replicates by Asterism entries and is performed at members (R254). -/
  | gwr (p : Packet)
  /-- XRUN: Fabric packet: one exchange run delivered to a peer's exchange engine (R273). -/
  | xrun (p : Packet)
  /-- MSG: Fabric packet: a supervisor, event or level-stamped message for a target core (R247). -/
  | msg (p : Packet)
  /-- GANG_RESERVE: GANG subcode 1: a package places its members of a multi-package launch (R347). -/
  | gangReserve (p : Packet)
  /-- GANG_COMMIT: GANG subcode 2: a package starts its reserved members (R347). -/
  | gangCommit (p : Packet)
  /-- GANG_ABORT: GANG subcode 3: a package pre-empts its members and reports them ABORTED (R348). -/
  | gangAbort (p : Packet)
  /-- MIG: Fabric packet: a cross-package migration request (R64). -/
  | mig (p : Packet)
  /-- SHOOT: Fabric packet: a TLB shootdown of a domain's pages (R59). -/
  | shoot (p : Packet)
  /-- NADIR: Fabric packet: a level-reduction contribution (R318). -/
  | nadir (p : Packet)
  /-- CFG: Fabric packet: a switch applies MCWR or ACLWR once old packets drain (R257). -/
  | cfg (p : Packet)
  /-- VAL: Reply delivering data to the register or entry named by TAG (R247). -/
  | val (p : Packet)
  /-- DEP: Reply depositing payload at a requester local offset (R247). -/
  | dep (p : Packet)
  /-- CNT: Reply adding LEN to an exchange completion counter (R247). -/
  | cnt (p : Packet)
  /-- DONE: Reply retiring TAG with no data (R247). -/
  | done (p : Packet)
  /-- MACK: Aggregated group acknowledgement; at the source it ends the group write (R255). -/
  | mack (p : Packet)
  /-- NACK: Reply failing TAG, reported as FABNACK (R252). -/
  | nack (p : Packet)
  /-- UNKNOWN: Reply ending a remote AMO with AMOUNKNOWN (R243). -/
  | unknown (p : Packet)
  /-- MACK_PORT_TIMEOUT: A port silent 20 µs after its copy counts as one negative (R255). -/
  | mackPortTimeout (tag port : Nat)
  /-- AMO_RETRANSMIT: A remote AMO without reply 8 µs after a send is sent again (R243). -/
  | amoRetransmit (tag : Nat)
  /-- AMO_TIMEOUT: A remote AMO without reply 32 µs after its first send ends with AMOUNKNOWN (R243). -/
  | amoTimeout (tag : Nat)
  /-- LINK_GROUP_FAIL: A failed link group is retired and its unanswered packets are resent (R261). -/
  | linkGroupFail (lg : Nat)
  /-- LINK_GROUP_RESTORE: A link group is re-established and the reply caches are dropped (R242). -/
  | linkGroupRestore (lg : Nat)
  /-- GANG_RESERVE_TIMEOUT: No RESERVE reply within 50 µs: ABORT goes to every package (R348). -/
  | gangReserveTimeout (gtb : Nat)
  /-- GANG_COMMIT_TIMEOUT: No COMMIT acknowledgement within 50 µs: ABORT goes to every package (R348). -/
  | gangCommitTimeout (gtb : Nat)
  /-- RESERVATION_EXPIRE: A reservation without COMMIT expires after 200 µs and frees its contexts (R348). -/
  | reservationExpire (gtb : Nat)
  /-- GANG_ABORT_RESEND: An unacknowledged ABORT is sent again every 50 µs (R348). -/
  | gangAbortResend (gtb : Nat)
  /-- LAUNCH_WINDOW_COPY: A host write of the monitored line with the expected seal copies the launch record (R333). -/
  | launchWindowCopy (w : Nat) (bytes : List Byte)
  /-- LAUNCH_RETRY: At a release of contexts the dispatcher retries pending launches (R339). -/
  | launchRetry
  /-- ENERGY_WINDOW: Each 1 ms the package reservoir is refilled and deferred firings may be admitted (R344). -/
  | energyWindow
  /-- ENERGY_BUDGET_SPENT: A launch's meter reaches ENERGY: its class becomes 7 and the host is notified (R343). -/
  | energyBudgetSpent (dom : Nat)
  /-- WINDOW_ENABLE: Setting EN starts monitoring and reads the monitored line once (R334). -/
  | windowEnable (w : Nat)
  /-- WINDOW_DESTROY: Writing DESTROY stops a launch window's monitor (R349). -/
  | windowDestroy (w : Nat)
  /-- DOMAIN_ABORT: A host write of a GTB aborts every item of that domain (R349). -/
  | domainAbort (gtb : Nat)
  /-- HOST_SUPERVISOR_COMMAND: The host's write of double word 0 sends a command for a parked supervisor firing (R363). -/
  | hostSupervisorCommand (v : Word)
  /-- DCTL_HALTREQ: Halts the context at its next instruction boundary (R374). -/
  | dctlHaltreq (core ctx : Nat)
  /-- DCTL_RESUME: Leaves the debug halt (R374). -/
  | dctlResume (core ctx : Nat)
  /-- DCTL_STEP: Issues one instruction of a debug-halted context, then halts again (R376). -/
  | dctlStep (core ctx : Nat)
  /-- DCTL_CANCEL: Discards a debug-halted context's queued, unstarted commands (R376). -/
  | dctlCancel (core ctx : Nat)
  /-- CONTEXT_STATE_WRITE: The debugger writes a debug-halted context's state block (R375). -/
  | contextStateWrite (core ctx off : Nat) (v : Word)
  /-- STOP_ENTRY_WRITE: A stop entry is written and copied to every core within 2 µs (R378). -/
  | stopEntryWrite (i k : Nat) (v : Word)
  /-- STOP_REQUEST: Writing SGTID halts the work bearing that GTID (R378). -/
  | stopRequest (gtid : Word)
  /-- DUMP_START: Writing DGTB starts a dump of a frozen domain (R379). -/
  | dumpStart (gtb : Nat)
  /-- DUMP_WRITE: Once the domain's stores are performed, the hub writes the dump buffer (R379). -/
  | dumpWrite
  /-- TRACE_ENABLE: Setting EN starts a die's trace and clears WIDX and DROPS (R384). -/
  | traceEnable (die : Nat)
  /-- REPLAY_ARM: Arms the next record of a window to run as a replay launch (R385). -/
  | replayArm (v : Word)
  /-- REPLAY_PASS_END: After each pass the hub restores pages and images, resets caches and records counters (R385). -/
  | replayPassEnd
  /-- ERROR_INJECT_WRITE: Arms an error-injection register (R387). -/
  | errorInjectWrite (t : InjTarget) (addr : Nat) (mask : Word) (mode : Byte)
  /-- NOTIFICATION_DRAIN: When the host advances HEAD, held notification records are written (R390). -/
  | notificationDrain (head : Nat)
  /-- ETH_QUEUE_ENABLE: Setting EN starts an Ethernet queue from the consumer word (R263). -/
  | ethQueueEnable (p q : Nat) (rx : Bool)
  /-- ETH_QUEUE_DISABLE: Clearing EN lets the current descriptor finish, then stops the queue (R263). -/
  | ethQueueDisable (p q : Nat) (rx : Bool)
  /-- ETH_PRODUCER_UPDATE: A write of a producer word makes the port reread it and work on new descriptors (R264). -/
  | ethProducerUpdate (p q : Nat) (rx : Bool)
  /-- ETH_TRANSMIT: The port sends one transmit descriptor's frame and writes its status (R265). -/
  | ethTransmit (p q : Nat)
  /-- ETH_RECEIVE: A received frame is written into the next posted descriptor, or dropped or paused (R266). -/
  | ethReceive (p : Nat) (frame : List Byte) (fcsOk : Bool)
  /-- ETH_PAUSE_RECEIVE: A received pause frame holds a transmit priority (R265). -/
  | ethPauseReceive (p prio : Nat)
  /-- ETH_LINK_CHANGE: A port's link goes down or up, holding or releasing its transmit queues (R265). -/
  | ethLinkChange (p : Nat) (up : Bool)
  /-- POWER_GOOD: Power-good starts bring-up: boot, verification, clearing, link training (R392). -/
  | powerGood (failAt : Option Nat)
  /-- PACKAGE_RESET: The package resets, dropping reply caches and restarting bring-up (R392). -/
  | packageReset (failAt : Option Nat)
  /-- FIRMWARE_LOAD_WRITE: The host writes a new firmware image through the load page (R392). -/
  | firmwareLoadWrite (off : Nat) (v : Word)
  /-- AMO_PERFORM: An AMO is performed indivisibly at its place of performance and its old value returns to D (R233). -/
  | amoPerform (core id : Nat)
  /-- BACKGROUND_RANGE_OPERATION: The die cache performs the background operation that LASTUSE or DISCARD handed it, marking lines or dropping dirty copies and writing V_s (R88). -/
  | backgroundRangeOperation (core id : Nat)
  /-- CXL_CACHE_SNOOP: The host snoops or recalls a host-memory line that the hub holds owned under CXL.cache for the die caches (R235). -/
  | cxlCacheSnoop (line : Nat)
  /-- SPDM_REQUEST: An SPDM request arriving over the DOE mailbox is answered, or refused with UnsupportedRequest (R395). -/
  | spdmRequest (code : Nat)
  /-- ETH_PAUSE_EXPIRE: The hold that a received pause frame places on a transmit priority runs out, and that priority sends again (R265). -/
  | ethPauseExpire (p prio : Nat)
  deriving DecidableEq, Repr

end Sys2Proof
end

