-- ==== Sys2Proof/Machine/FieldRules.lean ====
section
/-!
DEFINITION. The classes of the element types and step 4 of R42: which field values each instruction
accepts beyond what the types of its fields already exclude.
-/
set_option linter.all false
namespace Sys2Proof.Machine
open Sys2Proof

/-- Class F of R166: f64, f32, bf16, f16, t8, t6. -/
def isF : ElemTy → Bool
  | .f64 | .f32 | .bf16 | .f16 | .t8 | .t6 => true
  | _ => false

/-- The IEEE formats and bf16 (R134). -/
def isIeee : ElemTy → Bool
  | .f64 | .f32 | .bf16 | .f16 => true
  | _ => false

/-- The tapered formats (R139). -/
def isTapered : ElemTy → Bool
  | .t8 | .t6 => true
  | _ => false

/-- Class I of R166: s8 through n64. -/
def isI : ElemTy → Bool
  | .s8 | .n8 | .s16 | .n16 | .s32 | .n32 | .s64 | .n64 => true
  | _ => false

/-- The signed integer types. -/
def isSigned : ElemTy → Bool
  | .s8 | .s16 | .s32 | .s64 => true
  | _ => false

/-- Class FX of R166: f32, bf16 and f16. -/
def isFX : ElemTy → Bool
  | .f32 | .bf16 | .f16 => true
  | _ => false

/-- What R166 lets a VEC function use: its slots, its types, a scalar b, SAT, and a rounding mode. -/
structure VecRule where
  d : Bool := true
  a : Bool := true
  b : Bool := false
  c : Bool := false
  ty : ElemTy → Bool
  scalar : Bool := false
  sat : Bool := true
  /-- the type by which SAT is judged -/
  satTy : ElemTy
  /-- whether RM other than 000 is accepted -/
  rm : Bool := false
  /-- whether SB may be nonzero with BS = 0 -/
  sbReg : Bool := false
  imm : Bool

/-- The common part of R158 for a VX word under a rule of R166. -/
def vxOk (r : VecRule) (v : Vx) : Bool :=
  r.ty v.ty && r.imm
  && (!v.bs || (r.scalar && v.hb == 0))
  && (v.lit.isNone || (v.bs && v.sb == 0))
  && (v.sb == 0 || (v.bs && v.lit.isNone) || r.sbReg)
  && (!v.sat || (r.sat && isI r.satTy))
  && (v.rm == .dyn || r.rm)
  && (r.d || v.hd == 0)
  && (r.a || (v.ha == 0 && !v.la))
  && ((r.b && !v.bs) || (v.hb == 0 && !v.lb))
  && (r.c || (v.hc == 0 && !v.lc))

/-- Rounding arithmetic on two handles or a scalar (VADD, VSUB, VMUL). -/
def ruleArith2 (v : Vx) : VecRule :=
  { b := true, ty := fun t => isF t || isI t, scalar := true, satTy := v.ty, rm := isIeee v.ty, imm := v.imm == 0 }
/-- Three sources (VFMA, VFMS). -/
def ruleFma (v : Vx) : VecRule := { ruleArith2 v with c := true }
/-- VMIN and VMAX round nothing. -/
def ruleMinMax (v : Vx) : VecRule := { ruleArith2 v with rm := false }
/-- VABS and VNEG. -/
def ruleUnary (v : Vx) : VecRule :=
  { ty := fun t => isF t || isI t, satTy := v.ty, imm := v.imm == 0 }
/-- VDIV. -/
def ruleDiv (v : Vx) : VecRule := { ruleArith2 v with ty := isF }
/-- VSQRT, VRCP, VRSQ. -/
def ruleRoot (v : Vx) : VecRule :=
  { ty := isF, satTy := v.ty, rm := isIeee v.ty, imm := v.imm == 0 }
/-- VEXP2, VLOG2, VTANH, VSIGM. -/
def ruleSpecial (v : Vx) : VecRule := { ruleRoot v with ty := isFX }
/-- VAND, VOR, VXOR. -/
def ruleBit2 (v : Vx) : VecRule :=
  { b := true, ty := isI, scalar := true, satTy := v.ty, imm := v.imm == 0 }
/-- VNOT. -/
def ruleNot (v : Vx) : VecRule := { ty := isI, satTy := v.ty, imm := v.imm == 0 }
/-- VSHL, VSHR, VSAR: no SAT. -/
def ruleShift (v : Vx) : VecRule := { ruleBit2 v with sat := false }
/-- VCMP: IMM32[2:0] is the condition, 110 on floats only, 111 none (R170). -/
def ruleCmp (v : Vx) : VecRule :=
  { ruleMinMax v with imm := v.imm.toNat < 6 || (v.imm.toNat == 6 && isF v.ty) }
/-- VSEL: any type but q4. -/
def ruleSel (v : Vx) : VecRule :=
  { b := true, c := true, ty := fun t => t != .q4, scalar := true, satTy := v.ty, imm := v.imm == 0 }

/-- The element type with a code; 15 has none (R133). -/
def elemOfCode (n : Nat) : Option ElemTy :=
  match n with
  | 0 => some .f64 | 1 => some .f32 | 2 => some .bf16 | 3 => some .f16 | 4 => some .t8
  | 5 => some .t6 | 6 => some .q4 | 7 => some .s8 | 8 => some .n8 | 9 => some .s16
  | 10 => some .n16 | 11 => some .s32 | 12 => some .n32 | 13 => some .s64 | 14 => some .n64
  | _ => none

/-- The target type of VCVT, IMM32[3:0] (R171). -/
def cvtTarget (v : Vx) : ElemTy := (elemOfCode (v.imm.toNat % 16)).getD .f64

/-- VCVT: any source; the target decides SAT, and the pair decides RM (R166, R171). -/
def ruleCvt (v : Vx) : VecRule :=
  { ty := fun _ => true, satTy := cvtTarget v,
    rm := (isIeee (cvtTarget v) && cvtTarget v != v.ty) || (isI (cvtTarget v) && isF v.ty),
    imm := v.imm.toNat < 15 && v.imm.toNat != 6 }

/-- VRED's TOREG bit (R173). -/
def redToReg (v : Vx) : Bool := v.imm.getLsbD 8
/-- Whether an op code of VRED and VSCAN is accepted with a type (R173). -/
def redOpTy (op : Nat) (t : ElemTy) : Bool :=
  (op < 3 && (isF t || isI t)) || (op < 6 && isI t)
/-- VRED (R173). -/
def ruleRed (v : Vx) : VecRule :=
  { d := !redToReg v, ty := redOpTy (v.imm.toNat % 16), satTy := v.ty,
    rm := v.imm.toNat % 16 == 0 && isIeee v.ty, sbReg := redToReg v,
    imm := v.imm.toNat < 512 && v.imm.toNat / 16 % 16 != 0
      && (!redToReg v || v.imm.toNat / 16 % 16 == 15) }
/-- VSCAN (R174). -/
def ruleScan (v : Vx) : VecRule :=
  { ty := redOpTy (v.imm.toNat % 16), satTy := v.ty,
    rm := v.imm.toNat % 16 == 0 && isIeee v.ty, imm := v.imm.toNat < 16 }
/-- VBCST: a handle a or a scalar, no SAT (R175). -/
def ruleBcst (v : Vx) : VecRule :=
  { a := !v.bs, ty := fun t => t != .q4, scalar := true, sat := false, satTy := v.ty, imm := v.imm == 0 }
/-- VCLAMP: three sources, no rounding. -/
def ruleClamp (v : Vx) : VecRule := { ruleMinMax v with c := true }
/-- VLERP. -/
def ruleLerp (v : Vx) : VecRule := { ruleFma v with ty := isF }
/-- VQEXP: TY is the target type, its source is q4 (R171). -/
def ruleQexp (v : Vx) : VecRule :=
  { ty := fun t => t != .q4, satTy := v.ty, rm := isIeee v.ty, imm := v.imm == 0 }
/-- VIOTA: IMM32 is the start. -/
def ruleIota (v : Vx) : VecRule := { a := false, ty := isI, satTy := v.ty, imm := true }
/-- VCOUNT writes the register that SB names. -/
def ruleCount (v : Vx) : VecRule :=
  { d := false, ty := fun _ => true, sat := false, satTy := v.ty, sbReg := true, imm := v.imm == 0 }

/-- A pair of element types that MMA and MMAG allow (R179). -/
def matPair (ta tb : ElemTy) : Bool :=
  let half := fun t => t == .bf16 || t == .f16 || t == .t8 || t == .t6
  let int := fun t => t == .s8 || t == .q4
  (half ta && half tb) || (ta == .f32 && tb == .f32) || (int ta && int tb)

/-- K of MMA and MMAG (R184). -/
def matK (ta : ElemTy) (k : Nat) : Bool :=
  if ta == .f32 then 8 ≤ k && k ≤ 65528 && k % 8 == 0 else 32 ≤ k && k ≤ 65504 && k % 32 == 0

/-- The row of R184 for MMA and MMAG. -/
def mmaOk (m : Mx) : Bool := m.hs == 0 && m.ht == 0 && matPair m.ta m.tb && matK m.ta m.k.toNat
/-- What MZERO, MSCA and MRD all leave zero (R184). -/
def macOk (m : Mx) : Bool := m.ha == 0 && m.hb == 0 && !m.z && !m.la && !m.lb && m.k == 0

/-- The pairs of MRD (R190): TB names the accumulator, TA the destination. -/
def mrdPair (ta tb : ElemTy) : Bool :=
  (tb == .f32 && (ta == .f32 || ta == .bf16 || ta == .f16 || ta == .t8))
  || (tb == .s32 && (ta == .s32 || ta == .f32))

/-- The format of X as a number type. -/
def fmtNum : FFmt → NumTy
  | .d => .f64
  | .s => .f32

/-- FCVT's conversions (R35). -/
def cvtOk (x : FFmt) (c : Cvt) : Bool :=
  if c.fromInt then c.ty != .f64 && c.ty != .f32 else c.ty != fmtNum x

/-- ORD and SCOPE of an LSX word (R82): `one` is the order beside plain and relaxed. -/
def lsxOk (one : Ord) (o : Ord) (sc : Scope) : Bool :=
  (o == .plain && sc == .core) || o == .rlx || o == one

/-- ORD of an AMO word, and C on an OP that compares nothing (R232). -/
def amoOk (cas : Bool) (m : AmoF) : Bool := m.ord != .plain && (cas || m.c == 0)

/-- An ECX word with ENG = 00 (R94). `b` says that the function reads register B, `im` that it uses IMM32. -/
def ecxOk (b im : Bool) (e : Ecx) : Bool :=
  (e.acq || e.rel || e.scope == .core) && (e.lit.isNone || e.b == 0) && (b || e.b == 0) && (im || e.imm == 0)

/-- A Callyn packet's head beat keeps its field widths (R246). -/
def packetOk (p : Packet) : Bool :=
  p.op < 256 && p.cont < 256 && p.src < 4096 && p.dst < 4096 && p.seq < 65536
  && p.faddr < 2 ^ 64 && p.len ≤ 256 && p.flg < 256 && p.ord < 256 && p.tag < 2 ^ 32 && p.raddr < 2 ^ 64

end Sys2Proof.Machine
end

