-- ==== Sys2Proof/WellFormed.lean ====
section
/-!
DEFINITION. The well-formed instructions: those whose fields pass step 4 of R42. The steps of the units carry
no word; of those only a packet has field widths to keep.
-/
set_option linter.all false
namespace Sys2Proof
open Machine

/-- Whether the fields of an instruction are ones that the spec accepts (R42 step 4). -/
def Instr.wellFormed (i : Instr) : Bool :=
  match i with
  | .nop => true
  | .trap _ => true
  | .svc _ _ => true
  | .hret => true
  | .evwait _ => true
  | .evpost _ => true
  | .brk _ => true
  | .synci => true
  | .fence scope rel acq => rel || acq
  | .bar _ _ => true
  | .halt => true
  | .add _ _ _ _ => true
  | .sub _ _ _ _ => true
  | .and _ _ _ _ => true
  | .or _ _ _ _ => true
  | .xor _ _ _ _ => true
  | .andn _ _ _ _ => true
  | .shl _ _ _ _ => true
  | .shr _ _ _ _ => true
  | .sar _ _ _ _ => true
  | .rol _ _ _ _ => true
  | .slt _ _ _ _ => true
  | .sltn _ _ _ _ => true
  | .min _ _ _ _ => true
  | .max _ _ _ _ => true
  | .minn _ _ _ _ => true
  | .maxn _ _ _ _ => true
  | .mul _ _ _ _ => true
  | .mulh _ _ _ _ => true
  | .mulhn _ _ _ _ => true
  | .div _ _ _ _ => true
  | .divn _ _ _ _ => true
  | .rem _ _ _ _ => true
  | .remn _ _ _ _ => true
  | .clz _ _ _ => true
  | .ctz _ _ _ => true
  | .popc _ _ _ => true
  | .sext _ _ _ => true
  | .zext _ _ _ => true
  | .movg _ _ _ _ => true
  | .bswap _ _ _ => true
  | .addi _ _ _ => true
  | .addiLit _ _ _ => true
  | .andi _ _ _ => true
  | .andiLit _ _ _ => true
  | .ori _ _ _ => true
  | .oriLit _ _ _ => true
  | .xori _ _ _ => true
  | .xoriLit _ _ _ => true
  | .shli _ _ _ => true
  | .shri _ _ _ => true
  | .sari _ _ _ => true
  | .roli _ _ _ => true
  | .slti _ _ _ => true
  | .sltiLit _ _ _ => true
  | .sltin _ _ _ => true
  | .sltinLit _ _ _ => true
  | .ldi _ _ => true
  | .ldl _ _ => true
  | .cadr _ _ _ => true
  | .crel _ _ _ => true
  | .cxy _ _ => true
  | .cres _ _ => true
  | .wfld k _ _ => k.toNat ≤ 5
  | .ld _ _ _ _ => true
  | .st _ _ _ _ _ => true
  | .lsxLoad l => lsxOk .acq l.ord l.scope
  | .lsxStore l => lsxOk .rel l.ord l.scope
  | .stmap _ _ _ => true
  | .stunmap _ => true
  | .stflush _ => true
  | .lastuse _ _ => true
  | .discard _ _ => true
  | .pref _ _ => true
  | .tlbinv _ => true
  | .aadd m => amoOk false m
  | .aand m => amoOk false m
  | .aor m => amoOk false m
  | .axor m => amoOk false m
  | .amin m => amoOk false m
  | .amax m => amoOk false m
  | .aminn m => amoOk false m
  | .amaxn m => amoOk false m
  | .aswap m => amoOk false m
  | .acas m => amoOk true m
  | .afadd m => amoOk false m
  | .bz _ _ _ _ => true
  | .bg _ _ _ _ => true
  | .j _ => true
  | .call _ => true
  | .jr _ => true
  | .callr _ => true
  | .ret => true
  | .loop _ _ => true
  | .cmpgEq _ _ _ => true
  | .cmpgNe _ _ _ => true
  | .cmpgLt _ _ _ => true
  | .cmpgGe _ _ _ => true
  | .cmpgLtn _ _ _ => true
  | .cmpgGen _ _ _ => true
  | .gset _ _ => true
  | .gclr _ => true
  | .gmov _ _ => true
  | .gand _ _ _ => true
  | .gor _ _ _ => true
  | .gnot _ _ => true
  | .cmpgi _ _ _ _ => true
  | .cmpgiLit _ _ _ _ => true
  | .hld _ _ => true
  | .hst _ _ => true
  | .hset k _ _ => k.toNat ≤ 3
  | .hget k _ _ => k.toNat ≤ 3
  | .hadv _ => true
  | .hcopy _ _ => true
  | .part _ _ _ => true
  | .rbind _ _ => true
  | .rwait _ _ => true
  | .radvp _ _ => true
  | .radvc _ _ => true
  | .rcnt _ _ => true
  | .wprd c _ => c.toNat ≤ 3
  | .wpwait _ c => c.toNat ≤ 3
  | .fadd _ _ _ _ _ => true
  | .fsub _ _ _ _ _ => true
  | .fmul _ _ _ _ _ => true
  | .fdiv _ _ _ _ _ => true
  | .fsqrt _ _ _ _ => true
  | .fmac _ _ _ _ _ => true
  | .fmin _ _ _ _ => true
  | .fmax _ _ _ _ => true
  | .fabs _ _ _ => true
  | .fneg _ _ _ => true
  | .fcvt x _ c _ _ => cvtOk x c
  | .fclass _ _ _ => true
  | .fcmpg _ _ _ _ _ => true
  | .copy _ _ _ _ => true
  | .gather _ _ _ _ => true
  | .scatter _ _ _ _ => true
  | .compact _ _ _ _ => true
  | .fill _ _ _ _ => true
  | .flushr _ _ _ => true
  | .cstat _ => true
  | .copyEcx e => ecxOk true false e
  | .gatherEcx e => ecxOk true false e
  | .scatterEcx e => ecxOk true false e
  | .compactEcx e => ecxOk true true e
  | .fillEcx e => ecxOk true false e
  | .flushrEcx e => ecxOk false false e
  | .xstart _ _ => true
  | .xstartEcx _ _ _ => true
  | .xwait _ _ => true
  | .xstat _ _ => true
  | .xcancel _ => true
  | .mcwr _ _ _ => true
  | .aclwr _ _ _ => true
  | .fend => true
  | .fendCommit _ _ => true
  | .lvrd _ _ => true
  | .lvstep _ => true
  | .lvbind _ _ => true
  | .lvsend _ _ => true
  | .lvrecv _ _ => true
  | .freeze => true
  | .thaw => true
  | .front _ _ => true
  | .spawn _ _ _ => true
  | .tend => true
  | .joinw _ => true
  | .launch _ _ => true
  | .vadd v => vxOk (ruleArith2 v) v
  | .vsub v => vxOk (ruleArith2 v) v
  | .vmul v => vxOk (ruleArith2 v) v
  | .vfma v => vxOk (ruleFma v) v
  | .vfms v => vxOk (ruleFma v) v
  | .vmin v => vxOk (ruleMinMax v) v
  | .vmax v => vxOk (ruleMinMax v) v
  | .vabs v => vxOk (ruleUnary v) v
  | .vneg v => vxOk (ruleUnary v) v
  | .vdiv v => vxOk (ruleDiv v) v
  | .vsqrt v => vxOk (ruleRoot v) v
  | .vrcp v => vxOk (ruleRoot v) v
  | .vrsq v => vxOk (ruleRoot v) v
  | .vexp2 v => vxOk (ruleSpecial v) v
  | .vlog2 v => vxOk (ruleSpecial v) v
  | .vtanh v => vxOk (ruleSpecial v) v
  | .vsigm v => vxOk (ruleSpecial v) v
  | .vand v => vxOk (ruleBit2 v) v
  | .vor v => vxOk (ruleBit2 v) v
  | .vxor v => vxOk (ruleBit2 v) v
  | .vnot v => vxOk (ruleNot v) v
  | .vshl v => vxOk (ruleShift v) v
  | .vshr v => vxOk (ruleShift v) v
  | .vsar v => vxOk (ruleShift v) v
  | .vcmp v => vxOk (ruleCmp v) v
  | .vsel v => vxOk (ruleSel v) v
  | .vcvt v => vxOk (ruleCvt v) v
  | .vred v => vxOk (ruleRed v) v
  | .vscan v => vxOk (ruleScan v) v
  | .vbcst v => vxOk (ruleBcst v) v
  | .vlerp v => vxOk (ruleLerp v) v
  | .vqexp v => vxOk (ruleQexp v) v
  | .viota v => vxOk (ruleIota v) v
  | .vcount v => vxOk (ruleCount v) v
  | .vclamp v => vxOk (ruleClamp v) v
  | .mma m => mmaOk m && m.hx == 0
  | .mmag m => mmaOk m
  | .mzero m => macOk m && m.ta == .f64 && m.tb == .f64 && m.hx == 0 && m.hs == 0 && m.ht == 0
  | .msca m => macOk m && isFX m.ta && (m.tb == .f32 || m.tb == .s32)
  | .mrd m => macOk m && mrdPair m.ta m.tb && m.hs == 0 && m.ht == 0
  | .mpri _ => true
  | .mwait => true
  | .cntrd n _ => n.toNat ≤ 3
  | .mark _ => true
  | .csrrd _ _ => true
  | .csrwr _ _ => true
  | .csrsw _ _ _ => true
  | .csrset _ _ _ => true
  | .csrclr _ _ _ => true
  | .stszWrite _ => true
  | .migthWrite _ => true
  | .rchkClr => true
  | .rchkEnWrite _ => true
  | .qtableWrite _ _ => true
  | .fpCsrAccess _ => true
  | .pcapWrite _ => true
  | .registerWrite _ _ => true
  | .contextSelect _ => true
  | .loadReply _ _ => true
  | .storePerform _ _ => true
  | .park _ _ => true
  | .stashFill _ _ => true
  | .dieCacheEvict _ _ => true
  | .directoryOverflowEvent _ _ _ => true
  | .directoryOvfWrite _ _ => true
  | .pageWalk _ _ _ => true
  | .migrationStart _ _ _ => true
  | .migrationComplete _ => true
  | .crossPackageMigration _ _ _ => true
  | .ownershipRequest _ _ _ => true
  | .invalidationAck _ _ => true
  | .invalidationResend _ _ => true
  | .dieUnresponsive _ => true
  | .hostCxlRead _ _ => true
  | .hostCxlWrite _ _ => true
  | .memoryErrorDetected _ => true
  | .dieResetGraceful _ => true
  | .dieResetForced _ => true
  | .dieResetEnd _ => true
  | .poolPush _ _ => true
  | .copyQueueRelease _ => true
  | .copyBeat _ _ => true
  | .copyCommandEnd _ _ => true
  | .vectorBeat _ => true
  | .vectorCommandEnd _ => true
  | .matrixSelect _ => true
  | .matrixKstep _ => true
  | .matrixOvertake _ _ => true
  | .matrixCommandEnd _ => true
  | .ringNotification _ _ _ => true
  | .levelNotification _ _ _ _ _ _ => true
  | .gateEvaluate _ _ => true
  | .firingDispatch _ _ => true
  | .nadirRefresh _ => true
  | .lvstall _ => true
  | .domainComplete _ => true
  | .inboxMessage _ => true
  | .supervisorMessage _ => true
  | .resume _ _ => true
  | .resumeValue _ _ _ => true
  | .restart _ _ => true
  | .abort _ _ => true
  | .p0Request _ => true
  | .contextSave _ _ => true
  | .contextResume _ _ => true
  | .taskSearch _ _ => true
  | .taskSearchRestEnd _ => true
  | .joinwWake _ _ => true
  | .barrierDepart _ => true
  | .exchangeStart _ => true
  | .exchangeRun _ => true
  | .exchangeRunDeliver _ => true
  | .exchangeAck _ => true
  | .closingNotice _ => true
  | .abandonment _ => true
  | .exchangeEnd _ => true
  | .rd p => packetOk p
  | .wr p => packetOk p
  | .amo p => packetOk p
  | .gwr p => packetOk p
  | .xrun p => packetOk p
  | .msg p => packetOk p
  | .gangReserve p => packetOk p
  | .gangCommit p => packetOk p
  | .gangAbort p => packetOk p
  | .mig p => packetOk p
  | .shoot p => packetOk p
  | .nadir p => packetOk p
  | .cfg p => packetOk p
  | .val p => packetOk p
  | .dep p => packetOk p
  | .cnt p => packetOk p
  | .done p => packetOk p
  | .mack p => packetOk p
  | .nack p => packetOk p
  | .unknown p => packetOk p
  | .mackPortTimeout _ _ => true
  | .amoRetransmit _ => true
  | .amoTimeout _ => true
  | .linkGroupFail _ => true
  | .linkGroupRestore _ => true
  | .gangReserveTimeout _ => true
  | .gangCommitTimeout _ => true
  | .reservationExpire _ => true
  | .gangAbortResend _ => true
  | .launchWindowCopy _ _ => true
  | .launchRetry => true
  | .energyWindow => true
  | .energyBudgetSpent _ => true
  | .windowEnable _ => true
  | .windowDestroy _ => true
  | .domainAbort _ => true
  | .hostSupervisorCommand _ => true
  | .dctlHaltreq _ _ => true
  | .dctlResume _ _ => true
  | .dctlStep _ _ => true
  | .dctlCancel _ _ => true
  | .contextStateWrite _ _ _ _ => true
  | .stopEntryWrite _ _ _ => true
  | .stopRequest _ => true
  | .dumpStart _ => true
  | .dumpWrite => true
  | .traceEnable _ => true
  | .replayArm _ => true
  | .replayPassEnd => true
  | .errorInjectWrite _ _ _ _ => true
  | .notificationDrain _ => true
  | .ethQueueEnable _ _ _ => true
  | .ethQueueDisable _ _ _ => true
  | .ethProducerUpdate _ _ _ => true
  | .ethTransmit _ _ => true
  | .ethReceive _ _ _ => true
  | .ethPauseReceive _ _ => true
  | .ethLinkChange _ _ => true
  | .powerGood _ => true
  | .packageReset _ => true
  | .firmwareLoadWrite _ _ => true
  | .amoPerform _ _ => true
  | .backgroundRangeOperation _ _ => true
  | .cxlCacheSnoop _ => true
  | .spdmRequest _ => true
  | .ethPauseExpire _ _ => true

end Sys2Proof
end

