-- ==== Sys2Proof/Decode.lean ====
section
/-!
DEFINITION. The decoder, total on any words, and the encoder beside it (R7-R16, R27-R47). The decoder reads the
fields of a word (`candidate`) and accepts them when they pass step 4 of R42: no unused bit is set, which is
that the instruction read encodes to exactly the words fetched, and `wellFormed` holds.
-/
set_option linter.all false
namespace Sys2Proof
open Machine

/-- The checks of R42 that a word can fail; each raises ILL. -/
inductive DecodeError where
  /-- step 1: fewer words than the length names -/
  | tooShort
  /-- step 2: the major is unassigned or does not accept LEN (R27) -/
  | opcode
  /-- step 3: the function, OP, ENG or OPC is unassigned -/
  | function
  /-- step 4: a field -/
  | fields
  deriving DecidableEq, Repr

/-- A flag as a bit. -/
def bitN (b : Bool) : Nat := if b then 1 else 0

/-- Bits [lo+n-1:lo] of a word. -/
def fld (w lo n : Nat) : Nat := w / 2 ^ lo % 2 ^ n

/-- One bit of a word. -/
def flag (w lo : Nat) : Bool := w / 2 ^ lo % 2 == 1

/-- A register field. -/
def regAt (w lo : Nat) : Reg := BitVec.ofNat 5 (w / 2 ^ lo)
/-- A handle field. -/
def hAt (w lo : Nat) : HIx := BitVec.ofNat 4 (w / 2 ^ lo)
/-- A guard field. -/
def qAt (w lo : Nat) : QIx := BitVec.ofNat 3 (w / 2 ^ lo)

/-- The two words of a literal, low word first (R7). -/
def litWords (v : Word) : List Nat := [v.toNat % 2 ^ 32, v.toNat / 2 ^ 32]
/-- The literal that two words hold. -/
def litOf (lo hi : Nat) : Word := BitVec.ofNat 64 (lo + 2 ^ 32 * hi)

/-- RM codes (R15). -/
def Rm.code : Rm → Nat
  | .dyn => 0
  | .rne => 1
  | .rtz => 2
  | .rdn => 3
  | .rup => 4
  | .rna => 5

/-- The reading of a code of `Rm`, none where the code is not assigned. -/
def Rm.ofCode (n : Nat) : Option Rm :=
  match n with
  | 0 => some .dyn
  | 1 => some .rne
  | 2 => some .rtz
  | 3 => some .rdn
  | 4 => some .rup
  | 5 => some .rna
  | _ => none

/-- X on the FPU major (R35). -/
def FFmt.code : FFmt → Nat
  | .d => 0
  | .s => 1

/-- The reading of a code of `FFmt`, none where the code is not assigned. -/
def FFmt.ofCode (n : Nat) : Option FFmt :=
  match n with
  | 0 => some .d
  | 1 => some .s
  | _ => none

/-- Element type codes (R133). -/
def ElemTy.code : ElemTy → Nat
  | .f64 => 0
  | .f32 => 1
  | .bf16 => 2
  | .f16 => 3
  | .t8 => 4
  | .t6 => 5
  | .q4 => 6
  | .s8 => 7
  | .n8 => 8
  | .s16 => 9
  | .n16 => 10
  | .s32 => 11
  | .n32 => 12
  | .s64 => 13
  | .n64 => 14

/-- W codes (R11). -/
def MemW.code : MemW → Nat
  | .s8 => 0
  | .n8 => 1
  | .s16 => 2
  | .n16 => 3
  | .s32 => 4
  | .n32 => 5
  | .d64 => 6

/-- The reading of a code of `MemW`, none where the code is not assigned. -/
def MemW.ofCode (n : Nat) : Option MemW :=
  match n with
  | 0 => some .s8
  | 1 => some .n8
  | 2 => some .s16
  | 3 => some .n16
  | 4 => some .s32
  | 5 => some .n32
  | 6 => some .d64
  | _ => none

/-- Z codes (R11). -/
def StSz.code : StSz → Nat
  | .b => 0
  | .h => 1
  | .w => 2
  | .d => 3

/-- The reading of a code of `StSz`, none where the code is not assigned. -/
def StSz.ofCode (n : Nat) : Option StSz :=
  match n with
  | 0 => some .b
  | 1 => some .h
  | 2 => some .w
  | 3 => some .d
  | _ => none

/-- The W code of a store size (R82). -/
def StSz.wCode : StSz → Nat
  | .b => 1
  | .h => 3
  | .w => 5
  | .d => 6

/-- The store size of a W code; the others are ILL (R82). -/
def StSz.ofWCode (n : Nat) : Option StSz :=
  match n with
  | 1 => some .b
  | 3 => some .h
  | 5 => some .w
  | 6 => some .d
  | _ => none

/-- C codes (R11). -/
def Cond.code : Cond → Nat
  | .eq0 => 0
  | .ne0 => 1
  | .lt0 => 2
  | .ge0 => 3
  | .gt0 => 4
  | .le0 => 5
  | .b0c => 6
  | .b0s => 7

/-- The reading of a code of `Cond`, none where the code is not assigned. -/
def Cond.ofCode (n : Nat) : Option Cond :=
  match n with
  | 0 => some .eq0
  | 1 => some .ne0
  | 2 => some .lt0
  | 3 => some .ge0
  | 4 => some .gt0
  | 5 => some .le0
  | 6 => some .b0c
  | 7 => some .b0s
  | _ => none

/-- Scope codes (R16). -/
def Scope.code : Scope → Nat
  | .core => 0
  | .cl => 1
  | .die => 2
  | .pkg => 3
  | .sys => 4

/-- The reading of a code of `Scope`, none where the code is not assigned. -/
def Scope.ofCode (n : Nat) : Option Scope :=
  match n with
  | 0 => some .core
  | 1 => some .cl
  | 2 => some .die
  | 3 => some .pkg
  | 4 => some .sys
  | _ => none

/-- Order codes (R16). -/
def Ord.code : Ord → Nat
  | .plain => 0
  | .rlx => 1
  | .acq => 2
  | .rel => 3
  | .acqrel => 4

/-- The reading of a code of `Ord`, none where the code is not assigned. -/
def Ord.ofCode (n : Nat) : Option Ord :=
  match n with
  | 0 => some .plain
  | 1 => some .rlx
  | 2 => some .acq
  | 3 => some .rel
  | 4 => some .acqrel
  | _ => none

/-- Width codes of SEXT and ZEXT (R30). -/
def ExtW.code : ExtW → Nat
  | .b => 0
  | .h => 1
  | .w => 2

/-- The reading of a code of `ExtW`, none where the code is not assigned. -/
def ExtW.ofCode (n : Nat) : Option ExtW :=
  match n with
  | 0 => some .b
  | 1 => some .h
  | 2 => some .w
  | _ => none

/-- Condition codes of CMPGI (R31). -/
def CmpI.code : CmpI → Nat
  | .eq => 0
  | .ne => 1
  | .lt => 2
  | .ge => 3

/-- The reading of a code of `CmpI`, none where the code is not assigned. -/
def CmpI.ofCode (n : Nat) : Option CmpI :=
  match n with
  | 0 => some .eq
  | 1 => some .ne
  | 2 => some .lt
  | 3 => some .ge
  | _ => none

/-- Condition codes of FCMPG (R35). -/
def FCond.code : FCond → Nat
  | .eq => 0
  | .lt => 1
  | .le => 2
  | .uo => 3

/-- The reading of a code of `FCond`, none where the code is not assigned. -/
def FCond.ofCode (n : Nat) : Option FCond :=
  match n with
  | 0 => some .eq
  | 1 => some .lt
  | 2 => some .le
  | 3 => some .uo
  | _ => none

/-- Affinity codes (R37). -/
def Affinity.code : Affinity → Nat
  | .loc => 0
  | .die n => 4 + n.toNat
  | .any => 8

/-- The reading of an affinity code. -/
def Affinity.ofCode (n : Nat) : Option Affinity :=
  match n with
  | 0 => some .loc
  | 4 => some (.die 0)
  | 5 => some (.die 1)
  | 6 => some (.die 2)
  | 7 => some (.die 3)
  | 8 => some .any
  | _ => none

/-- Type codes that FCVT accepts (R35). -/
def NumTy.code : NumTy → Nat
  | .f64 => 0
  | .f32 => 1
  | .s32 => 11
  | .n32 => 12
  | .s64 => 13
  | .n64 => 14

/-- The reading of FCVT's type code. -/
def NumTy.ofCode (n : Nat) : Option NumTy :=
  match n with
  | 0 => some .f64
  | 1 => some .f32
  | 11 => some .s32
  | 12 => some .n32
  | 13 => some .s64
  | 14 => some .n64
  | _ => none

/-- FCVT's conversion code: B[4] set names an integer source (R35). -/
def Cvt.code (c : Cvt) : Nat := bitN c.fromInt * 16 + c.ty.code

/-- The reading of FCVT's conversion code. -/
def Cvt.ofCode (n : Nat) : Option Cvt := (NumTy.ofCode (n % 16)).map fun t => { fromInt := n / 16 % 2 == 1, ty := t }

/-- CSR numbers (R47). -/
def CsrName.code : CsrName → Nat
  | .fpc => 0x000
  | .fpf => 0x001
  | .nbv => 0x002
  | .qtlo => 0x003
  | .qthi => 0x004
  | .coord => 0x010
  | .widl => 0x011
  | .dgx => 0x012
  | .dgy => 0x013
  | .dox => 0x014
  | .doy => 0x015
  | .ctx => 0x016
  | .gtid => 0x017
  | .supv => 0x018
  | .tvec => 0x020
  | .epc => 0x021
  | .ecause => 0x022
  | .eaddr => 0x023
  | .einfo => 0x024
  | .estat => 0x025
  | .reix => 0x026
  | .wins => 0x027
  | .stsz => 0x030
  | .dqbase => 0x031
  | .migth => 0x040
  | .agesh => 0x041
  | .pcap => 0x042
  | .devcap => 0x050
  | .pmcsel => 0x064
  | .rchk => 0x070
  | .pmc n => 0x060 + n.toNat

/-- The CSR with a number; an unassigned number is ILL (R47). -/
def CsrName.ofCode (n : Nat) : Option CsrName :=
  match n with
  | 0x000 => some .fpc
  | 0x001 => some .fpf
  | 0x002 => some .nbv
  | 0x003 => some .qtlo
  | 0x004 => some .qthi
  | 0x010 => some .coord
  | 0x011 => some .widl
  | 0x012 => some .dgx
  | 0x013 => some .dgy
  | 0x014 => some .dox
  | 0x015 => some .doy
  | 0x016 => some .ctx
  | 0x017 => some .gtid
  | 0x018 => some .supv
  | 0x020 => some .tvec
  | 0x021 => some .epc
  | 0x022 => some .ecause
  | 0x023 => some .eaddr
  | 0x024 => some .einfo
  | 0x025 => some .estat
  | 0x026 => some .reix
  | 0x027 => some .wins
  | 0x030 => some .stsz
  | 0x031 => some .dqbase
  | 0x040 => some .migth
  | 0x041 => some .agesh
  | 0x042 => some .pcap
  | 0x050 => some .devcap
  | 0x064 => some .pmcsel
  | 0x070 => some .rchk
  | 0x060 => some (.pmc 0)
  | 0x061 => some (.pmc 1)
  | 0x062 => some (.pmc 2)
  | 0x063 => some (.pmc 3)
  | _ => none

/-- Words in a length (R7). -/
def lenWords (len : Nat) : Nat := if len = 0 then 1 else if len = 3 then 5 else 3

/-- Format A (R10). -/
def wA (maj f x b a d : Nat) : Nat := maj * 4 + d * 256 + a * 8192 + b * 262144 + f * 8388608 + x * 1073741824
/-- Format I (R10): `len` is 1 when a literal follows. -/
def wI (maj len i a d : Nat) : Nat := len + maj * 4 + d * 256 + a * 8192 + i * 262144
/-- The M and S formats (R10): `z` is the field [20:18]. -/
def wM (maj o z a d : Nat) : Nat := maj * 4 + d * 256 + a * 8192 + z * 262144 + o * 2097152
/-- Bits [6:0] of a guard prefix as GN, GQ, GE from bit 0 of GE up. -/
def gdBits (g : Gd) : Nat := bitN g.ge + g.gq.toNat * 2 + bitN g.gn * 16
/-- The guard prefix in those bits. -/
def gdOf (n : Nat) : Gd := { ge := flag n 0, gq := qAt n 1, gn := flag n 4 }

/-- Words 0 to 2 and the literal of the VX form (R15). -/
def encVx (fn : Nat) (v : Vx) : List Nat :=
  [ (if v.lit.isSome then 3 else 2) + 0x21 * 4 + fn * 256 + v.ty.code * 32768 + v.hd.toNat * 524288
      + v.ha.toNat * 8388608 + v.hb.toNat * 134217728 + bitN v.bs * 2147483648,
    v.hc.toNat + gdBits v.gd * 16 + bitN v.la * 512 + bitN v.lb * 1024 + bitN v.lc * 2048
      + v.rm.code * 4096 + bitN v.sat * 32768 + v.sb.toNat * 65536,
    v.imm.toNat ] ++ (match v.lit with | some l => litWords l | none => [])

/-- The VX fields of the words fetched; none for a type or rounding code that is not assigned. -/
def decVx (w0 w1 w2 : Nat) (lit : Option Word) : Option Vx :=
  match elemOfCode (fld w0 15 4), Rm.ofCode (fld w1 12 3) with
  | some ty, some rm => some
      { bs := flag w0 31, hb := hAt w0 27, ha := hAt w0 23, hd := hAt w0 19, ty := ty, sb := regAt w1 16,
        sat := flag w1 15, rm := rm, lc := flag w1 11, lb := flag w1 10, la := flag w1 9,
        gd := gdOf (fld w1 4 5), hc := hAt w1 0, imm := BitVec.ofNat 32 w2, lit := lit }
  | _, _ => none

/-- The guard field of the MX form: GE [8], GQ [11:9], GN [12]. -/
def encMx (fn : Nat) (m : Mx) : List Nat :=
  [ 2 + 0x22 * 4 + fn * 256 + m.ta.code * 32768 + m.ha.toNat * 524288 + m.hb.toNat * 8388608
      + m.hx.toNat * 134217728 + bitN m.z * 2147483648,
    m.hs.toNat + m.ht.toNat * 16 + gdBits m.gd * 256 + bitN m.la * 8192 + bitN m.lb * 16384
      + m.m.toNat * 32768 + m.n.toNat * 2097152 + m.tb.code * 134217728,
    m.k.toNat ]

/-- The MX fields of the words fetched. -/
def decMx (w0 w1 w2 : Nat) : Option Mx :=
  match elemOfCode (fld w0 15 4), elemOfCode (fld w1 27 4) with
  | some ta, some tb => some
      { z := flag w0 31, hx := hAt w0 27, hb := hAt w0 23, ha := hAt w0 19, ta := ta, tb := tb,
        n := BitVec.ofNat 6 (w1 / 2 ^ 21), m := BitVec.ofNat 6 (w1 / 2 ^ 15), lb := flag w1 14, la := flag w1 13,
        gd := gdOf (fld w1 8 5), ht := hAt w1 4, hs := hAt w1 0, k := BitVec.ofNat 16 w2 }
  | _, _ => none

/-- Words of an ECX form with ENG = 00 (R15). -/
def encEcx (fn : Nat) (e : Ecx) : List Nat :=
  [ (if e.lit.isSome then 3 else 2) + 0x23 * 4 + e.d.toNat * 256 + e.a.toNat * 8192 + e.b.toNat * 262144
      + fn * 8388608 + e.ch.toNat * 1073741824,
    gdBits e.gd * 4 + bitN e.acq * 128 + bitN e.rel * 256 + e.scope.code * 512 + bitN e.g * 4096,
    e.imm.toNat ] ++ (match e.lit with | some l => litWords l | none => [])

/-- The ECX fields of the words fetched. -/
def decEcx (w0 w1 w2 : Nat) (lit : Option Word) : Option Ecx :=
  (Scope.ofCode (fld w1 9 3)).map fun sc =>
    { ch := BitVec.ofNat 2 (w0 / 2 ^ 30), b := regAt w0 18, a := regAt w0 13, d := regAt w0 8, g := flag w1 12,
      scope := sc, rel := flag w1 8, acq := flag w1 7, gd := gdOf (fld w1 2 5), lit := lit, imm := BitVec.ofNat 4 w2 }

/-- Words of an LSX load (R15). -/
def encLsxLoad (l : LsxLoad) : List Nat :=
  [ 2 + 0x0D * 4 + l.d.toNat * 256 + l.a.toNat * 8192 + l.w.code * 262144 + bitN l.g * 4194304
      + l.ord.code * 8388608 + l.scope.code * 67108864 + bitN l.lu * 536870912, l.off.toNat, 0 ]

/-- Words of an LSX store (R15). -/
def encLsxStore (l : LsxStore) : List Nat :=
  [ 2 + 0x0D * 4 + l.s.toNat * 256 + l.a.toNat * 8192 + l.w.wCode * 262144 + 2097152 + bitN l.g * 4194304
      + l.ord.code * 8388608 + l.scope.code * 67108864 + bitN l.lu * 536870912, l.off.toNat, 0 ]

/-- An LSX word, STORE choosing between the two (R15). -/
def decLsx (w0 w1 : Nat) : Option Instr :=
  match Scope.ofCode (fld w0 26 3), Ord.ofCode (fld w0 23 3) with
  | some sc, some o =>
    if flag w0 21 then
      (StSz.ofWCode (fld w0 18 3)).map fun w => .lsxStore
        { lu := flag w0 29, scope := sc, ord := o, g := flag w0 22, w := w, a := regAt w0 13, s := regAt w0 8,
          off := BitVec.ofNat 32 w1 }
    else
      (MemW.ofCode (fld w0 18 3)).map fun w => .lsxLoad
        { lu := flag w0 29, scope := sc, ord := o, g := flag w0 22, w := w, a := regAt w0 13, d := regAt w0 8,
          off := BitVec.ofNat 32 w1 }
  | _, _ => none

/-- Words of an AMO (R15). -/
def encAmo (op : Nat) (m : AmoF) : List Nat :=
  [ 2 + 0x0F * 4 + m.d.toNat * 256 + m.a.toNat * 8192 + m.b.toNat * 262144 + op * 8388608
      + bitN m.sz * 134217728 + bitN m.g * 268435456,
    m.c.toNat + m.ord.code * 32 + m.scope.code * 256, m.off.toNat ]

/-- The AMO fields of the words fetched. -/
def decAmo (w0 w1 w2 : Nat) : Option AmoF :=
  match Scope.ofCode (fld w1 8 3), Ord.ofCode (fld w1 5 3) with
  | some sc, some o => some
      { g := flag w0 28, sz := flag w0 27, b := regAt w0 18, a := regAt w0 13, d := regAt w0 8, scope := sc, ord := o,
        c := regAt w1 0, off := BitVec.ofNat 32 w2 }
  | _, _ => none

/-- An FPU word: F[6:4] is RM, X the format (R35). -/
def wF (fn : Nat) (x : FFmt) (rm : Nat) (b a d : Nat) : Nat := wA 0x1A (fn + 16 * rm) x.code b a d

/-- The words of an instruction; the steps of the units have none. -/
def encode (i : Instr) : List Nat :=
  match i with
  | .nop => [wA 0x00 0x00 0 0 0 0]
  | .trap n => [wA 0x00 0x01 0 n.toNat 0 0]
  | .svc b a => [wA 0x00 0x02 0 b.toNat a.toNat 0]
  | .hret => [wA 0x00 0x03 0 0 0 0]
  | .evwait d => [wA 0x00 0x04 0 0 0 d.toNat]
  | .evpost a => [wA 0x00 0x05 0 0 a.toNat 0]
  | .brk n => [wA 0x00 0x06 0 n.toNat 0 0]
  | .synci => [wA 0x00 0x07 0 0 0 0]
  | .fence scope rel acq => [wA 0x00 0x08 0 (scope.code * 4 + bitN rel * 2 + bitN acq) 0 0]
  | .bar scope a => [wA 0x00 0x09 0 scope.code a.toNat 0]
  | .halt => [wA 0x00 0x0A 0 0 0 0]
  | .add w b a d => [wA 0x01 0x00 (bitN w) b.toNat a.toNat d.toNat]
  | .sub w b a d => [wA 0x01 0x01 (bitN w) b.toNat a.toNat d.toNat]
  | .and w b a d => [wA 0x01 0x02 (bitN w) b.toNat a.toNat d.toNat]
  | .or w b a d => [wA 0x01 0x03 (bitN w) b.toNat a.toNat d.toNat]
  | .xor w b a d => [wA 0x01 0x04 (bitN w) b.toNat a.toNat d.toNat]
  | .andn w b a d => [wA 0x01 0x05 (bitN w) b.toNat a.toNat d.toNat]
  | .shl w b a d => [wA 0x01 0x08 (bitN w) b.toNat a.toNat d.toNat]
  | .shr w b a d => [wA 0x01 0x09 (bitN w) b.toNat a.toNat d.toNat]
  | .sar w b a d => [wA 0x01 0x0A (bitN w) b.toNat a.toNat d.toNat]
  | .rol w b a d => [wA 0x01 0x0B (bitN w) b.toNat a.toNat d.toNat]
  | .slt w b a d => [wA 0x01 0x0C (bitN w) b.toNat a.toNat d.toNat]
  | .sltn w b a d => [wA 0x01 0x0D (bitN w) b.toNat a.toNat d.toNat]
  | .min w b a d => [wA 0x01 0x0E (bitN w) b.toNat a.toNat d.toNat]
  | .max w b a d => [wA 0x01 0x0F (bitN w) b.toNat a.toNat d.toNat]
  | .minn w b a d => [wA 0x01 0x10 (bitN w) b.toNat a.toNat d.toNat]
  | .maxn w b a d => [wA 0x01 0x11 (bitN w) b.toNat a.toNat d.toNat]
  | .mul w b a d => [wA 0x01 0x12 (bitN w) b.toNat a.toNat d.toNat]
  | .mulh w b a d => [wA 0x01 0x13 (bitN w) b.toNat a.toNat d.toNat]
  | .mulhn w b a d => [wA 0x01 0x14 (bitN w) b.toNat a.toNat d.toNat]
  | .div w b a d => [wA 0x01 0x15 (bitN w) b.toNat a.toNat d.toNat]
  | .divn w b a d => [wA 0x01 0x16 (bitN w) b.toNat a.toNat d.toNat]
  | .rem w b a d => [wA 0x01 0x17 (bitN w) b.toNat a.toNat d.toNat]
  | .remn w b a d => [wA 0x01 0x18 (bitN w) b.toNat a.toNat d.toNat]
  | .clz w a d => [wA 0x01 0x19 (bitN w) 0 a.toNat d.toNat]
  | .ctz w a d => [wA 0x01 0x1A (bitN w) 0 a.toNat d.toNat]
  | .popc w a d => [wA 0x01 0x1B (bitN w) 0 a.toNat d.toNat]
  | .sext w a d => [wA 0x01 0x1C 0 w.code a.toNat d.toNat]
  | .zext w a d => [wA 0x01 0x1D 0 w.code a.toNat d.toNat]
  | .movg n q a d => [wA 0x01 0x1E 0 (q.toNat + 8 * bitN n) a.toNat d.toNat]
  | .bswap w a d => [wA 0x01 0x1F (bitN w) 0 a.toNat d.toNat]
  | .addi i a d => [wI 0x02 0 i.toNat a.toNat d.toNat]
  | .addiLit i a d => wI 0x02 1 0 a.toNat d.toNat :: litWords i
  | .andi i a d => [wI 0x03 0 i.toNat a.toNat d.toNat]
  | .andiLit i a d => wI 0x03 1 0 a.toNat d.toNat :: litWords i
  | .ori i a d => [wI 0x04 0 i.toNat a.toNat d.toNat]
  | .oriLit i a d => wI 0x04 1 0 a.toNat d.toNat :: litWords i
  | .xori i a d => [wI 0x05 0 i.toNat a.toNat d.toNat]
  | .xoriLit i a d => wI 0x05 1 0 a.toNat d.toNat :: litWords i
  | .shli s a d => [wI 0x06 0 (s.toNat + 0) a.toNat d.toNat]
  | .shri s a d => [wI 0x06 0 (s.toNat + 4096) a.toNat d.toNat]
  | .sari s a d => [wI 0x06 0 (s.toNat + 8192) a.toNat d.toNat]
  | .roli s a d => [wI 0x06 0 (s.toNat + 12288) a.toNat d.toNat]
  | .slti i a d => [wI 0x07 0 i.toNat a.toNat d.toNat]
  | .sltiLit i a d => wI 0x07 1 0 a.toNat d.toNat :: litWords i
  | .sltin i a d => [wI 0x08 0 i.toNat a.toNat d.toNat]
  | .sltinLit i a d => wI 0x08 1 0 a.toNat d.toNat :: litWords i
  | .ldi i d => [0x09 * 4 + d.toNat * 256 + i.toNat * 8192]
  | .ldl i d => (1 + 0x09 * 4 + d.toNat * 256) :: litWords i
  | .cadr b a d => [wA 0x0A 0x00 0 b.toNat a.toNat d.toNat]
  | .crel b a d => [wA 0x0A 0x01 0 b.toNat a.toNat d.toNat]
  | .cxy a d => [wA 0x0A 0x02 0 0 a.toNat d.toNat]
  | .cres a d => [wA 0x0A 0x03 0 0 a.toNat d.toNat]
  | .wfld k a d => [wA 0x0A 0x04 0 k.toNat a.toNat d.toNat]
  | .ld o w a d => [wM 0x0B o.toNat w.code a.toNat d.toNat]
  | .st o g z a s => [wM 0x0C o.toNat (z.code + 4 * bitN g) a.toNat s.toNat]
  | .lsxLoad l => encLsxLoad l
  | .lsxStore l => encLsxStore l
  | .stmap b a d => [wA 0x0E 0x00 0 b.toNat a.toNat d.toNat]
  | .stunmap a => [wA 0x0E 0x01 0 0 a.toNat 0]
  | .stflush a => [wA 0x0E 0x02 0 0 a.toNat 0]
  | .lastuse b a => [wA 0x0E 0x03 0 b.toNat a.toNat 0]
  | .discard b a => [wA 0x0E 0x04 0 b.toNat a.toNat 0]
  | .pref b a => [wA 0x0E 0x05 0 b.toNat a.toNat 0]
  | .tlbinv a => [wA 0x0E 0x06 0 0 a.toNat 0]
  | .aadd m => encAmo 0 m
  | .aand m => encAmo 1 m
  | .aor m => encAmo 2 m
  | .axor m => encAmo 3 m
  | .amin m => encAmo 4 m
  | .amax m => encAmo 5 m
  | .aminn m => encAmo 6 m
  | .amaxn m => encAmo 7 m
  | .aswap m => encAmo 8 m
  | .acas m => encAmo 9 m
  | .afadd m => encAmo 10 m
  | .bz o h c a => [0x10 * 4 + a.toNat * 256 + c.code * 8192 + bitN h * 65536 + o.toNat * 131072]
  | .bg o h n q => [0x11 * 4 + q.toNat * 256 + bitN n * 2048 + bitN h * 4096 + o.toNat * 131072]
  | .j o => [0x12 * 4 + o.toNat * 256]
  | .call o => [0x13 * 4 + o.toNat * 256]
  | .jr a => [wA 0x14 0x00 0 0 a.toNat 0]
  | .callr a => [wA 0x14 0x01 0 0 a.toNat 0]
  | .ret => [wA 0x14 0x02 0 0 0 0]
  | .loop o a => [0x15 * 4 + a.toNat * 256 + o.toNat * 131072]
  | .cmpgEq b a g => [wA 0x16 0x00 0 b.toNat a.toNat g.toNat]
  | .cmpgNe b a g => [wA 0x16 0x01 0 b.toNat a.toNat g.toNat]
  | .cmpgLt b a g => [wA 0x16 0x02 0 b.toNat a.toNat g.toNat]
  | .cmpgGe b a g => [wA 0x16 0x03 0 b.toNat a.toNat g.toNat]
  | .cmpgLtn b a g => [wA 0x16 0x04 0 b.toNat a.toNat g.toNat]
  | .cmpgGen b a g => [wA 0x16 0x05 0 b.toNat a.toNat g.toNat]
  | .gset v g => [wA 0x16 0x08 0 (bitN v) 0 g.toNat]
  | .gclr g => [wA 0x16 0x09 0 0 0 g.toNat]
  | .gmov h g => [wA 0x16 0x0A 0 0 h.toNat g.toNat]
  | .gand j h g => [wA 0x16 0x0B 0 j.toNat h.toNat g.toNat]
  | .gor j h g => [wA 0x16 0x0C 0 j.toNat h.toNat g.toNat]
  | .gnot h g => [wA 0x16 0x0D 0 0 h.toNat g.toNat]
  | .cmpgi i a c q => [wI 0x17 0 i.toNat a.toNat (q.toNat + 8 * c.code)]
  | .cmpgiLit i a c q => wI 0x17 1 0 a.toNat (q.toNat + 8 * c.code) :: litWords i
  | .hld a h => [wA 0x18 0x00 0 0 a.toNat h.toNat]
  | .hst a h => [wA 0x18 0x01 0 0 a.toNat h.toNat]
  | .hset k a h => [wA 0x18 0x02 0 k.toNat a.toNat h.toNat]
  | .hget k j d => [wA 0x18 0x03 0 k.toNat j.toNat d.toNat]
  | .hadv h => [wA 0x18 0x04 0 0 0 h.toNat]
  | .hcopy j h => [wA 0x18 0x05 0 0 j.toNat h.toNat]
  | .part b j h => [wA 0x18 0x06 0 b.toNat j.toNat h.toNat]
  | .rbind a h => [wA 0x19 0x00 0 0 a.toNat h.toNat]
  | .rwait b h => [wA 0x19 0x01 0 b.toNat h.toNat 0]
  | .radvp b h => [wA 0x19 0x02 0 b.toNat h.toNat 0]
  | .radvc b h => [wA 0x19 0x03 0 b.toNat h.toNat 0]
  | .rcnt h d => [wA 0x19 0x04 0 0 h.toNat d.toNat]
  | .wprd c d => [wA 0x19 0x05 0 0 c.toNat d.toNat]
  | .wpwait b c => [wA 0x19 0x06 0 b.toNat c.toNat 0]
  | .fadd x r b a d => [wF 0 x r.code b.toNat a.toNat d.toNat]
  | .fsub x r b a d => [wF 1 x r.code b.toNat a.toNat d.toNat]
  | .fmul x r b a d => [wF 2 x r.code b.toNat a.toNat d.toNat]
  | .fdiv x r b a d => [wF 3 x r.code b.toNat a.toNat d.toNat]
  | .fsqrt x r a d => [wF 4 x r.code 0 a.toNat d.toNat]
  | .fmac x r b a d => [wF 5 x r.code b.toNat a.toNat d.toNat]
  | .fmin x b a d => [wF 6 x 0 b.toNat a.toNat d.toNat]
  | .fmax x b a d => [wF 7 x 0 b.toNat a.toNat d.toNat]
  | .fabs x a d => [wF 8 x 0 0 a.toNat d.toNat]
  | .fneg x a d => [wF 9 x 0 0 a.toNat d.toNat]
  | .fcvt x r c a d => [wF 10 x r.code c.code a.toNat d.toNat]
  | .fclass x a d => [wF 11 x 0 0 a.toNat d.toNat]
  | .fcmpg x b a k g => [wF 12 x 0 b.toNat a.toNat (g.toNat + 8 * k.code)]
  | .copy c b a d => [wA 0x1C 0 c.toNat b.toNat a.toNat d.toNat]
  | .gather c b a d => [wA 0x1C 1 c.toNat b.toNat a.toNat d.toNat]
  | .scatter c b a d => [wA 0x1C 2 c.toNat b.toNat a.toNat d.toNat]
  | .compact c b a d => [wA 0x1C 3 c.toNat b.toNat a.toNat d.toNat]
  | .fill c b a d => [wA 0x1C 4 c.toNat b.toNat a.toNat d.toNat]
  | .flushr c a d => [wA 0x1C 5 c.toNat 0 a.toNat d.toNat]
  | .cstat d => [wA 0x1C 6 0 0 0 d.toNat]
  | .copyEcx e => encEcx 0 e
  | .gatherEcx e => encEcx 1 e
  | .scatterEcx e => encEcx 2 e
  | .compactEcx e => encEcx 3 e
  | .fillEcx e => encEcx 4 e
  | .flushrEcx e => encEcx 5 e
  | .xstart a d => [wA 0x1E 0x00 0 0 a.toNat d.toNat]
  | .xstartEcx gd a d => [2 + 0x23 * 4 + d.toNat * 256 + a.toNat * 8192, 1 + gdBits gd * 4, 0]
  | .xwait a d => [wA 0x1E 0x01 0 0 a.toNat d.toNat]
  | .xstat a d => [wA 0x1E 0x02 0 0 a.toNat d.toNat]
  | .xcancel a => [wA 0x1E 0x03 0 0 a.toNat 0]
  | .mcwr b a d => [wA 0x1E 0x10 0 b.toNat a.toNat d.toNat]
  | .aclwr b a d => [wA 0x1E 0x11 0 b.toNat a.toNat d.toNat]
  | .fend => [wA 0x1F 0x00 0 0 0 0]
  | .fendCommit _ _ => []
  | .lvrd a d => [wA 0x1F 0x01 0 0 a.toNat d.toNat]
  | .lvstep a => [wA 0x1F 0x02 0 0 a.toNat 0]
  | .lvbind a d => [wA 0x1F 0x03 0 0 a.toNat d.toNat]
  | .lvsend b a => [wA 0x1F 0x04 0 b.toNat a.toNat 0]
  | .lvrecv a d => [wA 0x1F 0x05 0 0 a.toNat d.toNat]
  | .freeze => [wA 0x1F 0x10 0 0 0 0]
  | .thaw => [wA 0x1F 0x11 0 0 0 0]
  | .front a d => [wA 0x1F 0x12 0 0 a.toNat d.toNat]
  | .spawn b a f => [wA 0x20 0x00 0 b.toNat a.toNat f.code]
  | .tend => [wA 0x20 0x01 0 0 0 0]
  | .joinw a => [wA 0x20 0x02 0 0 a.toNat 0]
  | .launch a d => [wA 0x20 0x03 0 0 a.toNat d.toNat]
  | .vadd v => encVx 0 v
  | .vsub v => encVx 1 v
  | .vmul v => encVx 2 v
  | .vfma v => encVx 3 v
  | .vfms v => encVx 4 v
  | .vmin v => encVx 5 v
  | .vmax v => encVx 6 v
  | .vabs v => encVx 7 v
  | .vneg v => encVx 8 v
  | .vdiv v => encVx 9 v
  | .vsqrt v => encVx 10 v
  | .vrcp v => encVx 12 v
  | .vrsq v => encVx 11 v
  | .vexp2 v => encVx 13 v
  | .vlog2 v => encVx 14 v
  | .vtanh v => encVx 15 v
  | .vsigm v => encVx 16 v
  | .vand v => encVx 17 v
  | .vor v => encVx 18 v
  | .vxor v => encVx 19 v
  | .vnot v => encVx 20 v
  | .vshl v => encVx 21 v
  | .vshr v => encVx 22 v
  | .vsar v => encVx 23 v
  | .vcmp v => encVx 24 v
  | .vsel v => encVx 25 v
  | .vcvt v => encVx 26 v
  | .vred v => encVx 27 v
  | .vscan v => encVx 28 v
  | .vbcst v => encVx 29 v
  | .vlerp v => encVx 30 v
  | .vqexp v => encVx 31 v
  | .viota v => encVx 32 v
  | .vcount v => encVx 33 v
  | .vclamp v => encVx 34 v
  | .mma m => encMx 0 m
  | .mmag m => encMx 1 m
  | .mzero m => encMx 2 m
  | .msca m => encMx 3 m
  | .mrd m => encMx 4 m
  | .mpri c => [2 + 0x22 * 4 + 5 * 256, 0, c.toNat]
  | .mwait => [2 + 0x22 * 4 + 6 * 256, 0, 0]
  | .cntrd n d => [wA 0x24 0x00 0 0 n.toNat d.toNat]
  | .mark a => [wA 0x24 0x01 0 0 a.toNat 0]
  | .csrrd c d => [0x25 * 4 + d.toNat * 256 + 0 + c.code * 262144 + 0 * 268435456]
  | .csrwr c a => [0x25 * 4 + 0 + a.toNat * 8192 + c.code * 262144 + 1 * 268435456]
  | .csrsw c a d => [0x25 * 4 + d.toNat * 256 + a.toNat * 8192 + c.code * 262144 + 2 * 268435456]
  | .csrset c a d => [0x25 * 4 + d.toNat * 256 + a.toNat * 8192 + c.code * 262144 + 3 * 268435456]
  | .csrclr c a d => [0x25 * 4 + d.toNat * 256 + a.toNat * 8192 + c.code * 262144 + 4 * 268435456]
  | .stszWrite _ => []
  | .migthWrite _ => []
  | .rchkClr => []
  | .rchkEnWrite _ => []
  | .qtableWrite _ _ => []
  | .fpCsrAccess _ => []
  | .pcapWrite _ => []
  | .registerWrite _ _ => []
  | .contextSelect _ => []
  | .loadReply _ _ => []
  | .storePerform _ _ => []
  | .park _ _ => []
  | .stashFill _ _ => []
  | .dieCacheEvict _ _ => []
  | .directoryOverflowEvent _ _ _ => []
  | .directoryOvfWrite _ _ => []
  | .pageWalk _ _ _ => []
  | .migrationStart _ _ _ => []
  | .migrationComplete _ => []
  | .crossPackageMigration _ _ _ => []
  | .ownershipRequest _ _ _ => []
  | .invalidationAck _ _ => []
  | .invalidationResend _ _ => []
  | .dieUnresponsive _ => []
  | .hostCxlRead _ _ => []
  | .hostCxlWrite _ _ => []
  | .memoryErrorDetected _ => []
  | .dieResetGraceful _ => []
  | .dieResetForced _ => []
  | .dieResetEnd _ => []
  | .poolPush _ _ => []
  | .copyQueueRelease _ => []
  | .copyBeat _ _ => []
  | .copyCommandEnd _ _ => []
  | .vectorBeat _ => []
  | .vectorCommandEnd _ => []
  | .matrixSelect _ => []
  | .matrixKstep _ => []
  | .matrixOvertake _ _ => []
  | .matrixCommandEnd _ => []
  | .ringNotification _ _ _ => []
  | .levelNotification _ _ _ _ _ _ => []
  | .gateEvaluate _ _ => []
  | .firingDispatch _ _ => []
  | .nadirRefresh _ => []
  | .lvstall _ => []
  | .domainComplete _ => []
  | .inboxMessage _ => []
  | .supervisorMessage _ => []
  | .resume _ _ => []
  | .resumeValue _ _ _ => []
  | .restart _ _ => []
  | .abort _ _ => []
  | .p0Request _ => []
  | .contextSave _ _ => []
  | .contextResume _ _ => []
  | .taskSearch _ _ => []
  | .taskSearchRestEnd _ => []
  | .joinwWake _ _ => []
  | .barrierDepart _ => []
  | .exchangeStart _ => []
  | .exchangeRun _ => []
  | .exchangeRunDeliver _ => []
  | .exchangeAck _ => []
  | .closingNotice _ => []
  | .abandonment _ => []
  | .exchangeEnd _ => []
  | .rd _ => []
  | .wr _ => []
  | .amo _ => []
  | .gwr _ => []
  | .xrun _ => []
  | .msg _ => []
  | .gangReserve _ => []
  | .gangCommit _ => []
  | .gangAbort _ => []
  | .mig _ => []
  | .shoot _ => []
  | .nadir _ => []
  | .cfg _ => []
  | .val _ => []
  | .dep _ => []
  | .cnt _ => []
  | .done _ => []
  | .mack _ => []
  | .nack _ => []
  | .unknown _ => []
  | .mackPortTimeout _ _ => []
  | .amoRetransmit _ => []
  | .amoTimeout _ => []
  | .linkGroupFail _ => []
  | .linkGroupRestore _ => []
  | .gangReserveTimeout _ => []
  | .gangCommitTimeout _ => []
  | .reservationExpire _ => []
  | .gangAbortResend _ => []
  | .launchWindowCopy _ _ => []
  | .launchRetry => []
  | .energyWindow => []
  | .energyBudgetSpent _ => []
  | .windowEnable _ => []
  | .windowDestroy _ => []
  | .domainAbort _ => []
  | .hostSupervisorCommand _ => []
  | .dctlHaltreq _ _ => []
  | .dctlResume _ _ => []
  | .dctlStep _ _ => []
  | .dctlCancel _ _ => []
  | .contextStateWrite _ _ _ _ => []
  | .stopEntryWrite _ _ _ => []
  | .stopRequest _ => []
  | .dumpStart _ => []
  | .dumpWrite => []
  | .traceEnable _ => []
  | .replayArm _ => []
  | .replayPassEnd => []
  | .errorInjectWrite _ _ _ _ => []
  | .notificationDrain _ => []
  | .ethQueueEnable _ _ _ => []
  | .ethQueueDisable _ _ _ => []
  | .ethProducerUpdate _ _ _ => []
  | .ethTransmit _ _ => []
  | .ethReceive _ _ _ => []
  | .ethPauseReceive _ _ => []
  | .ethLinkChange _ _ => []
  | .powerGood _ => []
  | .packageReset _ => []
  | .firmwareLoadWrite _ _ => []
  | .amoPerform _ _ => []
  | .backgroundRangeOperation _ _ => []
  | .cxlCacheSnoop _ => []
  | .spdmRequest _ => []
  | .ethPauseExpire _ _ => []

/-- A field whose code may be unassigned. -/
def fieldOf {α : Type} (x : Option α) (k : α → Instr) : Except DecodeError Instr :=
  match x with
  | some v => .ok (k v)
  | none => .error .fields

/-- Two such fields. -/
def fieldOf2 {α β : Type} (x : Option α) (y : Option β) (k : α → β → Instr) : Except DecodeError Instr :=
  match x, y with
  | some u, some v => .ok (k u v)
  | _, _ => .error .fields

/-- Three such fields. -/
def fieldOf3 {α β γ : Type} (x : Option α) (y : Option β) (z : Option γ) (k : α → β → γ → Instr) :
    Except DecodeError Instr :=
  match x, y, z with
  | some u, some v, some t => .ok (k u v t)
  | _, _, _ => .error .fields

/-- SYS functions (R29). -/
def decSys (w : Nat) : Except DecodeError Instr :=
  match fld w 23 7 with
  | 0 => .ok .nop
  | 1 => .ok (.trap (regAt w 18))
  | 6 => .ok (.brk (regAt w 18))
  | 2 => .ok (.svc (regAt w 18) (regAt w 13))
  | 3 => .ok .hret
  | 4 => .ok (.evwait (regAt w 8))
  | 5 => .ok (.evpost (regAt w 13))
  | 7 => .ok .synci
  | 8 => fieldOf (Scope.ofCode (fld w 20 3)) fun s => .fence s (flag w 19) (flag w 18)
  | 9 => fieldOf (Scope.ofCode (fld w 18 5)) fun s => .bar s (regAt w 13)
  | 10 => .ok .halt
  | _ => .error .function

/-- ALU functions (R30). -/
def decAlu (w : Nat) : Except DecodeError Instr :=
  match fld w 23 7 with
  | 0 => .ok (.add (flag w 30) (regAt w 18) (regAt w 13) (regAt w 8))
  | 1 => .ok (.sub (flag w 30) (regAt w 18) (regAt w 13) (regAt w 8))
  | 2 => .ok (.and (flag w 30) (regAt w 18) (regAt w 13) (regAt w 8))
  | 3 => .ok (.or (flag w 30) (regAt w 18) (regAt w 13) (regAt w 8))
  | 4 => .ok (.xor (flag w 30) (regAt w 18) (regAt w 13) (regAt w 8))
  | 5 => .ok (.andn (flag w 30) (regAt w 18) (regAt w 13) (regAt w 8))
  | 8 => .ok (.shl (flag w 30) (regAt w 18) (regAt w 13) (regAt w 8))
  | 9 => .ok (.shr (flag w 30) (regAt w 18) (regAt w 13) (regAt w 8))
  | 10 => .ok (.sar (flag w 30) (regAt w 18) (regAt w 13) (regAt w 8))
  | 11 => .ok (.rol (flag w 30) (regAt w 18) (regAt w 13) (regAt w 8))
  | 12 => .ok (.slt (flag w 30) (regAt w 18) (regAt w 13) (regAt w 8))
  | 13 => .ok (.sltn (flag w 30) (regAt w 18) (regAt w 13) (regAt w 8))
  | 14 => .ok (.min (flag w 30) (regAt w 18) (regAt w 13) (regAt w 8))
  | 15 => .ok (.max (flag w 30) (regAt w 18) (regAt w 13) (regAt w 8))
  | 16 => .ok (.minn (flag w 30) (regAt w 18) (regAt w 13) (regAt w 8))
  | 17 => .ok (.maxn (flag w 30) (regAt w 18) (regAt w 13) (regAt w 8))
  | 18 => .ok (.mul (flag w 30) (regAt w 18) (regAt w 13) (regAt w 8))
  | 19 => .ok (.mulh (flag w 30) (regAt w 18) (regAt w 13) (regAt w 8))
  | 20 => .ok (.mulhn (flag w 30) (regAt w 18) (regAt w 13) (regAt w 8))
  | 21 => .ok (.div (flag w 30) (regAt w 18) (regAt w 13) (regAt w 8))
  | 22 => .ok (.divn (flag w 30) (regAt w 18) (regAt w 13) (regAt w 8))
  | 23 => .ok (.rem (flag w 30) (regAt w 18) (regAt w 13) (regAt w 8))
  | 24 => .ok (.remn (flag w 30) (regAt w 18) (regAt w 13) (regAt w 8))
  | 25 => .ok (.clz (flag w 30) (regAt w 13) (regAt w 8))
  | 26 => .ok (.ctz (flag w 30) (regAt w 13) (regAt w 8))
  | 27 => .ok (.popc (flag w 30) (regAt w 13) (regAt w 8))
  | 31 => .ok (.bswap (flag w 30) (regAt w 13) (regAt w 8))
  | 28 => fieldOf (ExtW.ofCode (fld w 18 5)) fun k => .sext k (regAt w 13) (regAt w 8)
  | 29 => fieldOf (ExtW.ofCode (fld w 18 5)) fun k => .zext k (regAt w 13) (regAt w 8)
  | 30 => .ok (.movg (flag w 21) (qAt w 18) (regAt w 13) (regAt w 8))
  | _ => .error .function

/-- ADR functions (R32). -/
def decAdr (w : Nat) : Except DecodeError Instr :=
  match fld w 23 7 with
  | 0 => .ok (.cadr (regAt w 18) (regAt w 13) (regAt w 8))
  | 1 => .ok (.crel (regAt w 18) (regAt w 13) (regAt w 8))
  | 2 => .ok (.cxy (regAt w 13) (regAt w 8))
  | 3 => .ok (.cres (regAt w 13) (regAt w 8))
  | 4 => .ok (.wfld (regAt w 18) (regAt w 13) (regAt w 8))
  | _ => .error .function

/-- MEMCTL functions (R32). -/
def decMemctl (w : Nat) : Except DecodeError Instr :=
  match fld w 23 7 with
  | 0 => .ok (.stmap (regAt w 18) (regAt w 13) (regAt w 8))
  | 1 => .ok (.stunmap (regAt w 13))
  | 2 => .ok (.stflush (regAt w 13))
  | 3 => .ok (.lastuse (regAt w 18) (regAt w 13))
  | 4 => .ok (.discard (regAt w 18) (regAt w 13))
  | 5 => .ok (.pref (regAt w 18) (regAt w 13))
  | 6 => .ok (.tlbinv (regAt w 13))
  | _ => .error .function

/-- JRX functions (R38). -/
def decJrx (w : Nat) : Except DecodeError Instr :=
  match fld w 23 7 with
  | 0 => .ok (.jr (regAt w 13))
  | 1 => .ok (.callr (regAt w 13))
  | 2 => .ok .ret
  | _ => .error .function

/-- GRD functions (R33). -/
def decGrd (w : Nat) : Except DecodeError Instr :=
  match fld w 23 7 with
  | 0 => .ok (.cmpgEq (regAt w 18) (regAt w 13) (qAt w 8))
  | 1 => .ok (.cmpgNe (regAt w 18) (regAt w 13) (qAt w 8))
  | 2 => .ok (.cmpgLt (regAt w 18) (regAt w 13) (qAt w 8))
  | 3 => .ok (.cmpgGe (regAt w 18) (regAt w 13) (qAt w 8))
  | 4 => .ok (.cmpgLtn (regAt w 18) (regAt w 13) (qAt w 8))
  | 5 => .ok (.cmpgGen (regAt w 18) (regAt w 13) (qAt w 8))
  | 8 => .ok (.gset (flag w 18) (qAt w 8))
  | 9 => .ok (.gclr (qAt w 8))
  | 10 => .ok (.gmov (qAt w 13) (qAt w 8))
  | 13 => .ok (.gnot (qAt w 13) (qAt w 8))
  | 11 => .ok (.gand (qAt w 18) (qAt w 13) (qAt w 8))
  | 12 => .ok (.gor (qAt w 18) (qAt w 13) (qAt w 8))
  | _ => .error .function

/-- HND functions (R34). -/
def decHnd (w : Nat) : Except DecodeError Instr :=
  match fld w 23 7 with
  | 0 => .ok (.hld (regAt w 13) (hAt w 8))
  | 1 => .ok (.hst (regAt w 13) (hAt w 8))
  | 2 => .ok (.hset (regAt w 18) (regAt w 13) (hAt w 8))
  | 3 => .ok (.hget (regAt w 18) (hAt w 13) (regAt w 8))
  | 4 => .ok (.hadv (hAt w 8))
  | 5 => .ok (.hcopy (hAt w 13) (hAt w 8))
  | 6 => .ok (.part (regAt w 18) (hAt w 13) (hAt w 8))
  | _ => .error .function

/-- RNG functions (R34). -/
def decRng (w : Nat) : Except DecodeError Instr :=
  match fld w 23 7 with
  | 0 => .ok (.rbind (regAt w 13) (hAt w 8))
  | 1 => .ok (.rwait (regAt w 18) (hAt w 13))
  | 2 => .ok (.radvp (regAt w 18) (hAt w 13))
  | 3 => .ok (.radvc (regAt w 18) (hAt w 13))
  | 4 => .ok (.rcnt (hAt w 13) (regAt w 8))
  | 5 => .ok (.wprd (regAt w 13) (regAt w 8))
  | 6 => .ok (.wpwait (regAt w 18) (regAt w 13))
  | _ => .error .function

/-- FPU functions: F[3:0] (R35). -/
def decFpu (w : Nat) : Except DecodeError Instr :=
  match fld w 23 4 with
  | 0 => fieldOf2 (FFmt.ofCode (fld w 30 2)) (Rm.ofCode (fld w 27 3)) fun x r => .fadd x r (regAt w 18) (regAt w 13) (regAt w 8)
  | 1 => fieldOf2 (FFmt.ofCode (fld w 30 2)) (Rm.ofCode (fld w 27 3)) fun x r => .fsub x r (regAt w 18) (regAt w 13) (regAt w 8)
  | 2 => fieldOf2 (FFmt.ofCode (fld w 30 2)) (Rm.ofCode (fld w 27 3)) fun x r => .fmul x r (regAt w 18) (regAt w 13) (regAt w 8)
  | 3 => fieldOf2 (FFmt.ofCode (fld w 30 2)) (Rm.ofCode (fld w 27 3)) fun x r => .fdiv x r (regAt w 18) (regAt w 13) (regAt w 8)
  | 4 => fieldOf2 (FFmt.ofCode (fld w 30 2)) (Rm.ofCode (fld w 27 3)) fun x r => .fsqrt x r (regAt w 13) (regAt w 8)
  | 5 => fieldOf2 (FFmt.ofCode (fld w 30 2)) (Rm.ofCode (fld w 27 3)) fun x r => .fmac x r (regAt w 18) (regAt w 13) (regAt w 8)
  | 6 => fieldOf (FFmt.ofCode (fld w 30 2)) fun x => .fmin x (regAt w 18) (regAt w 13) (regAt w 8)
  | 7 => fieldOf (FFmt.ofCode (fld w 30 2)) fun x => .fmax x (regAt w 18) (regAt w 13) (regAt w 8)
  | 8 => fieldOf (FFmt.ofCode (fld w 30 2)) fun x => .fabs x (regAt w 13) (regAt w 8)
  | 9 => fieldOf (FFmt.ofCode (fld w 30 2)) fun x => .fneg x (regAt w 13) (regAt w 8)
  | 11 => fieldOf (FFmt.ofCode (fld w 30 2)) fun x => .fclass x (regAt w 13) (regAt w 8)
  | 10 => fieldOf3 (FFmt.ofCode (fld w 30 2)) (Rm.ofCode (fld w 27 3)) (Cvt.ofCode (fld w 18 5)) fun x r c => .fcvt x r c (regAt w 13) (regAt w 8)
  | 12 => fieldOf2 (FFmt.ofCode (fld w 30 2)) (FCond.ofCode (fld w 11 2)) fun x k => .fcmpg x (regAt w 18) (regAt w 13) k (qAt w 8)
  | _ => .error .function

/-- ECOPY functions (R36). -/
def decEcopy (w : Nat) : Except DecodeError Instr :=
  match fld w 23 7 with
  | 0 => .ok (.copy (BitVec.ofNat 2 (w / 2 ^ 30)) (regAt w 18) (regAt w 13) (regAt w 8))
  | 1 => .ok (.gather (BitVec.ofNat 2 (w / 2 ^ 30)) (regAt w 18) (regAt w 13) (regAt w 8))
  | 2 => .ok (.scatter (BitVec.ofNat 2 (w / 2 ^ 30)) (regAt w 18) (regAt w 13) (regAt w 8))
  | 3 => .ok (.compact (BitVec.ofNat 2 (w / 2 ^ 30)) (regAt w 18) (regAt w 13) (regAt w 8))
  | 4 => .ok (.fill (BitVec.ofNat 2 (w / 2 ^ 30)) (regAt w 18) (regAt w 13) (regAt w 8))
  | 5 => .ok (.flushr (BitVec.ofNat 2 (w / 2 ^ 30)) (regAt w 13) (regAt w 8))
  | 6 => .ok (.cstat (regAt w 8))
  | _ => .error .function

/-- EXCH functions (R36). -/
def decExch (w : Nat) : Except DecodeError Instr :=
  match fld w 23 7 with
  | 0 => .ok (.xstart (regAt w 13) (regAt w 8))
  | 1 => .ok (.xwait (regAt w 13) (regAt w 8))
  | 2 => .ok (.xstat (regAt w 13) (regAt w 8))
  | 3 => .ok (.xcancel (regAt w 13))
  | 16 => .ok (.mcwr (regAt w 18) (regAt w 13) (regAt w 8))
  | 17 => .ok (.aclwr (regAt w 18) (regAt w 13) (regAt w 8))
  | _ => .error .function

/-- LVL functions (R37). -/
def decLvl (w : Nat) : Except DecodeError Instr :=
  match fld w 23 7 with
  | 0 => .ok .fend
  | 1 => .ok (.lvrd (regAt w 13) (regAt w 8))
  | 2 => .ok (.lvstep (regAt w 13))
  | 3 => .ok (.lvbind (regAt w 13) (regAt w 8))
  | 4 => .ok (.lvsend (regAt w 18) (regAt w 13))
  | 5 => .ok (.lvrecv (regAt w 13) (regAt w 8))
  | 16 => .ok .freeze
  | 17 => .ok .thaw
  | 18 => .ok (.front (regAt w 13) (regAt w 8))
  | _ => .error .function

/-- TSK functions (R37). -/
def decTsk (w : Nat) : Except DecodeError Instr :=
  match fld w 23 7 with
  | 0 => fieldOf (Affinity.ofCode (fld w 8 5)) fun k => .spawn (regAt w 18) (regAt w 13) k
  | 1 => .ok .tend
  | 2 => .ok (.joinw (regAt w 13))
  | 3 => .ok (.launch (regAt w 13) (regAt w 8))
  | _ => .error .function

/-- DBG functions (R38). -/
def decDbg (w : Nat) : Except DecodeError Instr :=
  match fld w 23 7 with
  | 0 => .ok (.cntrd (regAt w 13) (regAt w 8))
  | 1 => .ok (.mark (regAt w 13))
  | _ => .error .function

/-- CSR operations: OPC (R46). -/
def decCsr (w : Nat) : Except DecodeError Instr :=
  match fld w 28 4 with
  | 0 => fieldOf (CsrName.ofCode (fld w 18 10)) fun c => .csrrd c (regAt w 8)
  | 1 => fieldOf (CsrName.ofCode (fld w 18 10)) fun c => .csrwr c (regAt w 13)
  | 2 => fieldOf (CsrName.ofCode (fld w 18 10)) fun c => .csrsw c (regAt w 13) (regAt w 8)
  | 3 => fieldOf (CsrName.ofCode (fld w 18 10)) fun c => .csrset c (regAt w 13) (regAt w 8)
  | 4 => fieldOf (CsrName.ofCode (fld w 18 10)) fun c => .csrclr c (regAt w 13) (regAt w 8)
  | _ => .error .function

/-- VEC functions (R39). -/
def vecFn (n : Nat) : Option (Vx → Instr) :=
  match n with
  | 0 => some .vadd
  | 1 => some .vsub
  | 2 => some .vmul
  | 3 => some .vfma
  | 4 => some .vfms
  | 5 => some .vmin
  | 6 => some .vmax
  | 7 => some .vabs
  | 8 => some .vneg
  | 9 => some .vdiv
  | 10 => some .vsqrt
  | 11 => some .vrsq
  | 12 => some .vrcp
  | 13 => some .vexp2
  | 14 => some .vlog2
  | 15 => some .vtanh
  | 16 => some .vsigm
  | 17 => some .vand
  | 18 => some .vor
  | 19 => some .vxor
  | 20 => some .vnot
  | 21 => some .vshl
  | 22 => some .vshr
  | 23 => some .vsar
  | 24 => some .vcmp
  | 25 => some .vsel
  | 26 => some .vcvt
  | 27 => some .vred
  | 28 => some .vscan
  | 29 => some .vbcst
  | 30 => some .vlerp
  | 31 => some .vqexp
  | 32 => some .viota
  | 33 => some .vcount
  | 34 => some .vclamp
  | _ => none

/-- MAT functions on the MX fields (R40). -/
def matFn (n : Nat) : Option (Mx → Instr) :=
  match n with
  | 0 => some .mma
  | 1 => some .mmag
  | 2 => some .mzero
  | 3 => some .msca
  | 4 => some .mrd
  | _ => none

/-- AMO operations by OP (R15). -/
def amoFn (n : Nat) : Option (AmoF → Instr) :=
  match n with
  | 0 => some .aadd
  | 1 => some .aand
  | 2 => some .aor
  | 3 => some .axor
  | 4 => some .amin
  | 5 => some .amax
  | 6 => some .aminn
  | 7 => some .amaxn
  | 8 => some .aswap
  | 9 => some .acas
  | 10 => some .afadd
  | _ => none

/-- ECX functions with ENG = 00 (R36); CSTAT has no ECX form (R94). -/
def ecxFn (n : Nat) : Option (Ecx → Instr) :=
  match n with
  | 0 => some .copyEcx
  | 1 => some .gatherEcx
  | 2 => some .scatterEcx
  | 3 => some .compactEcx
  | 4 => some .fillEcx
  | 5 => some .flushrEcx
  | _ => none

/-- A function chosen by a code, applied to fields that may not decode. -/
def chosen {α : Type} (f : Option (α → Instr)) (x : Option α) : Except DecodeError Instr :=
  match f with
  | none => .error .function
  | some g => fieldOf x g

/-- MAT words (R40): MPRI and MWAIT use no MX field but K. -/
def decMat (w0 w1 w2 : Nat) : Except DecodeError Instr :=
  match fld w0 8 7 with
  | 5 => .ok (.mpri (BitVec.ofNat 3 w2))
  | 6 => .ok .mwait
  | n => chosen (matFn n) (decMx w0 w1 w2)

/-- ECX words (R36, R94, R282): ENG 00 selects a copy-engine function, ENG 01 only XSTART. -/
def decEcxWord (w0 w1 w2 : Nat) (lit : Option Word) : Except DecodeError Instr :=
  match fld w1 0 2 with
  | 0 => chosen (ecxFn (fld w0 23 7)) (decEcx w0 w1 w2 lit)
  | 1 => if fld w0 23 7 = 0 then .ok (.xstartEcx (gdOf (fld w1 2 5)) (regAt w0 13) (regAt w0 8)) else .error .fields
  | _ => .error .function

/-- A one-word instruction by its major (R27). -/
def dec1 (maj w : Nat) : Except DecodeError Instr :=
  match maj with
  | 0x00 => decSys w
  | 0x01 => decAlu w
  | 0x02 => .ok (.addi (BitVec.ofNat 14 (w / 2 ^ 18)) (regAt w 13) (regAt w 8))
  | 0x03 => .ok (.andi (BitVec.ofNat 14 (w / 2 ^ 18)) (regAt w 13) (regAt w 8))
  | 0x04 => .ok (.ori (BitVec.ofNat 14 (w / 2 ^ 18)) (regAt w 13) (regAt w 8))
  | 0x05 => .ok (.xori (BitVec.ofNat 14 (w / 2 ^ 18)) (regAt w 13) (regAt w 8))
  | 0x06 =>
    let s := BitVec.ofNat 6 (w / 2 ^ 18)
    match fld w 30 2 with
    | 0 => .ok (.shli s (regAt w 13) (regAt w 8))
    | 1 => .ok (.shri s (regAt w 13) (regAt w 8))
    | 2 => .ok (.sari s (regAt w 13) (regAt w 8))
    | _ => .ok (.roli s (regAt w 13) (regAt w 8))
  | 0x07 => .ok (.slti (BitVec.ofNat 14 (w / 2 ^ 18)) (regAt w 13) (regAt w 8))
  | 0x08 => .ok (.sltin (BitVec.ofNat 14 (w / 2 ^ 18)) (regAt w 13) (regAt w 8))
  | 0x09 => .ok (.ldi (BitVec.ofNat 19 (w / 2 ^ 13)) (regAt w 8))
  | 0x0A => decAdr w
  | 0x0B => fieldOf (MemW.ofCode (fld w 18 3)) fun z => .ld (BitVec.ofNat 11 (w / 2 ^ 21)) z (regAt w 13) (regAt w 8)
  | 0x0C => fieldOf (StSz.ofCode (fld w 18 2)) fun z => .st (BitVec.ofNat 11 (w / 2 ^ 21)) (flag w 20) z (regAt w 13) (regAt w 8)
  | 0x0E => decMemctl w
  | 0x10 => fieldOf (Cond.ofCode (fld w 13 3)) fun c => .bz (BitVec.ofNat 15 (w / 2 ^ 17)) (flag w 16) c (regAt w 8)
  | 0x11 => .ok (.bg (BitVec.ofNat 15 (w / 2 ^ 17)) (flag w 12) (flag w 11) (qAt w 8))
  | 0x12 => .ok (.j (BitVec.ofNat 24 (w / 2 ^ 8)))
  | 0x13 => .ok (.call (BitVec.ofNat 24 (w / 2 ^ 8)))
  | 0x14 => decJrx w
  | 0x15 => .ok (.loop (BitVec.ofNat 15 (w / 2 ^ 17)) (regAt w 8))
  | 0x16 => decGrd w
  | 0x17 => fieldOf (CmpI.ofCode (fld w 11 2)) fun c => .cmpgi (BitVec.ofNat 14 (w / 2 ^ 18)) (regAt w 13) c (qAt w 8)
  | 0x18 => decHnd w
  | 0x19 => decRng w
  | 0x1A => decFpu w
  | 0x1C => decEcopy w
  | 0x1E => decExch w
  | 0x1F => decLvl w
  | 0x20 => decTsk w
  | 0x24 => decDbg w
  | 0x25 => decCsr w
  | _ => .error .opcode

/-- A word and its literal, LEN = 01 (R14). -/
def decLit (maj w : Nat) (l : Word) : Except DecodeError Instr :=
  match maj with
  | 0x02 => .ok (.addiLit l (regAt w 13) (regAt w 8))
  | 0x03 => .ok (.andiLit l (regAt w 13) (regAt w 8))
  | 0x04 => .ok (.oriLit l (regAt w 13) (regAt w 8))
  | 0x05 => .ok (.xoriLit l (regAt w 13) (regAt w 8))
  | 0x07 => .ok (.sltiLit l (regAt w 13) (regAt w 8))
  | 0x08 => .ok (.sltinLit l (regAt w 13) (regAt w 8))
  | 0x09 => .ok (.ldl l (regAt w 8))
  | 0x17 => fieldOf (CmpI.ofCode (fld w 11 2)) fun c => .cmpgiLit l (regAt w 13) c (qAt w 8)
  | _ => .error .opcode

/-- An extended form, LEN = 10 or 11 (R15): only VEC and ECX take a literal (R27). -/
def decExt (maj w0 w1 w2 : Nat) (lit : Option Word) : Except DecodeError Instr :=
  match maj with
  | 0x0D => if lit.isSome then .error .opcode else fieldOf (decLsx w0 w1) id
  | 0x0F => if lit.isSome then .error .opcode else chosen (amoFn (fld w0 23 4)) (decAmo w0 w1 w2)
  | 0x21 => chosen (vecFn (fld w0 8 7)) (decVx w0 w1 w2 lit)
  | 0x22 => if lit.isSome then .error .opcode else decMat w0 w1 w2
  | 0x23 => decEcxWord w0 w1 w2 lit
  | _ => .error .opcode

/-- The instruction that the fields of the words name, before the field checks of step 4 (R42). -/
def candidate (ws : List Nat) : Except DecodeError Instr :=
  match ws with
  | [] => .error .tooShort
  | w0 :: ws =>
    match w0 % 4, ws with
    | 0, _ => dec1 (fld w0 2 6) w0
    | 1, lo :: hi :: _ => decLit (fld w0 2 6) w0 (litOf lo hi)
    | 2, w1 :: w2 :: _ => decExt (fld w0 2 6) w0 w1 w2 none
    | 3, w1 :: w2 :: lo :: hi :: _ => decExt (fld w0 2 6) w0 w1 w2 (some (litOf lo hi))
    | _, _ => .error .tooShort

/-- The decoder: the candidate whose encoding is the words fetched and whose fields are accepted (R42, R43). -/
def decode (ws : List Nat) : Except DecodeError Instr :=
  match candidate ws with
  | .error e => .error e
  | .ok i => if encode i = ws.take (lenWords (ws.headD 0 % 4)) ∧ i.wellFormed = true then .ok i else .error .fields

/-- The 32-bit words of a byte string, little-endian (R7). -/
def wordsOf : List Byte → List Nat
  | a :: b :: c :: d :: r => (a.toNat + 256 * b.toNat + 65536 * c.toNat + 16777216 * d.toNat) :: wordsOf r
  | _ => []

/-- The `n` low bytes of a number, lowest first. -/
def bytesLE : Nat → Nat → List Byte
  | 0, _ => []
  | n + 1, v => BitVec.ofNat 8 v :: bytesLE n (v / 256)

/-- The bytes of an instruction as local memory holds them, from its words as one number with word 0 lowest, padded
to the longest instruction of five words (R7). -/
def tableBytes (w : Nat) : List Byte := bytesLE 20 w

/-- The decoder on an instruction whose bits are `w`, word 0 in bits 31..0. -/
def decodeTableWord (nbits w : Nat) : Option Instr :=
  match decode (wordsOf (tableBytes (w % 2 ^ nbits))) with
  | .ok i => some i
  | .error _ => none

end Sys2Proof
end

