-- ==== Sys2Proof/Config.lean ====
section
/-!
DEFINITION. What a part fixes, and the free values: constants with no body, of which nothing
can be proved.
-/
set_option linter.all false
namespace Sys2Proof.Config

/-- DEVCAP of the KRD-8192 at reset: CDIE 0xF, MDIE 0b11, ETHP 0xFF, RCHKP 1, ARCH 3 (R5). STEPID 0 is a DESIGN
CHOICE: log 4. -/
def devcap : Word := 0x37FFF
/-- Cycles of a 1 ms window at 1.3 GHz (R344). -/
def windowCycles : Nat := 1300000

/-- A bit that the spec leaves open, fresh for each number: which of two allowed values an overlapping element or a
discarded sector takes (R89, R99, R155, R189, R274). Log 2. -/
opaque freeBit : Nat → Bool

/-- A word that the spec leaves open, fresh for each number. Log 2. -/
opaque freeWord : Nat → Word

/-- The firmware's overflow handler and table behind the control window (R79, R373): their bytes are not given. Log 22. -/
opaque sramByte : Nat → Byte

/-- Whether the signatures of the firmware image verify (R394): cryptography is outside the model. Log 21. -/
opaque signaturesVerify : List Byte → Bool

/-- Bytes of the SPDM response that carry certificates, digests and signatures (R395): only their presence is modelled. Log 21. -/
opaque spdmBody : Nat → List Byte

/-- Whether the host completes an access to its memory with an error, fresh for each number (R48). Log 81. -/
opaque hostFails : Nat → Bool

/-- The set of a die cache in which a line stands (R72): the hash of its address is not given. Log 82. -/
opaque cacheSet : Nat → Nat

/-- The digest of an exchange's map that its runs carry (R275): its function is not given. Log 25. -/
opaque mapDigest : List Byte → List Nat → Word

/-- One step of a context's digest in a replay (R385): the function is not given. Log 33. -/
opaque digestStep : Word → Word → Word

end Sys2Proof.Config
end

