-- ==== Sys2Proof/Events.lean ====
section
/-!
DEFINITION. The pending moves of the part's units, as State holds them: one constructor for each step row of the
opcode table, with the arguments of the `Instr` constructor of the same name.
-/
set_option linter.all false
namespace Sys2Proof

/-- A step of the part's units (memory system, engines, hub, fabric, host port) that waits its turn. -/
inductive Event where
  | fendCommit (core ctx : Nat)
  | stszWrite (v : Word)
  | migthWrite (v : Word)
  | rchkClr
  | rchkEnWrite (en : Bool)
  | qtableWrite (hi : Bool) (v : Word)
  | fpCsrAccess (acc : FpAcc)
  | pcapWrite (v : Word)
  | registerWrite (r : RegTarget) (v : Word)
  | contextSelect (core : Nat)
  | loadReply (core id : Nat)
  | storePerform (core id : Nat)
  | park (core ctx : Nat)
  | stashFill (core off : Nat)
  | dieCacheEvict (die line : Nat)
  | directoryOverflowEvent (core line requester : Nat)
  | directoryOvfWrite (core line : Nat)
  | pageWalk (core dom va : Nat)
  | migrationStart (dom va die : Nat)
  | migrationComplete (id : Nat)
  | crossPackageMigration (dom va : Nat) (dat : Tbl Byte)
  | ownershipRequest (die line id : Nat)
  | invalidationAck (die line : Nat)
  | invalidationResend (die line : Nat)
  | dieUnresponsive (die : Nat)
  | hostCxlRead (off n : Nat)
  | hostCxlWrite (off : Nat) (bytes : List Byte)
  | memoryErrorDetected (addr : Nat)
  | dieResetGraceful (die : Nat)
  | dieResetForced (die : Nat)
  | dieResetEnd (die : Nat)
  | poolPush (die frame : Nat)
  | copyQueueRelease (core : Nat)
  | copyBeat (core ch : Nat)
  | copyCommandEnd (core ch : Nat)
  | vectorBeat (core : Nat)
  | vectorCommandEnd (core : Nat)
  | matrixSelect (octet : Nat)
  | matrixKstep (octet : Nat)
  | matrixOvertake (octet pos : Nat)
  | matrixCommandEnd (octet : Nat)
  | ringNotification (core rec : Nat) (toProducer : Bool)
  | levelNotification (dom blk edge : Nat) (lvl : BitVec 32) (step : Nat) (fin : Bool)
  | gateEvaluate (dom blk : Nat)
  | firingDispatch (dom actor : Nat)
  | nadirRefresh (dom : Nat)
  | lvstall (dom : Nat)
  | domainComplete (dom : Nat)
  | inboxMessage (id : Nat)
  | supervisorMessage (dom : Nat)
  | resume (core : Nat) (gtid : Word)
  | resumeValue (core : Nat) (gtid v : Word)
  | restart (core : Nat) (gtid : Word)
  | abort (core : Nat) (gtid : Word)
  | p0Request (core : Nat)
  | contextSave (core ctx : Nat)
  | contextResume (die slot : Nat)
  | taskSearch (core ctx : Nat)
  | taskSearchRestEnd (core : Nat)
  | joinwWake (core ctx : Nat)
  | barrierDepart (id : Nat)
  | exchangeStart (core : Nat)
  | exchangeRun (id : Nat)
  | exchangeRunDeliver (id : Nat)
  | exchangeAck (id : Nat)
  | closingNotice (id : Nat)
  | abandonment (id : Nat)
  | exchangeEnd (id : Nat)
  | rd (p : Packet)
  | wr (p : Packet)
  | amo (p : Packet)
  | gwr (p : Packet)
  | xrun (p : Packet)
  | msg (p : Packet)
  | gangReserve (p : Packet)
  | gangCommit (p : Packet)
  | gangAbort (p : Packet)
  | mig (p : Packet)
  | shoot (p : Packet)
  | nadir (p : Packet)
  | cfg (p : Packet)
  | val (p : Packet)
  | dep (p : Packet)
  | cnt (p : Packet)
  | done (p : Packet)
  | mack (p : Packet)
  | nack (p : Packet)
  | unknown (p : Packet)
  | mackPortTimeout (tag port : Nat)
  | amoRetransmit (tag : Nat)
  | amoTimeout (tag : Nat)
  | linkGroupFail (lg : Nat)
  | linkGroupRestore (lg : Nat)
  | gangReserveTimeout (gtb : Nat)
  | gangCommitTimeout (gtb : Nat)
  | reservationExpire (gtb : Nat)
  | gangAbortResend (gtb : Nat)
  | launchWindowCopy (w : Nat) (bytes : List Byte)
  | launchRetry
  | energyWindow
  | energyBudgetSpent (dom : Nat)
  | windowEnable (w : Nat)
  | windowDestroy (w : Nat)
  | domainAbort (gtb : Nat)
  | hostSupervisorCommand (v : Word)
  | dctlHaltreq (core ctx : Nat)
  | dctlResume (core ctx : Nat)
  | dctlStep (core ctx : Nat)
  | dctlCancel (core ctx : Nat)
  | contextStateWrite (core ctx off : Nat) (v : Word)
  | stopEntryWrite (i k : Nat) (v : Word)
  | stopRequest (gtid : Word)
  | dumpStart (gtb : Nat)
  | dumpWrite
  | traceEnable (die : Nat)
  | replayArm (v : Word)
  | replayPassEnd
  | errorInjectWrite (t : InjTarget) (addr : Nat) (mask : Word) (mode : Byte)
  | notificationDrain (head : Nat)
  | ethQueueEnable (p q : Nat) (rx : Bool)
  | ethQueueDisable (p q : Nat) (rx : Bool)
  | ethProducerUpdate (p q : Nat) (rx : Bool)
  | ethTransmit (p q : Nat)
  | ethReceive (p : Nat) (frame : List Byte) (fcsOk : Bool)
  | ethPauseReceive (p prio : Nat)
  | ethLinkChange (p : Nat) (up : Bool)
  | powerGood (failAt : Option Nat)
  | packageReset (failAt : Option Nat)
  | firmwareLoadWrite (off : Nat) (v : Word)
  | amoPerform (core id : Nat)
  | backgroundRangeOperation (core id : Nat)
  | cxlCacheSnoop (line : Nat)
  | spdmRequest (code : Nat)
  | ethPauseExpire (p prio : Nat)
  deriving DecidableEq, Repr

end Sys2Proof
end

