-- ==== Sys2Proof/Machine/State.lean ====
section
/-!
DEFINITION. The state of one Krador package: every register, memory, queue and unit that the spec names, as plain
data, and the state right after reset.
-/
set_option linter.all false
namespace Sys2Proof.Machine
open Sys2Proof

/-- Bytes by address, strictly rising, no entry equal to 0, which is what an unlisted byte reads as (R392). -/
abbrev Mem := List Host.Cell

/-- Cause codes of R352. -/
inductive Cause where
  | none | ill | priv | absent | align | laddr | xlate | perm | fabnack | fpx | spill | fill | race
  | datalost | visfail | amounknown | stepalign | lvstall | brk | trap | engfault | shape | ring | gangabort | limit
  deriving DecidableEq, Repr

/-- A shape record as its four double words (R118). -/
structure Shape where
  d0 : Word := 0
  d1 : Word := 0
  d2 : Word := 0
  d3 : Word := 0
  deriving DecidableEq, Repr

/-- A ring binding (R109): the record's consumer core and offset, the role and the pending advance. -/
structure Binding where
  core : Nat
  off : Nat
  producer : Bool
  pending : Nat := 0
  /-- bound by RBIND, not a port -/
  own : Bool := false
  deriving DecidableEq, Repr

/-- A handle: record, EMPTY and ring binding (R119). -/
structure Handle where
  shape : Shape := {}
  empty : Bool := false
  bind : Option Binding := none
  deriving DecidableEq, Repr

/-- Where a resolved address lies (R65): a byte of a core's local memory, of device or host memory (home times 2^52
plus offset), or of a peer or group (fabric address). -/
inductive Place where
  | loc (core off : Nat)
  | dev (addr : Nat)
  | peer (pkid faddr : Nat)
  deriving DecidableEq, Repr

/-- A resolved and checked access target: its place and what its leaf says (R51-R55). `win` is the local offset when
the access goes through a stash window (R76). -/
structure Target where
  place : Place
  gdef : Bool := false
  chk : Bool := false
  mcnt : Bool := false
  /-- 0 OWN, 1 DIRECT, 2 CACHED, 3 MIGRATE -/
  mode : Nat := 0
  page : Nat := 0
  win : Option Nat := none
  deriving DecidableEq, Repr

/-- A fault with the registers it reports: cause, EADDR and EINFO (R353). -/
structure Stop where
  cause : Cause
  eaddr : Word := 0
  einfo : Word := 0
  /-- the access had already joined or must open a fault-table entry (R58) -/
  page : Option Nat := none
  deriving DecidableEq, Repr

/-- One operand of an accepted command: handle as captured, with the base of its view slot (R91, R121). -/
structure Operand where
  hx : Nat
  shape : Shape
  empty : Bool
  bind : Option Binding
  /-- view index, slot bytes and slot count of a ring-bound operand -/
  view : Nat := 0
  slot : Nat := 0
  count : Nat := 1
  rbase : Word := 0
  /-- slots that a last-read mark gives back: the handle's own e3 (R161) -/
  marks : Nat := 1
  deriving DecidableEq, Repr

/-- The functions of the copy engine (R36). -/
inductive CopyFn where
  | copy | gather | scatter | compact | fill | flushr
  deriving DecidableEq, Repr

/-- The value a guard has taken for a command: not yet, run or discard (R128). -/
inductive Taken where
  | waiting | run | discard
  deriving DecidableEq, Repr

/-- A guard prefix at acceptance: its fields and what it has taken. -/
structure Guarded where
  gd : Gd := ⟨false, false, 0⟩
  taken : Taken := .run
  deriving DecidableEq, Repr

/-- What stood in bytes that a command has written, by sector: what its sources may still give (R99, R155, R189, R274). -/
abbrev Undo := List ((Nat × Nat) × List (Option Byte))

/-- An accepted copy-engine command (R91). -/
structure CopyCmd where
  fn : CopyFn
  ch : Nat
  dst : Operand
  src : Operand
  idx : Operand
  p : Word
  g : Bool := false
  rel : Bool := false
  acq : Bool := false
  scope : Scope := .core
  guarded : Guarded := {}
  /-- guard that COMPACT resolves -/
  res : Option QIx := none
  dest : Reg
  q : Word × Word := (0, 0)
  /-- walk position in bits (source element of COMPACT, row of FLUSHR), kept count and bytes delivered -/
  pos : Nat := 0
  kept : Nat := 0
  bytes : Nat := 0
  /-- the index of the row being moved -/
  krow : Option Nat := none
  /-- spans that FLUSHR has counted -/
  seen : List (Nat × Nat) := []
  failed : Option Stop := none
  undo : Undo := []
  /-- number of its first free choice (log 2) -/
  seed : Nat := 0
  deriving DecidableEq, Repr

/-- The VEC functions (R39). -/
inductive VFn where
  | vadd | vsub | vmul | vfma | vfms | vmin | vmax | vabs | vneg
  | vdiv | vsqrt | vrsq | vrcp | vexp2 | vlog2 | vtanh | vsigm | vand
  | vor | vxor | vnot | vshl | vshr | vsar | vcmp | vsel | vcvt
  | vred | vscan | vbcst | vlerp | vqexp | viota | vcount | vclamp
  deriving DecidableEq, Repr

/-- The queued MAT functions (R40). -/
inductive MFn where
  | mma | mmag | mzero | msca | mrd
  deriving DecidableEq, Repr

/-- An accepted vector command (R154). -/
structure VecCmd where
  fn : VFn
  v : Vx
  d : Operand
  a : Operand
  b : Operand
  c : Operand
  scalar : Word
  fpc : Word
  ver : Nat
  q : Word × Word
  guarded : Guarded
  /-- next element (REIX) and flags of the completed ones -/
  pos : Nat := 0
  flags : Nat := 0
  /-- results of a reduction or scan already formed: row or output accumulators -/
  part : List Word := []
  skipEvent : Bool := false
  subst : Option Word := none
  undo : Undo := []
  seed : Nat := 0
  deriving DecidableEq, Repr

/-- An accepted MAT command (R176). -/
structure MatCmd where
  fn : MFn
  m : Mx
  a : Operand
  b : Operand
  x : Operand
  s : Operand
  t : Operand
  fpc : Word
  ver : Nat
  q : Word × Word
  cls : Nat
  guarded : Guarded
  /-- next k (MMA, MMAG) or row-major index (MSCA, MRD) -/
  pos : Nat := 0
  flags : Nat := 0
  /-- rows that MMAG gathered: none is a skipped row -/
  rows : Option (List (Option Nat)) := none
  /-- accumulator slot; since when it stands ready and waits; whether it has been overtaken (R177, R181) -/
  slot : Nat := 0
  since : Option Nat := none
  /-- cycles that it has been ready and waiting before (R181) -/
  aged : Nat := 0
  overtaken : Bool := false
  skipEvent : Bool := false
  subst : Option Word := none
  /-- the accumulator entries whose rounding raised the event that stopped it (R196) -/
  raised : List Nat := []
  undo : Undo := []
  seed : Nat := 0
  deriving DecidableEq, Repr

/-- What an outstanding operation is (KIND of R377). -/
inductive Body where
  /-- bytes, signedness, destination, acquire scope and last-use mark of a load -/
  | load (n : Nat) (signed : Bool) (d : Reg) (acq : Option Scope) (lu : Bool)
  /-- bytes, data, G, release scope and last-use mark of a store; `sent` once it has left the store buffer -/
  | store (n : Nat) (data : Word) (g : Bool) (rel : Option Scope) (lu : Bool) (sent : Bool)
  /-- OP, fields, operand and comparand of an AMO; `seq` when it has gone to a peer -/
  | amo (op : Nat) (m : AmoF) (b c : Word) (seq : Option Nat)
  | copy (c : CopyCmd)
  | vec (c : VecCmd)
  | mat (c : MatCmd)
  /-- record offset, destination, guard and REL of an XSTART -/
  | exch (off : Nat) (d : Reg) (guarded : Guarded) (rel : Bool)
  /-- MCWR (group, tier, PKID, entry) or ACLWR (record, mask, index) on its way -/
  | config (acl : Bool) (a b : Word) (dat : List Word) (d : Reg)
  /-- LASTUSE or DISCARD over sectors of targets -/
  | range (discard : Bool) (targets : List Target)
  deriving DecidableEq, Repr

/-- An entry of a core's in-flight table (R377) with the operation behind it. -/
structure Op where
  id : Nat
  ctx : Nat
  gtid : Word
  /-- domain, privilege and bank core of the issuing firing -/
  dom : Nat := 0
  user : Bool := true
  bank : Nat := 0
  pc : Nat
  addr : Word
  target : Option Target := none
  body : Body
  /-- an atomic access (R204): a load or store with an order other than plain -/
  atomic : Bool := false
  /-- widest scope at which the operation is performed, none yet -/
  done : Option Scope := none
  /-- 0 pending, 1 VISFAIL, 2 failed -/
  status : Nat := 0
  cause : Cause := .none
  /-- reply of a command once ended -/
  reply : Word := 0
  ended : Bool := false
  /-- an engine command held on a page that faults (R58) -/
  held : Bool := false
  deriving DecidableEq, Repr

/-- A task's closure (R300). -/
structure Task where
  dom : Nat
  pc : Nat
  args : List Word
  counter : Word
  gtid : Word
  die : Option Nat
  core : Nat
  ctx : Nat
  deriving DecidableEq, Repr

/-- A 32-byte supervisor message (R358). -/
structure SMsg where
  d0 : Word
  d1 : Word
  d2 : Word
  d3 : Word
  deriving DecidableEq, Repr

/-- The work a context runs: a firing of an actor, or a task (R311-R313). -/
structure Work where
  dom : Nat
  actor : Option Nat
  gtid : Word
  task : Option Task := none
  msg : Option SMsg := none
  /-- T and D of the block at the firing's start -/
  t : BitVec 32 := 0
  d : Nat := 0
  /-- WINS.PTR at the start (R115) -/
  ptr0 : Nat := 0
  /-- when it started (R345) -/
  start : Nat := 0
  deriving DecidableEq, Repr

/-- What a parked firing stopped on, which decides the supervisor's answers (R362). -/
inductive ParkKind where
  /-- a precise fault of the instruction at ctx.pc: its destination and length -/
  | precise (d : Option Reg) (len : Nat)
  /-- a load or AMO that faulted after issue: replayed as the operation -/
  | access (op : Op)
  | fpxScalar (d : Option Reg) (len : Nat)
  /-- a stopped vector or MAT command -/
  | command (op : Op)
  | engine
  | store
  | visfail
  | amoUnknown (d : Reg)
  deriving DecidableEq, Repr

/-- A failure recorded against a firing that has not parked yet (R104, R228, R396). -/
structure Pending where
  stop : Stop
  epc : Nat
  eng : Bool
  reix : Nat := 0
  kind : ParkKind
  deriving DecidableEq, Repr

/-- A LOOP whose slots are pending: slot number, taken, target (R294). -/
structure LoopSt where
  slot : Nat
  taken : Bool
  target : Nat
  deriving DecidableEq, Repr

/-- Whether a context has work and may issue. -/
inductive Status where
  | empty | idle | ready | parked
  deriving DecidableEq, Repr

/-- One context (R112-R127, R309-R313, R353). -/
structure Ctx where
  status : Status := .empty
  /-- domain whose actor or task context stands here, and the actor -/
  home : Option (Nat × Option Nat) := none
  /-- home core and context of a saved firing that runs away from home (R366) -/
  away : Option (Nat × Nat) := none
  work : Option Work := none
  pc : Nat := 0
  /-- live registers by code 1-31; g0 is not stored (R13) -/
  regs : Tbl Word := []
  /-- resident saved frames, newest first: a-set then l-set (R113) -/
  frames : List (List Word) := []
  depth : Nat := 0
  /-- registers that hold a reply: reading one is an acquire (R93, R202) -/
  replies : List Nat := []
  /-- true, false or unresolved (R127); q0 is not stored -/
  guards : Tbl Bool := []
  /-- guards that a COMPACT resolved: observing one is an acquire (R129) -/
  compacted : List Nat := []
  handles : Tbl Handle := []
  fpc : Word := 1
  fpf : Word := 0
  nbv : Nat := 3
  widl : Word := 0
  dgx : Nat := 0
  dgy : Nat := 0
  dox : Nat := 0
  doy : Nat := 0
  supv : Word := 0
  tvec : Word := 0
  epc : Word := 0
  ecause : Word := 0
  eaddr : Word := 0
  einfo : Word := 0
  estat : Word := 0
  reix : Word := 0
  wins : Word := 0
  loop : Option LoopSt := none
  /-- where it goes on once an access that is replayed has retired: PC and LOOP slots (R362) -/
  back : List (Nat × Option LoopSt) := []
  events : Nat := 0
  region : BitVec 32 := 0
  wp : Tbl Word := []
  matCls : Nat := 0
  lvstep : Option Nat := none
  acc : Option Nat := none
  park : Option ParkKind := none
  /-- the page whose fault-table entry it is parked on (R58) -/
  parkPage : Option Nat := none
  pend : Option Pending := none
  /-- what has failed since, to park on in turn (R104, R357) -/
  later : List Pending := []
  /-- FPX default results for the one execution that RESUME allows (R138) -/
  oneDefault : Bool := false
  /-- arrival at a barrier, and whether it has departed (R298) -/
  arrival : Option Nat := none
  departed : Bool := false
  /-- JOINW waits on a line until it is written (R303) -/
  joinLine : Option Place := none
  /-- wait of R341 in cycles -/
  waited : Nat := 0
  dhalt : Bool := false
  haltReq : Bool := false
  stepping : Bool := false
  /-- no instruction of the firing has issued yet, and the stop at this boundary is already taken (R378) -/
  first : Bool := false
  pass : Bool := false
  /-- its BG has waited for its guard, and pays no misprediction (R291) -/
  guardWait : Bool := false
  /-- halted by a P0 request, or in a wait by FREEZE (R364, R367) -/
  p0halt : Bool := false
  frozenHalt : Bool := false
  /-- saved before a MAT command: it resumes on its home core alone (R366) -/
  homeOnly : Bool := false
  spawns : Nat := 0
  /-- rest commands of a parked firing, in acceptance order (R163, R195) -/
  kept : List Op := []
  /-- a message this context's firing waits to have accepted -/
  sending : Bool := false
  /-- the record at which its XWAIT waits, and the reply of its exchange once that has ended (R284) -/
  xwait : Option (Nat × Option Word) := none
  /-- when a task context began to search (R384) -/
  searched : Nat := 0
  deriving DecidableEq, Repr

/-- A stash window (R76). -/
structure Window where
  off : Nat
  len : Nat
  src : Word
  deriving DecidableEq, Repr

/-- A present stash sector: its place at the source, dirty (R76), poison that came with it (R50); its bytes stand in local
memory. -/
structure StashSec where
  target : Target
  dirty : Bool
  poison : Bool := false
  deriving DecidableEq, Repr

/-- A line of the home directory of local lines (R78, R79): pointers and firmware table sharers, by core. -/
structure LocalDir where
  ptrs : List Nat := []
  ovf : Bool := false
  table : List Nat := []
  /-- requesters that the firmware answered uncached (R79) -/
  uncached : List Nat := []
  deriving DecidableEq, Repr

/-- A live ring in its consumer core's ring unit (R107, R108). -/
structure LiveRing where
  base : Word
  slot : Nat
  count : Nat
  fillc : Nat
  freec : Nat
  pidx : Nat
  cidx : Nat
  /-- what the consumer and the producer have been told (R108) -/
  seenFill : Nat
  seenFree : Nat
  scope : Scope
  stamp : Bool
  prodCore : Nat
  consCore : Nat
  /-- actors that hold the roles: (domain, actor) -/
  prod : Option (Nat × Nat) := none
  cons : Option (Nat × Nat) := none
  /-- the role is an actor's port, held for the life of its domain -/
  prodPort : Bool := false
  consPort : Bool := false
  /-- stamps of published slots, oldest first (R318) -/
  stamps : List (BitVec 32) := []
  deriving DecidableEq, Repr

/-- An LVSEND message (R324, R331). -/
structure LMsg where
  core : Nat
  ctx : Nat
  dom : Nat
  stamp : BitVec 32
  src : Nat
  srcCtx : Nat
  bytes : List Byte
  /-- the packet of a peer's message -/
  tag : Nat := 0
  deriving DecidableEq, Repr

/-- An accumulator slot (R177): its owner and entries by i*64+j. -/
structure Acc where
  owner : Option Nat := none
  cells : Tbl (BitVec 32) := []
  deriving DecidableEq, Repr

/-- An error-log entry (R386). -/
structure LogEntry where
  addr : Word
  syn : Word
  ctx : Nat
  typ : Nat
  count : Nat
  deriving DecidableEq, Repr

/-- An injection register (R387). -/
structure Inject where
  addr : Word := 0
  mask : Word := 0
  mode : Nat := 0
  deriving DecidableEq, Repr

/-- One core. -/
structure Core where
  mem : Mem := []
  /-- 8-byte words with an uncorrectable error (R69) -/
  bad : List Nat := []
  /-- 8-byte words with a single-bit error that no read has met yet: word and flipped bits (R69) -/
  soft : List (Nat × Word) := []
  /-- fetch buffer: the line's offset and its sixteen words, none where the line held an uncorrectable one (R69, R70) -/
  fetch : Option (Nat × List (Option Nat)) := none
  stsz : Nat := 0
  windows : List Window := []
  stash : Tbl StashSec := []
  dirl : Tbl LocalDir := []
  qtlo : Word := 0
  qthi : Word := 0
  dqbase : Word := 0
  pmc : Tbl Word := []
  pmcsel : Word := 0
  ops : List Op := []
  copyQ : List Nat := []
  chans : Tbl Nat := []
  vecQ : List Nat := []
  matQ : List Nat := []
  portQ : List Nat := []
  accs : Tbl Acc := []
  rings : Tbl LiveRing := []
  inbox : List LMsg := []
  /-- supervisor messages in entries 28-31, each with its domain -/
  smsgs : List (Nat × SMsg) := []
  deque : List Task := []
  /-- tasks moved to the overflow area, oldest first: the entry's offset, the free value that its bytes hold, the task (R305) -/
  overflow : List (Nat × Nat × Task) := []
  /-- refused steals in a row, and since when the core rests (R307) -/
  fails : Nat := 0
  rest : Option Nat := none
  last : Nat := 15
  elog : List LogEntry := []
  inj : Inject := {}
  /-- by record offset, the scope that the exchange which ended there last acquires (R278, R284) -/
  xlast : Tbl Scope := []
  /-- bytes of the directory-overflow SRAM that the debugger has written, and how often a context-15 event has written it
  (R79, R373) -/
  sram : Tbl Byte := []
  sramGen : Nat := 0
  ctxs : Tbl Ctx := []
  deriving DecidableEq, Repr

/-- A die-cache sector: bytes, dirty, uncorrectable, poisoned (R72-R74). -/
structure Sector where
  bytes : List Byte
  dirty : Bool := false
  bad : Bool := false
  poison : Bool := false
  deriving DecidableEq, Repr

/-- A store or engine write that a die cache has accepted before its grant (R223). -/
structure Accepted where
  addr : Nat
  bytes : List Byte
  g : Bool
  /-- core * 16 + context -/
  who : Nat
  op : Nat
  /-- the core and target of the stash sector through which it was made (R76) -/
  via : Option (Nat × Target) := none
  deriving DecidableEq, Repr

/-- A firing saved for a P0 placement (R365). -/
structure SaveSlot where
  ctx : Ctx
  homeCore : Nat
  homeCtx : Nat
  deriving DecidableEq, Repr

/-- One compute die. -/
structure Die where
  /-- sectors by address / 64 -/
  sectors : Tbl Sector := []
  /-- lines first to evict, and lines by last use, oldest first (R72) -/
  first : List Nat := []
  lru : List Nat := []
  accepted : List Accepted := []
  queue : List Task := []
  slots : Tbl SaveSlot := []
  isolated : Bool := false
  /-- in reset: none, or whether it is forced -/
  reset : Option Bool := none
  rstat : Nat := 0
  pool : List Nat := []
  /-- trace registers (R384) -/
  tbase : Nat := 0
  tsize : Nat := 0
  tgtb : Nat := 0
  alld : Bool := false
  wrap : Bool := false
  ten : Bool := false
  widx : Nat := 0
  drops : Nat := 0
  deriving DecidableEq, Repr

/-- A hub directory entry (R222) with the invalidations it owes: die and sends (R227). -/
structure DirEntry where
  owner : Option Nat := none
  sharers : List Nat := []
  /-- die, sends and time of the first send -/
  owed : List (Nat × Nat × Nat) := []
  deriving DecidableEq, Repr

/-- A write that waits for acknowledgements: its die, core, operation and G (R223, R224). -/
structure Awaiting where
  die : Nat
  line : Nat
  core : Nat
  op : Nat
  g : Bool
  /-- core * 16 + context of its issuer, which alone may read the line on its die before the grant (R223) -/
  who : Nat := 0
  deriving DecidableEq, Repr

/-- A TLB entry by level 0 micro, 1 cluster, 2 die; its instance, domain, page and leaf (R56). -/
structure TlbEntry where
  level : Nat
  inst : Nat
  dom : Nat
  page : Nat
  leaf : Word
  big : Bool
  deriving DecidableEq, Repr

/-- A fault-table entry: domain, page and whether a core access has parked on it (R58). -/
structure FaultEntry where
  dom : Nat
  page : Nat
  deriving DecidableEq, Repr

/-- Race-check tag (R215). -/
structure Tag where
  core : Nat
  ctx : Nat
  region : BitVec 32
  gtid : Word
  atomic : Bool
  deriving DecidableEq, Repr

/-- Tags of a sector: the writer and at most two readers, newest first. -/
structure SectorTags where
  writer : Option Tag := none
  readers : List Tag := []
  deriving DecidableEq, Repr

/-- A page migration in progress (R62, R64). -/
structure Move where
  id : Nat
  dom : Nat
  va : Nat
  leafAddr : Nat
  leaf : Word
  oldPfn : Nat
  oldHome : Nat
  newPfn : Nat
  newHome : Nat
  /-- the other package whose frame the old or the new one is, 0 for this package's (R64) -/
  oldPeer : Nat := 0
  newPeer : Nat := 0
  deriving DecidableEq, Repr

/-- A launch window's registers (R334). -/
structure LaunchWin where
  wbase : Word := 0
  en : Bool := false
  busy : Bool := false
  whead : Nat := 0
  wseq : Nat := 1
  lstat : Nat := 0
  lcause : Nat := 0
  lgtb : Nat := 0
  deriving DecidableEq, Repr

/-- An actor of a domain, as the record's table gives it, and where it stands (R336). -/
structure Actor where
  wid : Word := 0
  args : List Word := []
  entry : Nat := 0
  x : Nat := 0
  y : Nat := 0
  any : Bool := false
  block : Option Nat := none
  gang : Option Nat := none
  pkg : Nat := 0
  est : Nat := 0
  /-- ring index, rate, and input or output, in port order -/
  ports : List (Nat × Nat × Bool) := []
  core : Nat := 0
  ctx : Nat := 0
  fired : Nat := 0
  /-- its start firing, or its first of the block or ports, has begun (R312) -/
  begun : Bool := false
  running : Bool := false
  ended : Bool := false
  /-- a restarted firing waits to start again: its GTID, its message and the cause answered (R362, R368) -/
  again : Option (Word × Option SMsg × Nat) := none
  deriving DecidableEq, Repr

/-- An edge of a block's gate and its register (R314, R315). -/
structure Edge where
  a : Int
  s : Bool
  j : Nat
  lvl : BitVec 32 := 0
  step : Nat := 0
  fin : Bool := false
  count : Nat := 0
  deriving DecidableEq, Repr

/-- A block in its gate unit (R314). -/
structure Block where
  t : BitVec 32 := 0
  d : Nat := 0
  fin : Bool := false
  x : Shape := {}
  y : Shape := {}
  edges : List Edge := []
  actor : Nat := 0
  deriving DecidableEq, Repr

/-- A report item of a launch that did not complete (R346). -/
structure Item where
  gtid : Word
  kind : Nat
  state : Nat
  cause : Nat
  eaddr : Word
  pc : Nat
  core : Nat
  deriving DecidableEq, Repr

/-- A launch record's fields (R335), as copied. -/
structure Launch where
  bytes : List Byte := []
  win : Option Nat := none
  /-- class of the issuing launch and whether it is P0, for LAUNCH (R351) -/
  parent : Option (Nat × Bool) := none
  replay : Bool := false
  /-- the tables that its pointers named, once they have been read: actors, blocks, rules, rings, pipes, image, packages -/
  tabs : List (List Byte) := []
  deriving DecidableEq, Repr

/-- A gang's protocol at its coordinator or at a member (R347): the packages whose RESERVE, COMMIT or ABORT acknowledgement is due,
the status and cause with which the coordinator ends it, the packages whose members never started. -/
structure Gang where
  coordinator : Nat
  waitAck : List Nat := []
  committed : Bool := false
  aborting : List Nat := []
  fate : Option (Nat × Nat) := none
  never : List Nat := []
  deriving DecidableEq, Repr

/-- A domain (R308). -/
structure Dom where
  launch : Launch := {}
  root : Nat := 0
  actors : Tbl Actor := []
  blocks : Tbl Block := []
  /-- offsets of ring records, by ring index -/
  rings : Tbl Nat := []
  nblk : Nat := 0
  super : Nat := 0
  cls : Nat := 0
  pre : Nat := 0
  scope : Scope := .core
  widw : Word := 0
  ox : Nat := 0
  oy : Nat := 0
  gx : Nat := 1
  gy : Nat := 1
  taskc : Nat := 0
  test : Nat := 0
  imgorg : Nat := 0
  imglen : Nat := 0
  energy : Option Nat := none
  cmpl : Word := 0
  cmax : Nat := 0
  meter : Nat := 0
  spent : Bool := false
  nested : Bool := false
  nadir : BitVec 32 := 0
  frozen : Bool := false
  /-- FREEZE is draining, and the dispatcher's own freeze for a parked supervisor (R363) -/
  draining : Bool := false
  hostFreeze : Bool := false
  lvArmed : Bool := true
  tstart : Nat := 0
  ndone : Nat := 0
  items : List Item := []
  ended : Bool := false
  /-- messages for the supervisor that wait (R359) -/
  waitMsgs : List SMsg := []
  started : Bool := true
  gang : Option Gang := none
  /-- packages of the launch, the least values that the others have contributed to the nadir, and those that have reported
  their end (R318, R347) -/
  pkgs : List Nat := []
  peerMin : Tbl Nat := []
  reported : List Nat := []
  /-- meter in EU up to which firings have been settled (R344); since when this package's part has been at rest, how often it has stirred
  from rest, and since when every other part has said that it rests (R325) -/
  settled : Nat := 0
  quiet : Option Nat := none
  stirs : Nat := 0
  heard : Option Nat := none
  deriving DecidableEq, Repr

/-- A barrier episode (R298). -/
structure Barrier where
  id : Nat
  dom : Nat
  inst : Nat
  scope : Scope
  num : Nat
  count : Nat
  arrived : Nat := 0
  /-- arrivals of other packages: the package and its own name for the arrival -/
  far : List (Nat × Nat) := []
  deriving DecidableEq, Repr

/-- One party's exchange (R268-R281): queued at its port until `active`, then in the hub; an `ended` one stands only so that what
still arrives for it is refused (R280). -/
structure Exch where
  id : Nat
  core : Nat
  op : Nat
  /-- record offset, and bytes 0-95 of the record as captured -/
  off : Nat
  record : List Byte
  /-- cores by party number: peer * 8192 + y * 128 + x -/
  parties : List Nat
  me : Nat
  /-- the party list as it stands in memory: part of the map (R269) -/
  list : List Nat := []
  active : Bool := false
  ended : Bool := false
  /-- next source element -/
  pos : Nat := 0
  walked : Bool := false
  sent : Nat := 0
  acked : Nat := 0
  rcvd : Nat := 0
  /-- bytes sent to each party, bytes received from each, and what each owes: by the map, or by its closing notice -/
  sentTo : Tbl Nat := []
  got : Tbl Nat := []
  debt : Tbl Nat := []
  /-- the sending exchange of each party, by the operation that its messages name: what a later one sends waits (R275) -/
  bound : Tbl Nat := []
  /-- parties that abandoned this one, with their causes -/
  abandoned : List (Nat × Nat) := []
  /-- sending parties whose release is performed (R278) -/
  released : List Nat := []
  failed : Option (Stop × Nat) := none
  deriving DecidableEq, Repr

/-- What a run, an acknowledgement, a notice or an abandonment carries between engines (R273-R280): `n` counts bytes, `tag`
names the packet of a peer's run. -/
structure XMsg where
  id : Nat
  xid : Nat
  /-- cores as in a party list -/
  src : Nat
  dst : Nat
  /-- party numbers -/
  fromP : Nat
  toP : Nat
  doff : Nat := 0
  bytes : List Byte := []
  /-- the sender's map, bytes 0-63 and the party list (R269); a run from another package carries its digest alone -/
  map : Option (List Byte × List Nat) := none
  digest : Word := 0
  /-- the sender's exchange, by its operation -/
  sop : Nat := 0
  n : Nat := 0
  cause : Nat := 0
  tag : Nat := 0
  /-- the notice of a performed release (R278) -/
  rel : Bool := false
  /-- made by this package's hub for a party that can take no part (R281) -/
  born : Bool := false
  deriving DecidableEq, Repr

/-- A request that this package has sent over Callyn and not seen answered (R246). -/
structure Sent where
  tag : Nat
  pkt : Packet
  core : Nat
  op : Nat
  /-- kept back until what was sent again to its line is answered (R261) -/
  held : Bool := false
  /-- core, context number and operation of what a write-back was begun for (R252) -/
  by' : Option (Nat × Nat × Nat) := none
  sends : Nat := 1
  /-- times of the first and of the latest send -/
  first : Nat := 0
  last : Nat := 0
  lg : Nat := 0
  /-- EINFO of a NACK that the waiting access has not seen yet -/
  nack : Option Nat := none
  /-- data of the reply that the waiting access has not taken yet -/
  got : Option (List Byte) := none
  /-- sent again after its link group failed (R261) -/
  resent : Bool := false
  deriving DecidableEq, Repr

/-- A source package's reply cache and highest sequence (R242). -/
structure ReplyCache where
  high : Option Nat := none
  entries : List (Nat × Packet) := []
  deriving DecidableEq, Repr

/-- An access-table entry of the package's own ports (R251). -/
structure AclEntry where
  lo : Word := 0
  hi : Word := 0
  srclo : Nat := 0
  srchi : Nat := 0
  v : Bool := false
  rights : Nat := 0
  deriving DecidableEq, Repr

/-- A group write travelling through a switch (R254, R255): what it still waits for. -/
structure GroupWrite where
  tag : Nat
  tier : Nat
  ports : List Nat
  pos : Nat := 0
  neg : Nat := 0
  fneg : Nat := 0xFFF
  /-- when it sent its copies -/
  since : Nat := 0
  deriving DecidableEq, Repr

/-- A peer's request that has passed the last hop and waits here (R242, R250, R257): what it has written already and then answers. -/
structure Inbound where
  src : Nat
  tag : Nat
  op : Nat
  wrote : Option (List Byte) := none
  deriving DecidableEq, Repr

/-- An Ethernet queue (R263). -/
structure EthQ where
  base : Nat := 0
  size : Nat := 0
  proda : Nat := 0
  consa : Nat := 0
  vec : Nat := 0
  cause : Nat := 0
  pfc : Bool := false
  stop : Bool := false
  en : Bool := false
  /-- EN is set, and the words are not read yet -/
  starting : Bool := false
  done : Nat := 0
  prod : Nat := 0
  deriving DecidableEq, Repr

/-- An Ethernet port (R262-R267). -/
structure EthPort where
  tx : Tbl EthQ := []
  rx : Tbl EthQ := []
  stats : Tbl Nat := []
  up : Bool := false
  paused : List Nat := []
  /-- frames received and not yet written: priority, arrival and bytes -/
  held : List (Nat × Nat × List Byte) := []
  deriving DecidableEq, Repr

/-- A stop entry (R378). -/
structure StopEntry where
  gtid : Word := 0
  gmask : Word := 0
  w2 : Word := 0
  deriving DecidableEq, Repr

/-- The matrix unit of an octet (R181): credits, last position, running command (core, op), k-step boundary. -/
structure Octet where
  credit : Tbl Nat := []
  last : Nat := 0
  running : Option (Nat × Nat) := none
  /-- heads that were ready when it was selected (R182) -/
  rivals : List Nat := []
  deriving DecidableEq, Repr

/-- What happens to leave the package, in order: log 3. -/
inductive Output where
  | hostRead (off : Nat) (dat : List Byte) (poison : Bool)
  | hostError (off : Nat)
  | packet (p : Packet)
  /-- a switch's copy of a group write to one of its ports: 16 times the tier plus the port (R254) -/
  | copy (port : Nat) (p : Packet)
  | frame (port : Nat) (dat : List Byte)
  | pause (port prio : Nat)
  | msix (vec : Nat)
  | spdm (code : Nat) (dat : List Byte)
  deriving DecidableEq, Repr

/-- The replay unit (R385): captured pages and local images, digests and UNCAPT, MISMATCH. -/
structure Replay where
  arm : Bool := false
  passm1 : Nat := 0
  win : Nat := 0
  resa : Word := 0
  psel : Tbl Word := []
  pass : Nat := 0
  rstat : Nat := 0
  gtb : Option Nat := none
  pages : Tbl (List Byte) := []
  images : Tbl Mem := []
  digests : Tbl Word := []
  digest1 : Tbl Word := []
  mismatch : Bool := false
  uncapt : Bool := false
  deriving DecidableEq, Repr

/-- What goes next (log 1): the oldest pending move at an index, or the issuing context. -/
inductive Pick where
  | issue
  | event (n : Nat)
  deriving DecidableEq, Repr

/-- One step of the schedule: the pick and how many cycles it took. -/
structure Turn where
  pick : Pick
  cycles : Nat := 1
  deriving DecidableEq, Repr

/-- The whole package. -/
structure State where
  /-- DEVCAP and COORD.PKID of the part (R5, R125) -/
  devcap : Word := Config.devcap
  pkid : Nat := 0
  cores : Tbl Core := []
  dies : Tbl Die := []
  octets : Tbl Octet := []
  /-- device and host memory by home * 2^52 + offset (R48) -/
  mem : Mem := []
  /-- poisoned sectors by address / 64 (R49) -/
  poison : List Nat := []
  dir : Tbl DirEntry := []
  awaiting : List Awaiting := []
  tlb : List TlbEntry := []
  faults : List FaultEntry := []
  tags : Tbl SectorTags := []
  migCount : Tbl Nat := []
  moves : List Move := []
  migPage : Tbl Nat := []
  doms : Tbl Dom := []
  wins : Tbl LaunchWin := []
  pendingLaunch : List Launch := []
  reservoir : Nat := 0
  debt : Nat := 0
  /-- the part of it that the last fill has not repaid (R344) -/
  carried : Nat := 0
  barriers : List Barrier := []
  exchs : List Exch := []
  xmsgs : List XMsg := []
  lmsgs : List (Nat × LMsg) := []
  amoSeq : Tbl Nat := []
  /-- per-source packet count (SEQ of R246) -/
  seqOut : Nat := 0
  sent : List Sent := []
  replies : Tbl ReplyCache := []
  linkDown : List Nat := []
  asterism : Tbl Nat := []
  acl : Tbl AclEntry := []
  groups : List GroupWrite := []
  inbound : List Inbound := []
  eth : Tbl EthPort := []
  stops : Tbl StopEntry := []
  sgtid : Option Word := none
  sgNone : Bool := false
  dbuf : Word := 0
  dlen : Nat := 0
  dbytes : Nat := 0
  dstat : Nat := 0
  dgtb : Nat := 0
  replay : Replay := {}
  nbase : Word := 0
  nsize : Word := 0
  ntail : Nat := 0
  nhead : Nat := 0
  nheld : List (List Byte) := []
  supCmd : Tbl Word := []
  hlogs : List LogEntry := []
  hinj : Inject := {}
  weights : Tbl Nat := []
  fw : Nat := 0
  fwImage : List Byte := []
  migth : Nat := 0x0400
  agesh : Nat := 10
  pcap : Nat := 2800
  rchkEn : Bool := false
  races : Nat := 0
  time : Nat := 0
  /-- the model's own: pending moves, schedule, issuing context, waits, free values and names (logs 1-3) -/
  events : List Event := []
  turns : List Turn := []
  cur : Nat × Nat := (0, 0)
  selected : Bool := false
  spun : Nat := 0
  stalled : List (Nat × Nat) := []
  free : Nat := 0
  nextId : Nat := 0
  out : List Output := []
  deriving DecidableEq, Repr

/-- Why a step stops. -/
inductive Fault where
  /-- Raised by `step` alone: bring-up has failed (R392: state 0x80 + step), only the identity and firmware-load pages
  respond, and no power-good, package reset or firmware write is pending. Safe: the device does nothing there. -/
  | notReady (state : Nat)
  deriving DecidableEq, Repr

/-- Why the model does not say what an instruction does. -/
inductive Refusal where
  /-- An arm of `exec` without a meaning yet. Safe. -/
  | notModelled (mnemonic : String)
  deriving DecidableEq, Repr

/-- The energy weights in 2^-16 pJ: the typical values of R393. DESIGN CHOICE: log 10. -/
def typicalWeights : Tbl Nat :=
  [(0, 327680), (1, 6554), (2, 393216), (3, 1507328), (4, 1048576000), (5, 1966080000), (6, 3932160000),
   (7, 3932160), (8, 19660800), (9, 163840000), (10, 58982400)]

/-- The machine right after reset: power-good has come and bring-up is the next move (R392); every register at the
reset value that the spec gives it, or that a log entry names. -/
def State.reset : State :=
  { weights := typicalWeights, reservoir := 2800000, events := [.powerGood none] }

end Sys2Proof.Machine
end

