-- ==== Sys2Proof/Machine/Table.lean ====
section
/-!
DEFINITION. Sparse tables and byte memory in canonical form: the operations through which every field of State that
is a table or a memory is read and written.
-/
set_option linter.all false
namespace Sys2Proof

/-- The entry of a table at a number. -/
def Tbl.find {α : Type} (t : Tbl α) (k : Nat) : Option α :=
  match t with
  | [] => none
  | (n, v) :: r => if n = k then some v else Tbl.find r k

/-- The entry of a table, or the reader's default. -/
def Tbl.read {α : Type} (t : Tbl α) (k : Nat) (dflt : α) : α := (Tbl.find t k).getD dflt

/-- A table with one entry written. -/
def Tbl.put {α : Type} (t : Tbl α) (k : Nat) (v : α) : Tbl α :=
  match t with
  | [] => [(k, v)]
  | (n, w) :: r => if n = k then (k, v) :: r else (n, w) :: Tbl.put r k v

/-- A table with one entry removed. -/
def Tbl.del {α : Type} (t : Tbl α) (k : Nat) : Tbl α := List.filter (fun e => e.1 != k) t

/-- The numbers that a table lists. -/
def Tbl.keys {α : Type} (t : Tbl α) : List Nat := List.map (fun e => e.1) t

namespace Machine

/-- One byte; an unlisted one reads as 0. -/
def readByte (m : Mem) (a : Nat) : Byte :=
  match m with
  | [] => 0
  | (k, v) :: r => if k = a then v else if a < k then 0 else readByte r a

/-- Write one byte, keeping the list strictly rising and without zeros. -/
def writeByte (m : Mem) (a : Nat) (b : Byte) : Mem :=
  match m with
  | [] => if b = 0 then [] else [(a, b)]
  | (k, v) :: r =>
    if k = a then (if b = 0 then r else (a, b) :: r)
    else if a < k then (if b = 0 then (k, v) :: r else (a, b) :: (k, v) :: r)
    else (k, v) :: writeByte r a b

/-- `n` bytes from an address up. -/
def readBytes (m : Mem) (a n : Nat) : List Byte :=
  match n with
  | 0 => []
  | n + 1 => readByte m a :: readBytes m (a + 1) n

/-- Bytes written from an address up. -/
def writeBytes (m : Mem) (a : Nat) (bs : List Byte) : Mem :=
  match bs with
  | [] => m
  | b :: r => writeBytes (writeByte m a b) (a + 1) r

/-- The canonical form of a byte memory. -/
def memFrom (lo : Nat) (m : Mem) : Bool :=
  match m with
  | [] => true
  | (k, v) :: r => decide (lo ≤ k) && v != 0 && memFrom (k + 1) r

/-- Strictly rising addresses and no entry equal to what an unlisted byte reads as. -/
def Memory.wf (m : Mem) : Bool := memFrom 0 m

/-- Bytes as one little-endian number (R26). -/
def leNat (bs : List Byte) : Nat :=
  match bs with
  | [] => 0
  | b :: r => b.toNat + 256 * leNat r

/-- A number as `n` little-endian bytes. -/
def natLE (n v : Nat) : List Byte :=
  match n with
  | 0 => []
  | n + 1 => BitVec.ofNat 8 v :: natLE n (v / 256)

/-- The bytes of a word. -/
def wordLE (w : Word) : List Byte := natLE 8 w.toNat

/-- Bytes as a 64-bit word. -/
def leWord (bs : List Byte) : Word := BitVec.ofNat 64 (leNat bs)

/-- Bit field of a word. -/
def field (w : Word) (hi lo : Nat) : Nat := w.toNat / 2 ^ lo % 2 ^ (hi + 1 - lo)

/-- A word with bits [hi:lo] replaced. -/
def setField (w : Word) (hi lo v : Nat) : Word :=
  BitVec.ofNat 64 (w.toNat - field w hi lo * 2 ^ lo + v % 2 ^ (hi + 1 - lo) * 2 ^ lo)

/-- Numbers from `a` up, `n` of them. -/
def upFrom (a n : Nat) : List Nat :=
  match n with
  | 0 => []
  | n + 1 => a :: upFrom (a + 1) n

/-- Codes of the causes (R352). -/
def Cause.code : Cause → Nat
  | .none => 0 | .ill => 1 | .priv => 2 | .absent => 3 | .align => 4 | .laddr => 5 | .xlate => 6 | .perm => 7
  | .fabnack => 8 | .fpx => 9 | .spill => 10 | .fill => 11 | .race => 12 | .datalost => 13 | .visfail => 14
  | .amounknown => 15 | .stepalign => 16 | .lvstall => 17 | .brk => 18 | .trap => 19 | .engfault => 20
  | .shape => 21 | .ring => 22 | .gangabort => 23 | .limit => 24

/-! Parts of the state by number. -/

def State.core (s : State) (c : Nat) : Core := Tbl.read s.cores c {}
def State.setCore (s : State) (c : Nat) (k : Core) : State := { s with cores := Tbl.put s.cores c k }
def State.ctx (s : State) (c x : Nat) : Ctx := Tbl.read (s.core c).ctxs x {}
def State.setCtx (s : State) (c x : Nat) (k : Ctx) : State :=
  s.setCore c { s.core c with ctxs := Tbl.put (s.core c).ctxs x k }
def State.updCtx (s : State) (c x : Nat) (f : Ctx → Ctx) : State := s.setCtx c x (f (s.ctx c x))
def State.updCore (s : State) (c : Nat) (f : Core → Core) : State := s.setCore c (f (s.core c))
def State.die (s : State) (d : Nat) : Die := Tbl.read s.dies d {}
def State.setDie (s : State) (d : Nat) (k : Die) : State := { s with dies := Tbl.put s.dies d k }
def State.updDie (s : State) (d : Nat) (f : Die → Die) : State := s.setDie d (f (s.die d))
def State.dom? (s : State) (g : Nat) : Option Dom := Tbl.find s.doms g
def State.dom (s : State) (g : Nat) : Dom := Tbl.read s.doms g {}
def State.updDom (s : State) (g : Nat) (f : Dom → Dom) : State := { s with doms := Tbl.put s.doms g (f (s.dom g)) }

/-- A pending move added at the end. -/
def State.push (s : State) (e : Event) : State := { s with events := s.events ++ [e] }
def State.pushAll (s : State) (es : List Event) : State := { s with events := s.events ++ es }
/-- A fresh name for an operation. -/
def State.fresh (s : State) : Nat × State := (s.nextId, { s with nextId := s.nextId + 1 })
/-- A fresh free bit. -/
def State.anyBit (s : State) : Bool × State := (Config.freeBit s.free, { s with free := s.free + 1 })
def State.emit (s : State) (o : Output) : State := { s with out := s.out ++ [o] }

/-- A move that may have to wait: it goes to the end of the pending moves while it is not due. -/
def attempt (e : Event) (r : Option State) (s : State) : State :=
  match r with
  | some t => t
  | none => s.push e

/-! Coordinates (R65, R125). -/

def coreX (c : Nat) : Nat := c % 128
def coreY (c : Nat) : Nat := c / 128
/-- A die is 64 by 32 cores: 2*(y >= 32) + (x >= 64) (R65, R198). -/
def dieOf (c : Nat) : Nat := 2 * (if coreY c ≥ 32 then 1 else 0) + (if coreX c ≥ 64 then 1 else 0)
def clusterOf (c : Nat) : Nat := coreY c / 4 * 32 + coreX c / 4
/-- Octets are 4 by 2 (R181, R198). -/
def octetOf (c : Nat) : Nat := coreY c / 2 * 32 + coreX c / 4
def octetPos (c : Nat) : Nat := coreX c % 4 + 4 * (coreY c % 2)
def octetCore (o p : Nat) : Nat := (o / 32 * 2 + p / 4) * 128 + (o % 32 * 4 + p % 4)
/-- The dies, memory dies, ports and units that DEVCAP reports present (R5, R6). -/
def State.diePresent (s : State) (d : Nat) : Bool := field s.devcap 3 0 / 2 ^ d % 2 == 1
def State.memDiePresent (s : State) (m : Nat) : Bool := field s.devcap 5 4 / 2 ^ m % 2 == 1
def State.portPresent (s : State) (p : Nat) : Bool := p < 8 && field s.devcap 13 6 / 2 ^ p % 2 == 1
def State.rchkPresent (s : State) : Bool := field s.devcap 14 14 == 1
/-- Package design power in watts (R3, R344). -/
def State.designPower (s : State) : Nat := if s.diePresent 3 then 2800 else 2200
def State.coreExists (s : State) (x y : Nat) : Bool := x < 128 && y < 64 && s.diePresent (dieOf (y * 128 + x))
/-- x in [6:0] and y in [12:7]. -/
def packed (c : Nat) : Nat := c

/-- Whether a scope instance holds both cores (R198). -/
def sameScope (sc : Scope) (a b : Nat) : Bool :=
  match sc with
  | .core => a == b
  | .cl => clusterOf a == clusterOf b
  | .die => dieOf a == dieOf b
  | .pkg | .sys => true

/-- Scopes by width (R16). -/
def scopeNum : Scope → Nat
  | .core => 0 | .cl => 1 | .die => 2 | .pkg => 3 | .sys => 4

def scopeOf (n : Nat) : Option Scope :=
  match n with
  | 0 => some .core | 1 => some .cl | 2 => some .die | 3 => some .pkg | 4 => some .sys | _ => none

end Machine
end Sys2Proof
end

