-- ==== Sys2Proof/Machine/Ops.lean ====
section
/-!
DEFINITION. The operations that every meaning is built from: registers, guards and handles of a context, waiting for
outstanding replies, retiring, parking with its supervisor message, entering an in-core handler and returning from it,
notifications to the host, and the counters and meters.
-/
set_option linter.all false
namespace Sys2Proof.Machine
open Sys2Proof

/-- What a meaning answers. -/
abbrev Out := Host.Outcome State Fault Refusal

/-- Every meaning ends in a next state: an instruction's fault parks its firing, which is a state (R357). -/
def took (s : State) : Out := .next s

/-! Registers, guards, handles of a context. -/

/-- A register of the current window; g0 reads as zero (R13). -/
def rd (k : Ctx) (r : Reg) : Word := if r = 0 then 0 else Tbl.read k.regs r.toNat 0

/-- A register written; a write of g0 is discarded (R13). -/
def wr (k : Ctx) (r : Reg) (v : Word) : Ctx :=
  if r = 0 then k else
    { k with regs := Tbl.put k.regs r.toNat v, replies := k.replies.filter fun n => n != r.toNat }

/-- A register written by the reply of an engine: reading it is an acquire (R93, R202). -/
def wrReply (k : Ctx) (r : Reg) (v : Word) : Ctx :=
  if r = 0 then k else { wr k r v with replies := r.toNat :: (wr k r v).replies }

/-- A guard: none while unresolved; q0 is always true (R127). -/
def guardOf (k : Ctx) (q : QIx) : Option Bool := if q = 0 then some true else Tbl.find k.guards q.toNat

/-- A guard written or made unresolved; a write of q0 is discarded (R13). -/
def setGuard (k : Ctx) (q : QIx) (v : Option Bool) : Ctx :=
  if q = 0 then k else
    { k with
      guards := match v with
        | some b => Tbl.put k.guards q.toNat b
        | none => Tbl.del k.guards q.toNat
      compacted := k.compacted.filter fun n => n != q.toNat }

def handleOf (k : Ctx) (h : HIx) : Handle := Tbl.read k.handles h.toNat {}
def setHandle (k : Ctx) (h : HIx) (v : Handle) : Ctx := { k with handles := Tbl.put k.handles h.toNat v }

/-- The 3-bit upper-byte tag of a value (R117). -/
def tagOf (v : Word) : Nat :=
  if v = zext 8 v then 3 else if v = zext 16 v then 2 else if v = zext 32 v then 1
  else if v = sext 8 v then 7 else if v = sext 16 v then 6 else if v = sext 32 v then 5 else 0

/-- Bytes moved for a register of that value (R117). -/
def tagBytes (v : Word) : Nat :=
  match tagOf v with
  | 3 | 7 => 1
  | 2 | 6 => 2
  | 1 | 5 => 4
  | _ => 8

/-- The context that issues. -/
def State.k (s : State) : Ctx := s.ctx s.cur.1 s.cur.2
def State.setK (s : State) (k : Ctx) : State := s.setCtx s.cur.1 s.cur.2 k
def State.updK (s : State) (f : Ctx → Ctx) : State := s.setK (f s.k)
/-- The core that issues. -/
def State.me (s : State) : Core := s.core s.cur.1
/-- A destination register of the issuing context written. -/
def State.wrK (s : State) (r : Reg) (v : Word) : State := s.updK fun k => wr k r v

/-- The core whose banks a context's local addresses name: its home while it runs away from home (R366). -/
def bankCore (s : State) (c x : Nat) : Nat :=
  match (s.ctx c x).away with
  | some h => h.1
  | none => c

/-- Supervisor code: the context of the domain's supervisor actor (R41). DESIGN CHOICE (log 66): an instruction that a DCTL_STEP issues is
code of its context, at that context's privilege, not code that the debugger issues. -/
def isSuper (s : State) (k : Ctx) : Bool :=
  match k.work with
  | some w => match w.actor with
    | some a => (s.dom? w.dom).isSome && a == (s.dom w.dom).super
    | none => false
  | none => false

/-- Domain and GTID of the work of a context. -/
def domOf (k : Ctx) : Nat := match k.work with | some w => w.dom | none => 0
def gtidOf (k : Ctx) : Word := match k.work with | some w => w.gtid | none => 0

/-- A pending move added unless it already stands among them. -/
def State.pushOnce (s : State) (e : Event) : State := if s.events.any (· == e) then s else s.push e

/-! Counters, meters, traces. -/

/-- An event of R380 counted in the core's PMCs. -/
def countEv (s : State) (c x ev n : Nat) : State :=
  let k := s.core c
  if field k.pmcsel 37 37 = 1 ∨ (field k.pmcsel 36 36 = 1 ∧ field k.pmcsel 35 32 ≠ x) ∨ n = 0 then s else
  let hit := (upFrom 0 4).filter fun i => field k.pmcsel (8 * i + 7) (8 * i) == ev
  if hit.isEmpty then s else
  s.setCore c { k with pmc := hit.foldl (fun p i => Tbl.put p i (Tbl.read p i 0 + BitVec.ofNat 64 n)) k.pmc }

/-- Energy units of 1 uJ in a meter of 2^-16 pJ (R343, R393). -/
def euOf (m : Nat) : Nat := m / 65536000000

/-- Energy added to a launch's meter, 48 bits of EU; the move that marks a spent budget is pushed when it is reached (R343). -/
def charge (s : State) (g weight n : Nat) : State :=
  match s.dom? g with
  | none => s
  | some d =>
    let m := d.meter + Tbl.read s.weights weight 0 * n
    let s := s.updDom g fun d => { d with meter := m }
    match d.energy with
    | some e => if ¬ d.spent ∧ euOf d.meter < e ∧ e ≤ euOf m then s.push (.energyBudgetSpent g) else s
    | none => s

/-- The class at which a launch runs (R343): 7 once its budget is spent, but P0 stays at 0. -/
def runClass (d : Dom) : Nat := if d.cls = 0 then 0 else if d.spent then 7 else d.cls

/-- An event counted for EVWAIT, saturating at 255 (R295). -/
def bump (s : State) (c x : Nat) : State :=
  { s.updCtx c x (fun k => { k with events := min 255 (k.events + 1) }) with
    stalled := s.stalled.filter fun p => p != (c, x) }

/-- The same for the context whose home context `x` of core `c` is and whose home `mine` admits, wherever it stands: there, in a save
slot, or away from home (R295, R365, R366). -/
def bumpHome (s : State) (c x : Nat) (mine : Option (Nat × Option Nat) → Bool) : State :=
  match (s.die (dieOf c)).slots.find? fun v => v.2.homeCore == c && v.2.homeCtx == x && mine v.2.ctx.home with
  | some v => s.updDie (dieOf c) fun d =>
      { d with slots := Tbl.put d.slots v.1 { v.2 with ctx := { v.2.ctx with events := min 255 (v.2.ctx.events + 1) } } }
  | none =>
    match s.cores.findSome? fun e => (e.2.ctxs.find? fun k => k.2.away == some (c, x) && mine k.2.home).map fun k => (e.1, k.1) with
    | some h => bump s h.1 h.2
    | none => if mine (s.ctx c x).home then bump s c x else s

/-- An acquire or a release counted in the region number (R216). -/
def region (k : Ctx) : Ctx := { k with region := k.region + 1 }

/-- The acquire of an instruction that observes a guard resolved by a COMPACT (R129). -/
def observed (k : Ctx) (qs : List QIx) : Bool := qs.any fun q => k.compacted.any (· == q.toNat)
def observe (k : Ctx) (qs : List QIx) : Ctx := if observed k qs then region k else k

/-! Operations in flight. -/

/-- A context's outstanding operations, those kept for a resume included (R163, R195). -/
def opsOf (s : State) (c x : Nat) : List Op := ((s.core c).ops.filter fun o => o.ctx == x) ++ (s.ctx c x).kept
/-- The context number of an operation whose firing was restarted or aborted: it ends without a context (R105). -/
def orphan : Nat := 240

/-- The context that an operation belongs to: one of the core, or a firing saved in a slot of its die, whose operations
carry the slot's number plus one above bit 7 (R365). -/
def opCtx (s : State) (c : Nat) (o : Op) : Ctx :=
  if o.ctx < 256 then s.ctx c o.ctx
  else match Tbl.find (s.die (dieOf c)).slots (o.ctx / 256 - 1) with
    | some v => v.ctx
    | none => {}
/-- The operations of an operation's own context. -/
def mates (s : State) (c : Nat) (o : Op) : List Op := ((s.core c).ops.filter fun q => q.ctx == o.ctx) ++ (opCtx s c o).kept
/-- The context of a number as an operation carries it, changed. -/
def updCtxN (s : State) (c x : Nat) (f : Ctx → Ctx) : State :=
  if x = orphan then s
  else if x < 256 then s.updCtx c x f
  else s.updDie (dieOf c) fun d =>
    match Tbl.find d.slots (x / 256 - 1) with
    | some v => { d with slots := Tbl.put d.slots (x / 256 - 1) { v with ctx := f v.ctx } }
    | none => d
def updOpCtx (s : State) (c : Nat) (o : Op) (f : Ctx → Ctx) : State := updCtxN s c o.ctx f

/-- A value in the digest of a replayed context (R385). -/
def digest (s : State) (g key : Nat) (v : Word) : State :=
  if s.replay.rstat = 2 ∧ s.replay.gtb = some g then
    { s with replay := { s.replay with digests := Tbl.put s.replay.digests key (Config.digestStep (Tbl.read s.replay.digests key 0) v) } }
  else s

/-- Home core * 16 + home context of a context, and of an operation's. -/
def homeKey (s : State) (c x : Nat) : Nat := match (s.ctx c x).away with | some h => h.1 * 16 + h.2 | none => c * 16 + x
def homeKeyOp (s : State) (c : Nat) (o : Op) : Nat :=
  if o.ctx < 256 then homeKey s c o.ctx
  else match Tbl.find (s.die (dieOf c)).slots (o.ctx / 256 - 1) with
    | some v => v.homeCore * 16 + v.homeCtx
    | none => 0

def opById (s : State) (c id : Nat) : Option Op := (s.core c).ops.find? fun o => o.id == id
/-- An operation leaves the table; what it still had waiting at the hub goes with it. -/
def dropOp (s : State) (c id : Nat) : State :=
  { s.updCore c (fun k => { k with ops := k.ops.filter fun o => o.id != id }) with
    awaiting := s.awaiting.filter fun a => !(a.core == c && a.op == id) }
def updOp (s : State) (c id : Nat) (f : Op → Op) : State :=
  s.updCore c fun k => { k with ops := k.ops.map fun o => if o.id = id then f o else o }
/-- A new operation of the issuing context. -/
def mkOp (s : State) (id : Nat) (ea : Word) (t : Option Target) (body : Body) : Op :=
  { id := id, ctx := s.cur.2, gtid := gtidOf s.k, dom := domOf s.k, user := !isSuper s s.k,
    bank := bankCore s s.cur.1 s.cur.2, pc := s.k.pc, addr := ea, target := t, body := body }
def addOp (s : State) (c : Nat) (o : Op) : State := s.updCore c fun k => { k with ops := k.ops ++ [o] }

/-- VRED to a register or VCOUNT writes the register that SB names (R173, R175). -/
def vecReg (c : VecCmd) : Option Reg :=
  match c.fn with
  | .vcount => some c.v.sb
  | .vred => if redToReg c.v then some c.v.sb else none
  | _ => none

/-- The register that an operation's reply will write (R84, R93, R162, R236, R277). -/
def destOf (o : Op) : Option Reg :=
  if o.ended || o.status == 2 then none else
  match o.body with
  | .load _ _ d _ _ => some d
  | .amo _ m _ _ _ => some m.d
  | .copy c => some c.dest
  | .vec c => vecReg c
  | .exch _ d _ _ => some d
  | .config _ _ _ _ d => some d
  | _ => none

/-- Whether an outstanding reply will write the register. -/
def busyReg (ops : List Op) (r : Reg) : Bool := r != 0 && ops.any fun o => destOf o == some r

/-- A register of the a-, l- or o-set with a reply outstanding: CALL and RET read and write those sets. DEDUCED: log 15. -/
def busyWindow (ops : List Op) : Bool :=
  ops.any fun o => match destOf o with | some r => 8 ≤ r.toNat | none => false

def isLoad (o : Op) : Bool := match o.body with | .load .. => true | _ => false
def isAmo (o : Op) : Bool := match o.body with | .amo .. => true | _ => false
def isStore (o : Op) : Bool := match o.body with | .store .. => true | _ => false
def isVec (o : Op) : Bool := match o.body with | .vec _ => true | _ => false
def isMat (o : Op) : Bool := match o.body with | .mat _ => true | _ => false
def isCopy (o : Op) : Bool := match o.body with | .copy _ => true | _ => false
def isExch (o : Op) : Bool := match o.body with | .exch .. => true | _ => false
def isEngine (o : Op) : Bool := isCopy o || isVec o || isMat o

/-- Still to be performed or ended. -/
def live (o : Op) : Bool := o.status == 0 && !o.ended

/-! Guards of accepted commands (R128). -/

/-- What a guard's value makes of a command that waits on it. -/
def takeGuard (q : QIx) (v : Bool) (g : Guarded) : Guarded :=
  if g.taken = .waiting ∧ g.gd.gq = q then { g with taken := if v != g.gd.gn then .run else .discard } else g

def onGuarded (f : Guarded → Guarded) (o : Op) : Op :=
  { o with body := match o.body with
      | .copy c => .copy { c with guarded := f c.guarded }
      | .vec c => .vec { c with guarded := f c.guarded }
      | .mat c => .mat { c with guarded := f c.guarded }
      | .exch r d g l => .exch r d (f g) l
      | b => b }

def guardedOf (o : Op) : Guarded :=
  match o.body with
  | .copy c => c.guarded
  | .vec c => c.guarded
  | .mat c => c.guarded
  | .exch _ _ g _ => g
  | _ => {}

/-- The moves by which a core's engines look at their queues again. -/
def wakeEngines (s : State) (c : Nat) : State :=
  [Event.copyQueueRelease c, .vectorBeat c, .matrixSelect (octetOf c), .exchangeStart c].foldl State.pushOnce s

/-- The first value to which a guard resolves is taken by every accepted command of the context that waits on it (R128), those
kept for a parked or a saved firing among them. -/
def takeGuards (s : State) (c x : Nat) (q : QIx) (v : Bool) : State :=
  let waits := fun (o : Op) => o.ctx == x && (guardedOf o).taken == .waiting && (guardedOf o).gd.gq == q
  let s := updCtxN s c x fun k => { k with kept := k.kept.map (onGuarded (takeGuard q v)) }
  if (s.core c).ops.any waits then
    wakeEngines (s.updCore c fun k => { k with
      ops := k.ops.map fun o => if o.ctx = x then onGuarded (takeGuard q v) o else o }) c
  else s

/-- A guard of the issuing context written, and taken by the commands that wait on it. -/
def State.setG (s : State) (q : QIx) (v : Option Bool) : State :=
  let s := s.updK fun k => setGuard k q v
  match v with
  | some b => if q = 0 then s else takeGuards s s.cur.1 s.cur.2 q b
  | none => s

/-- A guard prefix as a command takes it at acceptance (R128). -/
def guardedAt (k : Ctx) (g : Gd) : Guarded :=
  ⟨g, if g.ge then (match guardOf k g.gq with
    | none => .waiting
    | some b => if b != g.gn then .run else .discard) else .run⟩

/-- Whether an operation is performed at a scope. -/
def doneAt (o : Op) (sc : Scope) : Bool :=
  match o.done with
  | some d => scopeNum sc ≤ scopeNum d
  | none => false

/-- An outstanding acquire of the context: later accesses and commands wait for it (R200). -/
def acqPending (ops : List Op) : Bool :=
  ops.any fun o => live o && match o.body with
    | .load _ _ _ (some _) _ => true
    | .amo _ m _ _ _ => m.ord == .acq || m.ord == .acqrel
    | _ => false

/-- What a release at a scope waits for: every earlier load bound, store and AMO performed at the scope, and every
copy-engine, vector and MAT command ended with its writes performed there, those of a failed one too (R96, R162, R193, R200, R213). -/
def releaseReady (ops : List Op) (before : Nat) (sc : Scope) : Bool :=
  ops.all fun o => o.id ≥ before || (o.status != 0 && !isEngine o) ||
    match o.body with
    | .exch .. => true
    | .load .. => false
    | .amo .. => o.ended && doneAt o sc
    | .config .. => true
    | _ => doneAt o sc

/-! How an instruction ends. -/

/-- What issuing an instruction comes to. -/
inductive Res where
  /-- it retires and the PC advances -/
  | ret (s : State)
  /-- it retires to a target: a taken transfer (R70) -/
  | goto (s : State) (t : Nat)
  /-- it waits at issue and is issued afresh (R364) -/
  | wait (s : State)
  /-- a precise fault: it does not retire (R357) -/
  | fault (p : Stop) (s : State)
  /-- the instruction has itself set what follows -/
  | raw (s : State)

/-- The fetch buffer dropped (R70). -/
def dropFetch (s : State) (c : Nat) : State := s.updCore c fun k => { k with fetch := none }

/-- The PC after an instruction of `len` bytes, finishing LOOP slots (R8, R292, R294); a replayed access goes back to where the firing
had stopped (R362). -/
def advance (k : Ctx) (len : Nat) : Ctx :=
  match k.back, k.loop with
  | (p, l) :: rest, _ => { k with pc := p, loop := l, back := rest }
  | [], none => { k with pc := k.pc + len }
  | [], some l =>
    if l.slot ≤ 1 then { k with pc := k.pc + len, loop := some { l with slot := l.slot + 1 } }
    else { k with pc := if l.taken then l.target else k.pc + len, loop := none }

/-- Whether finishing this instruction takes a LOOP's branch, which drops the fetch buffer (R70). -/
def loopTakes (k : Ctx) : Bool :=
  match k.loop with
  | none => false
  | some l => l.slot == 2 && l.taken

/-! Notifications to the host (R390). -/

def hostAddr (off : Nat) : Nat := 8 * 2 ^ 52 + off

/-- Records in the notification ring. -/
def ringRoom (s : State) : Bool := s.ntail - s.nhead < s.nsize.toNat

/-- A record for the host: held in order until it is written to the ring (R390). -/
def notifyRec (s : State) (r : List Byte) : State :=
  { s with nheld := s.nheld ++ [r] }.pushOnce (.notificationDrain s.nhead)

/-- The bytes of a supervisor message. -/
def smsgBytes (m : SMsg) : List Byte := wordLE m.d0 ++ wordLE m.d1 ++ wordLE m.d2 ++ wordLE m.d3

/-- A notification record of a kind (R390). -/
def notify (s : State) (kind gtb : Nat) (detail : Word) (m : Option SMsg) : State :=
  notifyRec s (BitVec.ofNat 8 kind :: natLE 3 0 ++ natLE 2 gtb ++ natLE 2 0 ++ natLE 8 s.time ++ wordLE detail
    ++ natLE 8 0 ++ (match m with | some m => smsgBytes m | none => natLE 32 0))

/-! Supervisor messages and parking (R357-R359, R363). -/

/-- Double word 0 of a message: CORE, PC, CTXN, KIND, CAUSE (R358). -/
def smsgHead (c x pc kind cause : Nat) : Word :=
  BitVec.ofNat 64 (c * 2 ^ 34 + pc * 2 ^ 16 + x * 4096 + kind * 256 + cause)

/-- A message on its way to a domain's supervisor (R359). -/
def toSuper (s : State) (g : Nat) (m : SMsg) : State :=
  (s.updDom g fun d => { d with waitMsgs := d.waitMsgs ++ [m] }).push (.supervisorMessage g)

/-- ESTAT at a stop: ENG, the LOOP slot state, PARK, INH kept (R294, R353). -/
def estatAt (k : Ctx) (eng park : Bool) : Word :=
  let l := match k.loop with
    | some l => l.slot * 4 + l.target * 16 + bitN l.taken * 2 ^ 22
    | none => 0
  BitVec.ofNat 64 (bitN eng * 2 ^ 23 + l + bitN park * 2 + field k.estat 0 0)

/-- DETAIL of a park: EADDR where the cause sets it, REIX for FPX (R358). -/
def detailOf (p : Stop) (reix : Nat) : Word :=
  if p.cause = .fpx then BitVec.ofNat 64 reix else p.eaddr

/-- Who is told of a park: the host of a supervisor's, whose domain freezes (R363), else the supervisor, but for a fault that is already listed. -/
def parkTold (s : State) (g : Nat) (m : SMsg) (sup joined : Bool) : State :=
  if sup then
    let s := (notify s 4 g 0 (some m)).updDom g fun d => { d with frozen := true, hostFreeze := !d.frozen }
    if (s.dom g).pkgs.isEmpty then s else s.pushOnce (.supervisorMessage g)
  else if joined then s else toSuper s g m

/-- A firing parks (R357): its stop is described in its CSRs and its supervisor is told once; a supervisor's own park
goes to the host and freezes the domain (R363). An XLATE joins or opens its page's entry (R58). -/
def parkAt (s : State) (c x : Nat) (kind : ParkKind) (p : Stop) (epc : Nat) (eng : Bool) (reix : Nat) : State :=
  let k := s.ctx c x
  let g := domOf k
  let joined := match p.page with
    | some pg => s.faults.any fun f => f.dom == g && f.page == pg
    | none => false
  let s := s.setCtx c x
    { k with status := .parked, park := some kind, parkPage := p.page, estat := estatAt k eng true,
             epc := BitVec.ofNat 64 epc, ecause := BitVec.ofNat 64 p.cause.code, eaddr := p.eaddr,
             einfo := p.einfo, reix := BitVec.ofNat 64 reix }
  let s := match p.page with
    | some pg => if joined then s else { s with faults := s.faults ++ [⟨g, pg⟩] }
    | none => s
  let m : SMsg := ⟨smsgHead c x epc 0 p.cause.code, gtidOf k, detailOf p reix, p.einfo⟩
  parkTold s g m (isSuper s k) joined

/-- An in-core trap taken: EPC, ECAUSE, EINFO, INH, and the handler at TVEC.OFF*4 (R354); it stands in no LOOP slot (R293, R353). -/
def enterHandler (s : State) (c x : Nat) (cause : Cause) (ret : Nat) (info : Word) : State :=
  dropFetch (s.updCtx c x fun k =>
    { k with epc := BitVec.ofNat 64 ret, ecause := BitVec.ofNat 64 cause.code, einfo := info,
             estat := setField (setField k.estat 22 2 0) 0 0 1, pc := field k.tvec 17 2 * 4, loop := none }) c

/-- Whether an in-core handler can run (R354). -/
def handlerReady (k : Ctx) : Bool := field k.tvec 17 2 != 0 && field k.estat 0 0 == 0

/-- The return from an in-core handler: the PC and any remaining LOOP slots from EPC and ESTAT (R356); bits [1:0] of a PC are
zero (R8). -/
def leaveHandler (s : State) (c x : Nat) : State :=
  dropFetch (s.updCtx c x fun k =>
    { k with estat := setField (setField k.estat 0 0 0) 3 2 0, pc := field k.epc 17 2 * 4,
             loop := if field k.estat 3 2 = 0 then none
               else some ⟨field k.estat 3 2, field k.estat 22 22 == 1, field k.estat 21 6 * 4⟩ }) c

/-- After an issue: a context that stepped, or was asked to, halts for the debugger (R374, R376). -/
def afterIssue (s : State) (c x : Nat) : State :=
  s.updCtx c x fun k => { k with oneDefault := false, xwait := none, first := false, pass := false, guardWait := false, stepping := false, dhalt := k.dhalt || k.stepping }

/-- A walk that ends in XLATE on a new page holds its access while the 256 entries of the fault table are in use (R58). -/
def faultsFull (s : State) (g : Nat) (p : Stop) : Bool :=
  match p.page with
  | some pg => s.faults.length ≥ 256 && !s.faults.any fun f => f.dom == g && f.page == pg
  | none => false

/-- The end of an issued instruction of `len` bytes whose destination register, if any, is `d`. -/
def finish (len : Nat) (d : Option Reg) (r : Res) : State :=
  match r with
  | .ret s =>
    let (c, x) := s.cur
    let s := if loopTakes s.k then dropFetch s c else s
    let s := charge s (domOf s.k) 0 1
    afterIssue (countEv (s.updK fun k => advance k len) c x 2 1) c x
  | .goto s t =>
    let (c, x) := s.cur
    let s := charge (dropFetch s c) (domOf s.k) 0 1
    afterIssue (countEv (s.updK fun k => { k with pc := t, loop := none, back := k.back.drop 1 }) c x 2 1) c x
  | .wait s =>
    let (c, x) := s.cur
    let s := s.updK fun k => if k.stepping then { k with stepping := false, dhalt := true } else k
    let d := s.dom (domOf s.k)
    -- a freeze that drains halts what waits (R367)
    if (d.draining || d.hostFreeze) && !isSuper s s.k then
      let s := s.updK fun k => { k with frozenHalt := true }
      { s with stalled := [] }
    else { s with stalled := s.stalled ++ [(c, x)] }
  | .fault p s =>
    let (c, x) := s.cur
    if faultsFull s (domOf s.k) p then { s with stalled := s.stalled ++ [(c, x)] } else
    let kind := if p.cause = .fpx then .fpxScalar d len else .precise d len
    parkAt (s.updK fun k => { k with stepping := false, oneDefault := false }) c x kind p s.k.pc false 0
  | .raw s => s

/-- The acquires of an instruction that reads registers holding replies (R93, R202). -/
def readReplies (k : Ctx) (srcs : List Reg) : Ctx :=
  if srcs.any fun r => k.replies.any (· == r.toNat) then region k else k

/-- The register bytes that an instruction moves: its sources as it read them, its destination as it leaves it (R117). -/
def bytesMoved (s : State) (srcs : List Reg) (d : Option Reg) (t : State) : Nat :=
  let one := fun (k : Ctx) (r : Reg) => if r = 0 then 0 else tagBytes (rd k r)
  (srcs.map (one s.k)).foldl (· + ·) 0 + match d with
    | some r => if busyReg (opsOf t t.cur.1 t.cur.2) r then 0 else one t.k r
    | none => 0

/-- What issuing adds to a body that began at `s`: the register bytes moved are charged (R117, R393), and an instruction that waits or
faults has performed no acquire and no release (R41, R216, R364). -/
def atIssue (s : State) (srcs : List Reg) (d : Option Reg) (r : Res) : Res :=
  let same := fun (t : State) => t.updK fun k => { k with region := s.k.region }
  match r with
  | .ret t => .ret (charge t (domOf s.k) 1 (bytesMoved s srcs d t))
  | .goto t p => .goto (charge t (domOf s.k) 1 (bytesMoved s srcs d t)) p
  | .wait t => .wait (same t)
  | .fault p t => .fault p (same t)
  | .raw t => .raw t

/-- A wait in the middle of an instruction: what it has performed so far stays performed, its release too. -/
def waitOn (s : State) : Res := .raw (finish 0 none (.wait s))

/-- Issue: wait while a source or the destination has a reply outstanding (R84, R93), then run the body. -/
def issue (len : Nat) (d : Option Reg) (srcs : List Reg) (body : State → Res) (s : State) : State :=
  if (d.toList ++ srcs).any (busyReg (opsOf s s.cur.1 s.cur.2)) then finish len d (.wait s)
  else finish len d (atIssue s srcs d (body (s.updK fun k => readReplies k srcs)))

/-- An instruction that raises ILL, PRIV or ABSENT with word 0 in EINFO (R43). -/
def illegal (cause : Cause) (w0 : Nat) (s : State) : Res := .fault { cause := cause, einfo := BitVec.ofNat 64 w0 } s

/-- The first word of an instruction, for EINFO (R43). -/
def word0 (i : Instr) : Nat := (encode i).headD 0

/-- A supervisor function: PRIV in user code, before it looks at any register (R41, R42). -/
def privileged (i : Instr) (d : Option Reg) (srcs : List Reg) (body : State → Res) (s : State) : State :=
  if isSuper s s.k then issue 4 d srcs body s else finish 4 d (illegal .priv (word0 i) s)

/-- A fault with an address (R353). -/
def stopAt (c : Cause) (a : Word) : Stop := { cause := c, eaddr := a }
/-- A fault with a reason in EINFO[7:0]. -/
def stopWhy (c : Cause) (n : Nat) : Stop := { cause := c, einfo := BitVec.ofNat 64 n }

end Sys2Proof.Machine
end

