-- ==== Sys2Proof/Machine/Window.lean ====
section
/-!
DEFINITION. A core's control window (R66, R373-R377): the in-flight table, the error log, the injection register, DCTL,
the OVF bits and the context state blocks in the save-slot layout of R365, as bytes.
-/
set_option linter.all false
namespace Sys2Proof.Machine
open Sys2Proof

/-- KIND of an in-flight entry (R377). -/
def opKind (o : Op) : Nat :=
  match o.body with
  | .load .. => 1 | .store .. => 2 | .amo _ _ _ _ none => 3 | .amo _ _ _ _ (some _) => 4 | .copy _ => 5 | .vec _ => 6
  | .mat _ => 7 | .exch .. => 8 | .config .. => 8 | .range .. => 9

/-- DATA of an in-flight entry: store data, AMO operand (its sequence once a remote AMO has failed), or a reply. -/
def opData (o : Op) : Word :=
  match o.body with
  | .store _ d .. => d
  | .amo _ _ b _ q => match q with | some n => if o.status == 2 then BitVec.ofNat 64 n else b | none => b
  | _ => o.reply

/-- An in-flight entry as 32 bytes (R377). -/
def opBytes (o : Op) : List Byte :=
  wordLE o.addr ++ natLE 1 (opKind o) ++ natLE 1 (o.ctx % 16)
    ++ natLE 1 (match o.done with | some sc => scopeNum sc | none => 7) ++ natLE 1 o.status ++ natLE 1 o.cause.code
    ++ natLE 3 0 ++ wordLE o.gtid ++ wordLE (opData o)

/-- An error-log entry as 32 bytes (R386). -/
def logBytes (e : LogEntry) : List Byte :=
  wordLE e.addr ++ wordLE e.syn ++ natLE 1 e.ctx ++ natLE 1 e.typ ++ natLE 6 0 ++ natLE 8 e.count

/-- A log with one more occurrence: a repeat adds to COUNT; a full log counts the overflow in entry 31 (R386). -/
def logErr (l : List LogEntry) (e : LogEntry) : List LogEntry :=
  if l.any (fun f => f.addr == e.addr) then
    l.map fun f => if f.addr = e.addr then { f with count := min (f.count + 1) (2 ^ 64 - 1) } else f
  else if l.length < 31 then l ++ [e]
  else if l.length = 31 then l ++ [{ e with addr := 0, syn := 0 }]
  else l.take 31 ++ (l.drop 31).map fun f => { f with count := min (f.count + 1) (2 ^ 64 - 1) }

/-- The double words of a list with zeros up to `n`. -/
def padTo (n : Nat) (l : List Byte) : List Byte := (l ++ List.replicate (n - l.length) 0).take n

/-- A ring binding as the 16 bytes beside a handle's record in a state block: key, role and pending advance. DESIGN CHOICE: log 16. -/
def bindBytes (h : Handle) : List Byte :=
  match h.bind with
  | none => List.replicate 16 0
  | some b => natLE 4 (b.off + 2 ^ 18 * b.core) ++ natLE 4 (1 + 2 * bitN b.producer) ++ natLE 8 b.pending

/-- The windowed registers of a state block: live a, l and o, then resident frames oldest first (R365). -/
def windowWords (k : Ctx) : List Word :=
  (upFrom 8 24).map (fun r => Tbl.read k.regs r 0) ++ (k.frames.reverse.foldl (fun l f => l ++ f) [])

/-- Upper-byte tags, three bits per register, g0 first (R365). -/
def tagNat (ws : List Word) : Nat := ws.foldr (fun w n => tagOf w + 8 * n) 0

/-- Guards as two bits each from q1 (R365). -/
def guardBits (k : Ctx) : Nat :=
  (upFrom 1 7).foldr (fun q n => (match Tbl.find k.guards q with | none => 0 | some false => 2 | some true => 3) + 4 * n) 0

/-- A queued vector command as 200 bytes: its words of syntax and captured operands. DESIGN CHOICE: log 16. -/
def vecBytes (o : Op) (c : VecCmd) : List Byte :=
  padTo 200 (natLE 8 o.pc ++ natLE 8 c.pos ++ wordLE c.scalar ++ wordLE c.fpc ++ natLE 8 c.ver
    ++ [c.d, c.a, c.b, c.c].flatMap fun p => wordLE p.shape.d0 ++ wordLE p.shape.d1 ++ wordLE p.shape.d2 ++ wordLE p.shape.d3)

/-- ESTAT as the state block shows it: the slots of a LOOP that a halt stands between are recorded there (R294, R376). -/
def shownEstat (k : Ctx) : Word :=
  if k.loop.isSome then estatAt k (field k.estat 23 23 == 1) (field k.estat 1 1 == 1) else k.estat

/-- A context that is pre-empted at a LOOP slot reports the slot's PC and its state (R294). -/
def reportSlot (k : Ctx) : Ctx :=
  if k.loop.isSome then { k with epc := BitVec.ofNat 64 k.pc, estat := shownEstat k } else k

/-- A context's 2 KiB state image in the layout of R365. -/
def stateBlock (s : State) (c x : Nat) (k : Ctx) : List Byte :=
  let g := (upFrom 0 8).map fun r => Tbl.read k.regs r 0
  let vq := (opsOf s c x).filterMap fun o => match o.body with
    | .vec v => if live o then some (vecBytes o v) else none
    | _ => none
  let pend := (opsOf s c x).filterMap fun o => if isLoad o || isAmo o then
      match destOf o with
      | some d => some (natLE 1 d.toNat)
      | none => none
    else none
  padTo 8 (natLE 8 (k.pc + k.frames.length * 2 ^ 18 + k.events * 2 ^ 21 + k.matCls * 2 ^ 29 + k.region.toNat * 2 ^ 32))
    ++ wordLE (gtidOf k)
    ++ g.flatMap wordLE
    ++ padTo 576 ((windowWords k).flatMap wordLE)
    ++ natLE 32 (tagNat (g ++ windowWords k))
    ++ natLE 8 (guardBits k + k.depth * 2 ^ 16)
    ++ [k.fpc, k.fpf, BitVec.ofNat 64 k.nbv, k.tvec, k.epc, k.ecause, k.eaddr, k.einfo, shownEstat k, k.reix, k.wins].flatMap wordLE
    ++ (upFrom 0 4).flatMap (fun i => wordLE (Tbl.read k.wp i 0))
    ++ (upFrom 0 16).flatMap (fun i =>
        let h := Tbl.read k.handles i {}
        wordLE h.shape.d0 ++ wordLE h.shape.d1 ++ wordLE h.shape.d2 ++ wordLE h.shape.d3 ++ bindBytes h)
    ++ padTo 400 vq.flatten
    ++ padTo 64 (natLE 8 (match k.lvstep with | some v => v + 2 ^ 32 | none => 0) ++ pend.flatten)

/-- DCTL as read: DPEND, DHALT (R374). -/
def dctlOf (s : State) (c x : Nat) (k : Ctx) : Nat :=
  bitN k.dhalt + 2 * bitN (k.dhalt && (opsOf s c x).any fun o => live o && (isEngine o || isExch o))

/-- The bytes of the window's page that holds an offset, from the page's start (R373). -/
def windowPage (s : State) (c off : Nat) : Nat × List Byte :=
  let k := s.core c
  let o := off % 0x10000
  if o < 0x800 then (0, padTo 0x800 (k.ops.flatMap opBytes))
  else if o < 0xC00 then (0x800, padTo 0x400 (k.elog.flatMap logBytes))
  else if o < 0xC20 then (0xC00, wordLE k.inj.addr ++ wordLE k.inj.mask ++ natLE 16 k.inj.mode)
  else if 0x1000 ≤ o ∧ o < 0x1100 then
    (0x1000, (upFrom 0 16).flatMap fun x => natLE 16 (dctlOf s c x (s.ctx c x)))
  else if 0x2000 ≤ o ∧ o < 0x3000 then
    (o, (upFrom o 8).map fun i => Tbl.read k.sram i (Config.sramByte (4096 * k.sramGen + i - 0x2000)))
  else if 0x3000 ≤ o ∧ o < 0x3060 then
    (0x3000, (upFrom 0 96).map fun i => BitVec.ofNat 8
      ((upFrom 0 8).foldr (fun b n => bitN (Tbl.read k.dirl (8 * i + b) {}).ovf + 2 * n) 0))
  else if 0x8000 ≤ o then
    let x := (o - 0x8000) / 0x800
    let t := s.ctx c x
    (0x8000 + 0x800 * x, if t.dhalt ∨ t.status = .parked then stateBlock s c x t else [])
  else (o, [])

/-- Bytes of the control window; what no register occupies reads as zero (R66). -/
def windowBytes (s : State) (c off n : Nat) : List Byte :=
  let (base, bs) := windowPage s c off
  padTo n (bs.drop (off % 0x10000 - base))

end Sys2Proof.Machine
end

