-- ==== Sys2Proof/Machine/Memsys.lean ====
section
/-!
DEFINITION. The memory system: address forms and their resolution (R65), translation and permissions (R48-R58), the die
caches and the hub directory (R72-R74, R222-R224), local memory and its home directory (R67-R69, R78), the stash (R76),
poison (R49, R50) and race checking (R215-R218).
-/
set_option linter.all false
namespace Sys2Proof.Machine
open Sys2Proof

/-! Homes (R48). -/

/-- Frames that a home holds on the KRD-8192; none where the code is reserved. -/
def homeFrames (h : Nat) : Option Nat :=
  if h < 4 then some 0x80000 else if h = 4 ∨ h = 5 then some 0x400000 else if h = 8 then some (2 ^ 36) else none

/-- A home present in this package (R6, R48). -/
def homePresent (s : State) (h : Nat) : Bool :=
  if h < 4 then s.diePresent h else if h = 4 then s.memDiePresent 0 else if h = 5 then s.memDiePresent 1 else h == 8

def homeOf (addr : Nat) : Nat := addr / 2 ^ 52 % 16
/-- Own-package memory: cached peer lines lie above 2^64 (R72). -/
def isOwn (addr : Nat) : Bool := addr < 2 ^ 64
/-- The die in whose cache checked lines of a home are performed (R215). DESIGN CHOICE for homes that are no die's: log 17. -/
def homeDie (addr : Nat) : Nat := if homeOf addr < 4 then homeOf addr else 0

/-! Requests over Callyn (R245, R246, R252). -/

/-- Link groups in service. -/
def liveGroups (s : State) : List Nat := (upFrom 0 8).filter fun g => !s.linkDown.any (· == g)

/-- Why a request cannot leave: reason 3 outside a fabric, reason 2 with no link group. -/
def unreachable (s : State) : Option Nat :=
  if s.pkid = 0 then some 3 else if (liveGroups s).isEmpty then some 2 else none

/-- Beats of a packet (R246). -/
def beatsOf (len : Nat) : Nat := if len ≤ 32 then 1 else 1 + (len + 63) / 64

/-- The link group of a request, from peer and line (R245). DESIGN CHOICE of the hash: log 24. -/
def linkGroup (s : State) (dst faddr : Nat) : Nat :=
  let g := liveGroups s
  g.getD ((dst + faddr / 256) % g.length) 0

/-- A new request to a line waits until what was sent again to it after a link failure is answered (R261). -/
def lineResent (s : State) (dst faddr : Nat) : Bool :=
  s.sent.any fun r => r.resent && r.got.isNone && r.nack.isNone && r.pkt.dst == dst && r.pkt.faddr / 256 == faddr / 256

/-- The names under which the caches send: write-backs and fills of die `d`. -/
def wbCore (d : Nat) : Nat := 2 ^ 32 + d
def fillCore (d : Nat) : Nat := 2 ^ 33 + d

/-- The GTB of a domain in a packet's information, and read back. -/
def gtbInfo (g : Nat) : List Byte := natLE 2 g
def packetGtb (p : Packet) : Nat := leNat (p.info.take 2)

/-- A field of `n` bytes, little-endian. -/
def rf (r : List Byte) (at' n : Nat) : Nat := leNat ((r.drop at').take n)

/-- A request sent to a peer or a switch: it stands among the sent ones until it is answered (R246, R247). One that cannot leave fails with
its reason (R244, R261); one to a line that waits for what was sent again is held back (R261). `by'` names the context and the operation for
which a cache writes back. -/
def request (s : State) (op cont dst faddr len flg ord raddr : Nat) (payload : List Byte) (core id : Nat)
    (by' : Option (Nat × Nat × Nat) := none) (info : List Byte := []) : State :=
  let tag := s.nextId % 2 ^ 32
  let p : Packet := ⟨op, cont, s.pkid, dst, s.seqOut % 65536, faddr, len, flg, ord, tag, raddr, payload, info⟩
  let s := match opById s core id with
    | some o => charge (countEv s core o.ctx 0x10 (beatsOf len)) (domOf (s.ctx core o.ctx)) 10 (beatsOf len)
    | none => s
  let r : Sent := {
    tag := tag, pkt := p, core := core, op := id, held := lineResent s dst faddr, by' := by'
    first := s.time, last := s.time, lg := linkGroup s dst faddr }
  let t := { s with nextId := s.nextId + 1, seqOut := s.seqOut + 1, sent := s.sent ++ [r] }
  match unreachable s with
  | some n => t.push (.nack ⟨0x90, 0, dst, s.pkid, 0, 0, 1, 0, 0, tag, 0, [BitVec.ofNat 8 n], []⟩)
  | none => if r.held then t else t.emit (.packet p)

/-- Requests held back leave, in order, once nothing that was sent again to their line is unanswered (R261). -/
def releaseHeld (s : State) : State :=
  let go := fun (r : Sent) => r.held && !lineResent s r.pkt.dst r.pkt.faddr
  { s with
    sent := s.sent.map fun r => if go r then { r with held := false, first := s.time, last := s.time } else r
    out := s.out ++ (s.sent.filter go).map fun r => .packet r.pkt }

/-- FABNACK with its reason (R252). -/
def nackStop (ea : Word) (reason : Nat) : Stop := { cause := .fabnack, eaddr := ea, einfo := BitVec.ofNat 64 reason }

/-- Peer and fabric address of a cached peer line's address (R72). -/
def peerOf (addr : Nat) : Nat := addr / 2 ^ 64
def peerFaddr (addr : Nat) : Nat := addr % 2 ^ 64

/-! Hub directory and die caches. -/

def dirEntry (s : State) (line : Nat) : DirEntry := Tbl.read s.dir line {}
def setDir (s : State) (line : Nat) (e : DirEntry) : State :=
  { s with dir := if e.owner.isNone && e.sharers.isEmpty && e.owed.isEmpty then Tbl.del s.dir line else Tbl.put s.dir line e }

def poisoned (s : State) (addr : Nat) : Bool := s.poison.any fun p => p == addr / 64
def setPoison (s : State) (sec : Nat) (b : Bool) : State :=
  { s with poison := if b then (if s.poison.any (· == sec) then s.poison else s.poison ++ [sec])
      else s.poison.filter (· != sec) }

/-- A sector of a die's cache. -/
def sectorAt (s : State) (d sec : Nat) : Option Sector := Tbl.find (s.die d).sectors sec
def putSector (s : State) (d sec : Nat) (x : Sector) : State :=
  s.updDie d fun k => { k with sectors := Tbl.put k.sectors sec x }

/-- A new hub or memory log entry of uncorrected or poison type also tells the host (R386, R390). -/
def hubLog (s : State) (addr : Nat) (typ : Nat) : State :=
  let a := BitVec.ofNat 64 addr
  let s' := { s with hlogs := logErr s.hlogs ⟨a, 0, 0xFF, typ, 1⟩ }
  if s.hlogs.any (fun e => e.addr == a) || typ == 1 then s' else notify s' 6 0 a none

/-- A dirty sector written back to its home: an uncorrectable one sets poison there, a whole good one clears it (R49, R74). -/
def writeBack (s : State) (d sec : Nat) (by' : Option (Nat × Nat × Nat) := none) : State :=
  match sectorAt s d sec with
  | none => s
  | some x =>
    if ¬ x.dirty then s else
    if ¬ isOwn (sec * 64) then
      request (putSector s d sec { x with dirty := false }) 0x02 0x83 (peerOf (sec * 64)) (peerFaddr (sec * 64)) 64 4 0 0
        x.bytes (wbCore d) sec by'
    else
    let s := putSector s d sec { x with dirty := false, poison := x.poison || x.bad }
    let s := { s with mem := writeBytes s.mem (sec * 64) x.bytes }
    if x.bad then hubLog (setPoison s sec true) (sec * 64) 3 else setPoison s sec x.poison

/-- The four sectors of a line. -/
def lineSecs (line : Nat) : List Nat := upFrom (line * 4) 4

/-- A die-cache sector as its home would fill it (R72). -/
def homeSector (s : State) (sec : Nat) : Sector :=
  { bytes := readBytes s.mem (sec * 64) 64, poison := s.poison.any (· == sec) }

/-- The stash window of the core that holds a local offset (R76). -/
def windowAt (s : State) (c off : Nat) : Option Window :=
  (s.core c).windows.find? fun w => w.off ≤ off && off < w.off + w.len

/-- Stash copies of a line dropped from the cores that hold them, dirty or not: a dirty stash sector's bytes already stand
in the die cache or at home (log 18). -/
def dropStash (s : State) (cores : List Nat) (hit : StashSec → Bool) : State :=
  cores.foldl (fun s c => s.updCore c fun k => { k with stash := k.stash.filter fun e => !hit e.2 }) s

def stashCores (s : State) : List Nat := (s.cores.filter fun e => !e.2.stash.isEmpty).map (·.1)

/-- A stash sector of a device line. -/
def onLine (line : Nat) (e : StashSec) : Bool :=
  match e.target.place with
  | .dev a => a / 256 == line
  | _ => false

/-- The cores of a die that hold stash copies. -/
def stashOn (s : State) (d : Nat) : List Nat := (stashCores s).filter fun c => dieOf c == d

/-- A die gives up its copy of a line (R223): its sectors, its cores' stash copies (R73), and at the home die the race-check tags (R219). -/
def dropLine (s : State) (d line : Nat) : State :=
  let s := dropStash s (stashOn s d) (onLine line)
  let s := { s with tags := if d = homeDie (line * 256) then s.tags.filter (fun t => t.1 / 4 != line) else s.tags }
  s.updDie d fun k => { k with
    sectors := k.sectors.filter (fun e => e.1 / 4 != line), first := k.first.filter (· != line), lru := k.lru.filter (· != line) }

/-- The owner's dirty sectors written back, the owner becoming a sharer (R222). -/
def recallLine (s : State) (line : Nat) : State :=
  let e := dirEntry s line
  match e.owner with
  | none => s
  | some o =>
    let s := (lineSecs line).foldl (fun s sec => writeBack s o sec) s
    setDir s line { e with owner := none, sharers := if e.sharers.any (· == o) then e.sharers else e.sharers ++ [o] }

/-! Room in a die's cache (R72). -/

/-- A line leaves a die's cache: dirty sectors written back, every stash copy invalidated, the directory told (R72, R73, R222). -/
def evictLine (s : State) (d line : Nat) : State :=
  let s := (lineSecs line).foldl (fun s sec => writeBack s d sec) s
  let s := dropLine s d line
  let e := dirEntry s line
  setDir s line { e with owner := if e.owner = some d then none else e.owner, sharers := e.sharers.filter (· != d) }

/-- The victim of a set of 16 ways that is full: a line marked first to evict, else the one whose last use is the oldest (R72; the set: log
82). -/
def victim (s : State) (d line : Nat) : Option Nat :=
  let k := s.die d
  if k.lru.length < 16 ∨ k.lru.contains line then none else
  let set := k.lru.filter fun l => Config.cacheSet l == Config.cacheSet line
  if set.length < 16 then none else
  match k.first.find? set.contains with
  | some l => some l
  | none => set.head?

/-- A line allocated, or used again: the newest by last use. -/
def useLine (s : State) (d line : Nat) : State :=
  let s := match victim s d line with
    | some l => evictLine s d l
    | none => s
  s.updDie d fun k => { k with lru := k.lru.filter (· != line) ++ [line] }

/-- A write with G=1 waits on the line's acknowledgements (R223). -/
def lineHeld (s : State) (line : Nat) : Bool := s.awaiting.any fun a => a.line == line && a.g

/-- A die in reset keeps accesses to its near memory waiting; an isolated one loses them (R228, R230). -/
def homeBlocked (s : State) (addr : Nat) : Bool := homeOf addr < 4 && isOwn addr && (s.die (homeOf addr)).reset.isSome
def homeLost (s : State) (addr : Nat) : Bool :=
  homeOf addr < 4 && isOwn addr && (s.die (homeOf addr)).isolated && (s.die (homeOf addr)).reset.isNone
/-- A die whose spoke carries nothing any more (R227): what would be performed in its cache or its banks for another die is lost.
DESIGN CHOICE of the fate, DATALOST as for its near memory: log 67. -/
def dieCut (s : State) (d : Nat) : Bool := (s.die d).isolated && (s.die d).reset.isNone

/-- The outcome of a memory access. -/
inductive Got (α : Type) where
  | ok (v : α) (s : State)
  | wait (s : State)
  | bad (p : Stop) (s : State)

/-- A directory entry with a die among its sharers. -/
def sharedBy (e : DirEntry) (d : Nat) : DirEntry := { e with sharers := if e.sharers.any (· == d) then e.sharers else e.sharers ++ [d] }

/-- A die's copy of a sector, filled on a miss through the hub (R72, R223): the owner forwards the newest value. A peer line
that no die of the package owns is read from its package (R249). A miss waits while a G=1 write of the line waits. -/
def fillSector (s : State) (d sec : Nat) : Got Sector :=
  let line := sec / 4
  match sectorAt s d sec with
  | some x =>
    let s := useLine s d line
    -- an uncorrectable clean sector is discarded and refilled from its home (R74)
    if x.bad && !x.dirty then let y := homeSector s sec; .ok y (putSector s d sec y) else .ok x s
  | none =>
    if lineHeld s line ∨ homeBlocked s (sec * 64) then .wait s
    else if ¬ isOwn (sec * 64) then
      let copy := match (dirEntry s line).owner with | some o => sectorAt s o sec | none => none
      let s := recallLine s line
      match copy with
      | some x =>
        let y := { x with dirty := false }
        let s := useLine (setDir s line (sharedBy (dirEntry s line) d)) d line
        .ok y (putSector s d sec y)
      | none =>
        match s.sent.find? fun r => r.core == fillCore d && r.op == sec with
        | some r => match r.nack with
          | some n => .bad (nackStop 0 n) { s with sent := s.sent.filter fun q => q.tag != r.tag }
          | none => .wait s
        | none =>
          match unreachable s with
          | some n => .bad (nackStop 0 n) s
          | none => .wait (request s 0x01 0x80 (peerOf (sec * 64)) (peerFaddr (sec * 64)) 64 4 0 0 [] (fillCore d) sec)
    else if homeOf (sec * 64) = 8 ∧ Config.hostFails s.free = true then .bad (nackStop 0 4) { s with free := s.free + 1 }
    else
      let mine := (dirEntry s line).owner == some d
      let s := if homeOf (sec * 64) = 8 then { s with free := s.free + 1 } else s
      let s := if mine then s else recallLine s line
      let y := homeSector s sec
      let s := useLine (if mine then s else setDir s line (sharedBy (dirEntry s line) d)) d line
      .ok y (putSector s d sec y)

/-- Bytes of a die's accepted, not yet granted stores over a sector's own (R223); `who` (core * 16 + context) sees its own G=1 bytes too. -/
def overAccepted (s : State) (d who addr : Nat) (bs : List Byte) : List Byte :=
  (s.die d).accepted.foldl (fun bs a =>
    if a.g && a.who != who then bs else
    ((upFrom addr bs.length).zip bs).map fun (i, b) =>
      if a.addr ≤ i ∧ i < a.addr + a.bytes.length then a.bytes.getD (i - a.addr) b else b) bs

/-- A G=1 write that a die holds pending on the line, made by another context: a load waits for its grant (R223). -/
def pendingOf (s : State) (d who line : Nat) : Bool :=
  (s.die d).accepted.any (fun a => a.g && a.who != who && a.addr / 256 == line)
    || s.awaiting.any fun a => a.g && a.die == d && a.who != who && a.line == line

/-- A die's copy of the sector that holds an address, whatever poison it carries. A dirty sector with an uncorrectable error goes home
with poison set (R74). -/
def dieSector (s : State) (d who addr : Nat) : Got Sector :=
  if homeLost s addr ∨ dieCut s d = true then .bad (stopAt .datalost 0) s
  else if pendingOf s d who (addr / 256) then .wait s
  else
    match fillSector s d (addr / 64) with
    | .ok x s => if x.bad then .ok { x with poison := true } (if isOwn addr then writeBack s d (addr / 64) else s) else .ok x s
    | r => r

/-- A read of at most one sector by an agent of die `d` (R50, R72, R223). -/
def dieRead (s : State) (d who addr n : Nat) : Got (List Byte) :=
  match dieSector s d who addr with
  | .wait s => .wait s
  | .bad p s => .bad p s
  | .ok x s =>
    if x.poison then .bad (stopAt .datalost 0) s
    else .ok (overAccepted s d who addr ((x.bytes.drop (addr % 64)).take n)) s

/-- Bytes put into a sector's own. -/
def patch (old : List Byte) (at' : Nat) (new : List Byte) : List Byte :=
  old.take at' ++ new ++ old.drop (at' + new.length)

/-- A context that waits in JOINW on the line that was written is woken (R303). -/
def wakeJoins (s : State) (hit : Place → Bool) : State :=
  s.cores.foldl (fun s e => e.2.ctxs.foldl (fun s f =>
    match f.2.joinLine with
    | some p => if hit p then (s.updCtx e.1 f.1 fun k => { k with joinLine := none }).push (.joinwWake e.1 f.1) else s
    | none => s) s) s

/-- Ethernet producer words on the line are read again by their port (R264). -/
def wakePorts (s : State) (line : Nat) : State :=
  s.eth.foldl (fun s e =>
    let s := e.2.tx.foldl (fun s q => if q.2.en ∧ q.2.proda / 256 = line then s.push (.ethProducerUpdate e.1 q.1 false) else s) s
    e.2.rx.foldl (fun s q => if q.2.en ∧ q.2.proda / 256 = line then s.push (.ethProducerUpdate e.1 q.1 true) else s) s) s

/-- What every write of device memory brings: waiters on its line hear of it. -/
def wroteDev (s : State) (addr : Nat) : State :=
  let s := wakeJoins s fun p => match p with | .dev a => a / 256 == addr / 256 | _ => false
  wakePorts s (addr / 256)

/-- Number of bits set. -/
def popN : Nat → Nat → Nat
  | 0, _ => 0
  | n + 1, v => v % 2 + popN n (v / 2)

/-- A read by the hub: the newest value at the line's serialisation point (R229), with its poison. -/
def hubRead (s : State) (addr n : Nat) : List Byte :=
  (upFrom addr n).map fun a =>
    match (dirEntry s (a / 256)).owner with
    | some o => match sectorAt s o (a / 64) with
      | some x => x.bytes.getD (a % 64) 0
      | none => readByte s.mem a
    | none => readByte s.mem a

/-- A page captured before its first write in pass 1 of a replay (R385). -/
def capturePage (s : State) (addr : Nat) : State :=
  if s.replay.rstat = 2 ∧ s.replay.pass = 1 then
    if homeOf addr = 8 ∨ ¬ isOwn addr then { s with replay := { s.replay with uncapt := true } }
    else match Tbl.find s.replay.pages (addr / 65536) with
      | some _ => s
      | none => { s with replay := { s.replay with
          pages := Tbl.put s.replay.pages (addr / 65536) (hubRead s (addr / 65536 * 65536) 65536) } }
  else s

/-- The injection of R387 fires on the next write of its word: one bit is corrected and logged, two are uncorrectable. -/
def injectHub (s : State) (d addr : Nat) : State :=
  if s.hinj.mode = 1 ∧ s.hinj.addr.toNat / 8 = addr / 8 then
    let s := { s with hinj := { s.hinj with mode := 0 } }
    if popN 64 s.hinj.mask.toNat ≤ 1 then { s with hlogs := logErr s.hlogs ⟨s.hinj.addr, s.hinj.mask, 0xFF, 1, 1⟩ }
    else match sectorAt s d (addr / 64) with
      | some x => hubLog (putSector s d (addr / 64) { x with bad := true }) (addr / 64 * 64) 2
      | none => s
  else s

/-! Stash copies and writes (R73, R76-R78). -/

/-- The core and the sector of the window through which a write is made. -/
def viaKey (via : Option (Nat × Target)) : Option (Nat × Nat) :=
  match via with
  | some (c, t) => t.win.map fun o => (c, o / 64)
  | none => none

/-- Stash copies on a die invalidated but for the sector through which a write is made (R73, R76). -/
def dropCopies (s : State) (d : Nat) (hit : StashSec → Bool) (via : Option (Nat × Target)) : State :=
  (stashOn s d).foldl (fun s c => s.updCore c fun k =>
    { k with stash := k.stash.filter fun e => !hit e.2 || viaKey via == some (c, e.1) }) s

def onSector (sec : Nat) (e : StashSec) : Bool :=
  match e.target.place with
  | .dev a => a / 64 == sec
  | _ => false

/-- Bytes written into a present stash sector, which becomes dirty (R76); a whole sector clears the poison that came with it (R50). -/
def stashWrite (s : State) (via : Option (Nat × Target)) (bs : List Byte) : State :=
  match via with
  | some (c, t) => match t.win with
    | some off => s.updCore c fun k =>
      match Tbl.find k.stash (off / 64) with
      | some e => { k with
          mem := writeBytes k.mem off bs
          stash := Tbl.put k.stash (off / 64) { e with dirty := true, poison := e.poison && bs.length < 64 } }
      | none => k
    | none => s
  | none => s

/-- The context number of no context. -/
def nobody : Nat := 2 ^ 40

/-- The sector through which a write was made holds what its die now holds, dirty (R76). DESIGN CHOICE: log 18. While a G=1 write of the
line is pending on the die no stash holds it (R223). -/
def stashAgain (s : State) (d addr : Nat) (via : Option (Nat × Target)) : State :=
  match via with
  | some (c, t) => match t.win, sectorAt s d (addr / 64) with
    | some off, some x =>
      if (windowAt s c off).isNone ∨ t.chk = true ∨ pendingOf s d nobody (addr / 256) = true then s else
      let bs := overAccepted s d nobody (addr / 64 * 64) x.bytes
      s.updCore c fun k => { k with
        mem := writeBytes k.mem (off / 64 * 64) bs
        stash := Tbl.put k.stash (off / 64)
          { target := { t with place := .dev (addr / 64 * 64), win := none }, dirty := true, poison := x.poison } }
    | _, _ => s
  | none => s

/-- A write of at most one sector by die `d`, which owns its line (R222). A partial write of a poisoned or uncorrectable
sector is not performed (R50), and what is uncorrectable goes home with poison (R74); a whole-sector write clears both. Every stash copy
of the sector on the die is invalidated but the one through which the write is made (R76). -/
def dieWrite (s : State) (d addr : Nat) (bs : List Byte) (via : Option (Nat × Target) := none) : Got Unit :=
  if homeLost s addr ∨ dieCut s d = true then .bad (stopAt .datalost 0) s else
  match fillSector (capturePage s addr) d (addr / 64) with
  | .wait s => .wait s
  | .bad p s => .bad p s
  | .ok x s =>
    if (x.poison || x.bad) && bs.length < 64 then
      .bad (stopAt .datalost 0) (if x.bad && isOwn addr then writeBack s d (addr / 64) else s)
    else
      let s := putSector s d (addr / 64) { bytes := patch x.bytes (addr % 64) bs, dirty := true, bad := false, poison := false }
      let s := stashAgain (dropCopies s d (onSector (addr / 64)) via) d addr via
      .ok () (injectHub (wroteDev s addr) d addr)

/-- Every other holder is sent an invalidation (R223). -/
def invalidate (s : State) (line : Nat) (keep : Option Nat) : State :=
  let s := recallLine s line
  let e := dirEntry s line
  let others := e.sharers.filter fun h => some h != keep
  let s := setDir s line { e with sharers := e.sharers.filter fun h => some h == keep, owed := e.owed ++ others.map fun h => (h, 1, s.time) }
  s.pushAll ((others.map fun h => .invalidationAck h line) ++ (others.map fun h => .invalidationResend h line)
    ++ others.map fun h => .dieUnresponsive h)

/-- Ownership of a line granted to a die (R223). -/
def grant (s : State) (d line : Nat) : State :=
  let e := dirEntry s line
  setDir s line { e with owner := some d, sharers := [] }

/-- The last acknowledgement of a line has come: its G=0 writes are performed everywhere. Stores and ended operations leave the in-flight
table, failed ones and those with VISFAIL stay listed (R224, R377). A G=1 write goes on holding the line until it is granted (R222, R223). -/
def releaseAwaiting (s : State) (line : Nat) : State :=
  let gone := fun (a : Awaiting) => a.line == line && !a.g
  let mine := s.awaiting.filter gone
  let s := { s with awaiting := s.awaiting.filter fun a => !gone a }
  mine.foldl (fun s a => match opById s a.core a.op with
    | some o =>
      if s.awaiting.any (fun q => q.core == a.core && q.op == a.op) then s
      else if o.status = 0 ∧ (isStore o ∨ o.ended) then dropOp s a.core a.op
      else if o.status ≠ 0 then updOp s a.core a.op fun o => { o with done := some .sys } else s
    | none => s) s

/-- A die drops its stale copy of a line and acknowledges (R223). -/
def ackLine (s : State) (d line : Nat) : State :=
  let e := dirEntry s line
  if ¬ e.owed.any (fun h => h.1 == d) then s else
  let s := dropLine s d line
  let e := { e with owed := e.owed.filter (fun h => h.1 != d), sharers := e.sharers.filter (· != d) }
  let s := setDir s line e
  let s := if e.owed.isEmpty then releaseAwaiting s line else s
  wakeJoins s fun p => match p with | .dev a => a / 256 == line | _ => false

/-- Whether a die owns a line. -/
def ownsLine (s : State) (d line : Nat) : Bool := (dirEntry s line).owner == some d

/-- Whether a line still owes acknowledgements for the writes before. -/
def owes (s : State) (line : Nat) : Bool := !(dirEntry s line).owed.isEmpty

/-- A write by die `d` takes its line (R222-R225): at once for G=0, once nothing is owed for G=1, and behind another write with G=1. `c`, `id`
and `who` name the write, which stands among the awaiting ones while something is owed. -/
def takeNow (s : State) (d addr : Nat) (g : Bool) (c id who : Nat) : Got Unit :=
  let line := addr / 256
  let mine := fun (a : Awaiting) => a.line == line && a.core == c && a.op == id
  if s.awaiting.any (fun a => a.line == line && a.g && !mine a) ∨ homeBlocked s addr then .wait s
  else
    let s := if ownsLine s d line then s else invalidate (ackLine s d line) line (some d)
    let wait' := fun (g : Bool) (s : State) =>
      if s.awaiting.any (fun a => mine a && a.g == g) then s else { s with awaiting := s.awaiting ++ [⟨d, line, c, id, g, who⟩] }
    -- what a stash still holds of the line is not served while the write is pending
    if g && owes s line then .wait (dropCopies (wait' true s) d (onLine line) none)
    else
      let s := grant { s with awaiting := s.awaiting.filter fun a => !(mine a && a.g) } d line
      .ok () (if owes s line then wait' false s else s)

/-- The same behind the stores to the line that the die has accepted (R222, R223). -/
def takeLine (s : State) (d addr : Nat) (g : Bool) (c id who : Nat) : Got Unit :=
  let line := addr / 256
  let began := s.awaiting.any fun a => a.line == line && a.core == c && a.op == id && a.g
  if !began && (s.die d).accepted.any (fun a => a.addr / 256 == line) then .wait s else takeNow s d addr g c id who

/-- The write of an engine or hub agent on die `d` (R223). -/
def engineWrite (s : State) (d addr : Nat) (bs : List Byte) (g : Bool) (c id : Nat) (who : Nat := nobody)
    (via : Option (Nat × Target) := none) : Got Unit :=
  match takeLine s d addr g c id who with
  | .ok _ s => dieWrite s d addr bs via
  | r => r

/-- A G=0 write by an agent outside every die (R221, R223): home memory changes, and a die that has not been reached yet goes on serving
its old copy. -/
def hubWriteEarly (s : State) (addr : Nat) (bs : List Byte) : State :=
  let s := capturePage s addr
  let s := { s with mem := writeBytes s.mem addr bs }
  let s := if bs.length = 64 ∧ addr % 64 = 0 then setPoison s (addr / 64) false else s
  wroteDev s addr

/-- A write by an agent outside every die, the host's and the hub's (R229, R388): every copy gives way, then home memory
changes. -/
def hubWrite (s : State) (addr : Nat) (bs : List Byte) : State :=
  let line := addr / 256
  let s := capturePage s addr
  let s := recallLine s line
  let s := [0, 1, 2, 3].foldl (fun s d => dropLine s d line) s
  let s := setDir s line { dirEntry s line with owner := none, sharers := [] }
  let s := { s with mem := writeBytes s.mem addr bs }
  let s := if bs.length = 64 ∧ addr % 64 = 0 then setPoison s (addr / 64) false else s
  wroteDev s addr

def hubPoison (s : State) (addr n : Nat) : Bool :=
  (upFrom (addr / 64) ((addr + n - 1) / 64 + 1 - addr / 64)).any fun sec =>
    match (dirEntry s (sec / 4)).owner with
    | some o => match sectorAt s o sec with
      | some x => x.poison || x.bad
      | none => poisoned s (sec * 64)
    | none => poisoned s (sec * 64)

/-! Translation (R51-R58). -/

/-- Fields of a page-table entry (R51). -/
def ptePfn (e : Word) : Nat := field e 63 28
def pteHome (e : Word) : Nat := field e 23 20
def ptePeer (e : Word) : Nat := field e 19 8
def pteMode (e : Word) : Nat := field e 7 6
def pteBit (e : Word) (b : Nat) : Bool := e.getLsbD b

/-- check_pointer of R52. -/
def pointerOk (e : Word) : Bool := pteBit e 0 && field e 5 4 == 0 && field e 27 1 == 0

/-- check_leaf of R52, with R48 and R53. -/
def leafOk (s : State) (e : Word) (big : Bool) : Bool :=
  let peer := if ptePeer e = s.pkid then 0 else ptePeer e
  pteBit e 0 && field e 5 4 == (if big then 1 else 0) && (!big || ptePfn e % 0x2000 == 0) && !pteBit e 27
    && (!pteBit e 24 || s.rchkPresent)
    && (if ptePeer e = 0 then pteMode e == 0
        else if ptePeer e < 0xF00 then pteMode e != 0
        else pteMode e == 1 && !pteBit e 1 && pteBit e 2)
    && (match homeFrames (pteHome e) with
        | none => false
        | some f => ptePfn e + (if big then 0x2000 else 1)
            ≤ (if peer = 0 ∧ (pteHome e = 4 ∨ pteHome e = 5) ∧ ¬ s.diePresent 3 then 0x400000 else f))
    && (peer != 0 || homePresent s (pteHome e))

/-- One 8-byte table entry, read coherently at package scope (R52). DESIGN CHOICE (log 72): of a poisoned sector its bytes as they stand. -/
def readEntry (s : State) (addr : Nat) : Word := leWord (hubRead s addr 8)

/-- The walk of R52 from a root: the leaf, and whether it is a 512 MiB one; none is XLATE. -/
def walk (s : State) (root va : Nat) : Option (Word × Bool) :=
  let home := root / 2 ^ 52 % 16
  let base := home * 2 ^ 52
  let e3 := readEntry s (root + 8 * (va / 2 ^ 55 % 4))
  if ¬ pointerOk e3 then none else
  let e2 := readEntry s (base + ptePfn e3 * 0x10000 + 8 * (va / 2 ^ 42 % 8192))
  if ¬ pointerOk e2 then none else
  let e1 := readEntry s (base + ptePfn e2 * 0x10000 + 8 * (va / 2 ^ 29 % 8192))
  if pteBit e1 0 && field e1 5 4 == 1 then (if leafOk s e1 true then some (e1, true) else none) else
  if ¬ pointerOk e1 then none else
  let e0 := readEntry s (base + ptePfn e1 * 0x10000 + 8 * (va / 2 ^ 16 % 8192))
  if leafOk s e0 false then some (e0, false) else none

/-- Address of the tier-0 entry of a page, for the migration engine (R62); none for a 512 MiB leaf or an XLATE. -/
def leafAddr (s : State) (root va : Nat) : Option Nat :=
  let base := root / 2 ^ 52 % 16 * 2 ^ 52
  let e3 := readEntry s (root + 8 * (va / 2 ^ 55 % 4))
  let e2 := readEntry s (base + ptePfn e3 * 0x10000 + 8 * (va / 2 ^ 42 % 8192))
  let e1 := readEntry s (base + ptePfn e2 * 0x10000 + 8 * (va / 2 ^ 29 % 8192))
  match walk s root va with
  | some (_, false) => some (base + ptePfn e1 * 0x10000 + 8 * (va / 2 ^ 16 % 8192))
  | _ => none

/-- The TLB levels that serve a core (R56): micro, cluster, die. -/
def tlbInst (c level : Nat) : Nat := if level = 0 then c else if level = 1 then clusterOf c else dieOf c
def tlbCap (level : Nat) : Nat := if level = 0 then 16 else if level = 1 then 512 else 32768

def tlbHit (s : State) (c g va : Nat) : Option (Word × Bool) :=
  (s.tlb.find? fun t => t.dom == g && t.inst == tlbInst c t.level
    && (if t.big then t.page / 0x2000 == va / 2 ^ 29 else t.page == va / 2 ^ 16)).map fun t => (t.leaf, t.big)

/-- A leaf entered at every level that serves the core; a full level gives up its oldest entry. DESIGN CHOICE: log 19. -/
def tlbFill (s : State) (c g va : Nat) (leaf : Word) (big : Bool) : State :=
  [0, 1, 2].foldl (fun s l =>
    let mine := fun t : TlbEntry => t.level == l && t.inst == tlbInst c l
    let full := (s.tlb.filter mine).length ≥ tlbCap l
    let old := if full then s.tlb.eraseP mine else s.tlb
    { s with tlb := old ++ [⟨l, tlbInst c l, g, va / 2 ^ 16, leaf, big⟩] }) s

/-- A page has an open entry in the hub's fault table (R58). -/
def faulted (s : State) (g page : Nat) : Bool := s.faults.any fun f => f.dom == g && f.page == page

/-- A translation through the TLBs, walking on a miss (R52, R56). Every access to a page with an open fault-table entry joins it (R58). -/
def translate (s : State) (c x g va : Nat) : Option (Word × Bool) × State :=
  if faulted s g (va / 2 ^ 16) then (none, s) else
  match tlbHit s c g va with
  | some t => (some t, s)
  | none =>
    let s := countEv (countEv s c x 0x0D 1) c x 0x0E 1
    match walk s (s.dom g).root va with
    | some (e, big) => (some (e, big), tlbFill s c g va e big)
    | none => (none, s)

/-- Who makes an access: core and context, the core whose banks its local addresses name, privilege, domain, and what the
race checker records of it (R65, R217). -/
structure Who where
  core : Nat
  ctx : Nat
  bank : Nat
  user : Bool
  dom : Nat
  gtid : Word
  region : BitVec 32

def whoOf (s : State) (c x : Nat) : Who :=
  let k := s.ctx c x
  ⟨c, x, bankCore s c x, !isSuper s k, domOf k, gtidOf k, k.region⟩

def whoOp (s : State) (c : Nat) (o : Op) : Who := ⟨c, o.ctx % 16, o.bank, o.user, o.dom, o.gtid, (opCtx s c o).region⟩

/-- Core * 16 + context. -/
def Who.num (w : Who) : Nat := w.core * 16 + w.ctx

/-! Address forms (R65). -/

/-- What an address names before translation. -/
inductive Form where
  | virt (va : Nat)
  | loc (core off : Nat)
  | peer (pkid faddr : Nat)

/-- Core-space fabric address of a peer's core (R246). -/
def coreFaddr (x y off : Nat) : Nat := 2 ^ 62 + x * 2 ^ 43 + y * 2 ^ 37 + off

/-- R65 up to translation for core `c`, local addresses naming core `lc`. `user` code may not reach the control window. -/
def formOf (s : State) (c lc : Nat) (user reads : Bool) (ea : Word) : Except Stop Form :=
  let win := fun off : Nat => user && off ≥ 0x30000
  match field ea 63 62 with
  | 0 => if field ea 61 57 != 0 then .error (stopAt .xlate ea) else .ok (.virt (field ea 56 0))
  | 3 => if field ea 61 18 != 0 || win (field ea 17 0) then .error (stopAt .laddr ea) else .ok (.loc lc (field ea 17 0))
  | f =>
    if field ea 36 18 != 0 then .error (stopAt .laddr ea) else
    let off := field ea 17 0
    if f = 1 then
      let peer := if field ea 61 50 = s.pkid then 0 else field ea 61 50
      let x := field ea 49 43
      let y := field ea 42 37
      if peer = 0 && !s.coreExists x y then .error (stopAt .laddr ea)
      else if peer ≥ 0xF00 && reads then .error (stopAt .laddr ea)
      else if win off then .error (stopAt .laddr ea)
      else if peer = 0 then .ok (.loc (y * 128 + x) off) else .ok (.peer peer (coreFaddr x y off))
    else
      let dx := (sext 7 (BitVec.ofNat 64 (field ea 49 43))).toInt
      let dy := (sext 6 (BitVec.ofNat 64 (field ea 42 37))).toInt
      let x := (coreX c : Int) + dx
      let y := (coreY c : Int) + dy
      if field ea 61 50 != 0 || x < 0 || x > 127 || y < 0 || y > 63 then .error (stopAt .laddr ea)
      else if !s.coreExists x.toNat y.toNat || win off then .error (stopAt .laddr ea)
      else .ok (.loc (y.toNat * 128 + x.toNat) off)

/-- The checks of R54 on a leaf. -/
def permOk (e : Word) (user reads writes : Bool) : Bool :=
  (pteBit e 3 || !user) && (!reads || pteBit e 1) && (!writes || pteBit e 2)

/-- The target of a translated access (R51-R54). -/
def leafTarget (s : State) (e : Word) (big : Bool) (va : Nat) : Target :=
  let off := ptePfn e * 0x10000 + va % (if big then 2 ^ 29 else 2 ^ 16)
  let peer := if ptePeer e = s.pkid then 0 else ptePeer e
  { place := if peer = 0 then .dev (pteHome e * 2 ^ 52 + off)
             else if pteMode e = 2 then .dev (peer * 2 ^ 64 + pteHome e * 2 ^ 52 + off)
             else .peer peer (pteHome e * 2 ^ 52 + off),
    gdef := pteBit e 25, chk := pteBit e 24, mcnt := pteBit e 26 && !big, mode := pteMode e, page := va / 2 ^ 16 }

/-- A virtual address translated and checked. -/
def virtTarget (s : State) (w : Who) (reads writes : Bool) (ea : Word) (va : Nat) : Except Stop Target × State :=
  match translate s w.core w.ctx w.dom va with
  | (none, s) => (.error { cause := .xlate, eaddr := ea, page := some (va / 2 ^ 16) }, s)
  | (some (e, big), s) =>
    -- a read of a group (R235, R253)
    if reads && ptePeer e ≥ 0xF00 then (.error (stopAt .laddr ea), s)
    else if ¬ permOk e w.user reads writes then (.error (stopAt .perm ea), s) else (.ok (leafTarget s e big va), s)

/-- R65 with translation and R54: where an access lies, or why it may not. A local address inside a stash window is an
access to the window's source (R76). -/
def accessBy (s : State) (w : Who) (ea : Word) (reads writes : Bool) : Except Stop Target × State :=
  match formOf s w.core w.bank w.user reads ea with
  | .error p => (.error p, s)
  | .ok (.virt va) => virtTarget s w reads writes ea va
  | .ok (.peer p f) => (.ok { place := .peer p f }, s)
  | .ok (.loc t off) =>
    match if t = w.bank then windowAt s t off else none with
    | none => (.ok { place := .loc t off }, s)
    | some v =>
      let src := v.src + BitVec.ofNat 64 (off - v.off)
      match formOf s w.core w.bank w.user true src with
      | .error p => (.error { p with eaddr := ea }, s)
      | .ok (.virt va) =>
        match virtTarget s w reads writes ea va with
        | (.ok t, s) => match t.place with
          | .peer p _ => if p ≥ 0xF00 then (.error (stopAt .laddr ea), s) else (.ok { t with win := some off }, s)
          | _ => (.ok { t with win := some off }, s)
        | r => r
      | .ok (.peer p f) => (.ok { place := .peer p f, win := some off }, s)
      | .ok (.loc t off') => (.ok { place := .loc t off', win := some off }, s)

/-- The same for a context of a core. -/
def access (s : State) (c x : Nat) (ea : Word) (reads writes : Bool) : Except Stop Target × State :=
  accessBy s (whoOf s c x) ea reads writes

/-! Local memory (R67-R69, R78). -/

def bankEnd : Nat := 0x30000

/-- A field of a live ring as its record's bytes 16-31 hold it (R108). -/
def ringWords (r : LiveRing) : List Byte := natLE 4 r.fillc ++ natLE 4 r.freec ++ natLE 4 r.pidx ++ natLE 4 r.cidx

/-- The live values of bound rings over the bytes of their records (R108). -/
def overRings (s : State) (c off : Nat) (bs : List Byte) : List Byte :=
  (s.core c).rings.foldl (fun bs e =>
    ((upFrom off bs.length).zip bs).map fun (i, b) =>
      if e.1 + 16 ≤ i ∧ i < e.1 + 32 then (ringWords e.2).getD (i - e.1 - 16) b else b) bs

/-- The local-form address of an offset. -/
def localAddr (off : Nat) : Word := BitVec.ofNat 64 (0xC000000000000000 + off)

/-- An entry of a core's error log; a new one of uncorrected type also tells the host, with the address of form 01 (R386, R390). -/
def coreLog (s : State) (c : Nat) (e : LogEntry) : State :=
  let known := (s.core c).elog.any fun f => f.addr == e.addr
  let s := s.updCore c fun k => { k with elog := logErr k.elog e }
  if known || e.typ == 1 then s
  else notify s 6 0 (BitVec.ofNat 64 (2 ^ 62 + coreX c * 2 ^ 43 + coreY c * 2 ^ 37 + e.addr.toNat % 2 ^ 18)) none

/-- Single-bit errors that a read meets are corrected, written back and logged (R69). -/
def softRead (s : State) (c off n : Nat) : State :=
  let hit := fun (w : Nat × Word) => off / 8 ≤ w.1 && w.1 ≤ (off + n - 1) / 8
  let l := (s.core c).soft.filter hit
  if l.isEmpty then s else
  l.foldl (fun s w => coreLog s c ⟨localAddr (8 * w.1), w.2, 0xFF, 1, 1⟩)
    (s.updCore c fun k => { k with soft := k.soft.filter fun w => !hit w })

/-- A read of a core's bank; a word with a two-bit error raises DATALOST (R69). -/
def bankRead (s : State) (c off n : Nat) : Got (List Byte) :=
  if off ≥ bankEnd then .ok (windowBytes s c off n) s
  else if (s.core c).bad.any (fun w => off / 8 ≤ w && w ≤ (off + n - 1) / 8) then .bad (stopAt .datalost (localAddr off)) s
  else .ok (overRings s c off (readBytes (s.core c).mem off n)) (softRead s c off n)

/-- Stash sharers of a local line invalidated before a write to it, but for the sector through which it is made (R76, R78, R79). -/
def dropSharers (s : State) (c off : Nat) (via : Option (Nat × Target)) : State :=
  let line := off / 256
  let e := Tbl.read (s.core c).dirl line {}
  if e.ptrs.isEmpty && e.table.isEmpty then s else
  let mine := fun (h : Nat) => match viaKey via with | some v => h == v.1 | none => false
  let hit := fun (t : StashSec) => match t.target.place with | .loc h o => h == c && o / 256 == line | _ => false
  let s := dropStash s ((e.ptrs ++ e.table).filter fun h => !mine h) hit
  let s := match viaKey via with
    | some v => s.updCore v.1 fun k => { k with stash := k.stash.filter fun q => q.1 == v.2 ||
        !match q.2.target.place with | .loc h o => h == c && o / 64 == off / 64 | _ => false }
    | none => s
  s.updCore c fun k => { k with dirl := Tbl.put k.dirl line { e with ptrs := e.ptrs.filter mine, table := e.table.filter mine } }

/-- The injection of R387 at a core: one flipped bit waits for a read, two are uncorrectable (R69). -/
def injectLocal (s : State) (c off n : Nat) : State :=
  let i := (s.core c).inj
  let word := i.addr.toNat % 0x40000 / 8
  if i.mode = 1 ∧ off ≤ word * 8 + 7 ∧ word * 8 < off + n then
    let s := s.updCore c fun k => { k with inj := { i with mode := 0 } }
    if popN 64 i.mask.toNat = 0 then s
    else if popN 64 i.mask.toNat = 1 then s.updCore c fun k => { k with soft := k.soft ++ [(word, i.mask)] }
    else coreLog (s.updCore c fun k => { k with bad := k.bad ++ [word] }) c ⟨localAddr (8 * word), i.mask, 0xFF, 2, 1⟩
  else s

/-- A write of a core's bank: 8 whole bytes replace a bad word, fewer are not performed on one (R69); sharers give way
first (R78). While a line's OVF stands the write waits for the handler (R79). -/
def bankWrite (s : State) (c off : Nat) (bs : List Byte) (via : Option (Nat × Target) := none) : Got Unit :=
  let n := bs.length
  let whole := off % 8 = 0 ∧ n % 8 = 0
  if ¬ whole ∧ (s.core c).bad.any (fun w => off / 8 ≤ w && w ≤ (off + n - 1) / 8) then .bad (stopAt .datalost (localAddr off)) s
  else if (Tbl.read (s.core c).dirl (off / 256) {}).ovf then .wait (s.pushOnce (.directoryOvfWrite c (off / 256)))
  else
    let s := dropSharers s c off via
    let s := if whole then s else softRead s c off n
    let out := fun (w : Nat) => !(off / 8 ≤ w && w ≤ (off + n - 1) / 8)
    let s := s.updCore c fun k =>
      { k with mem := writeBytes k.mem off bs, bad := k.bad.filter out, soft := k.soft.filter fun w => out w.1 }
    let s := stashWrite (injectLocal s c off n) via bs
    .ok () (wakeJoins s fun p => match p with | .loc h o => h == c && o / 256 == off / 256 | _ => false)

/-- The 8-byte word of the control window as a narrower write finds it: what an earlier write has left on its way, else what it reads as;
write-one-to-clear bits as zero. -/
def windowWord (s : State) (c off : Nat) : Word :=
  let o := off % 0x10000
  let hit := fun (e : Event) => match e with
    | .contextStateWrite c' x f v => if c' = c ∧ 0x8000 + x * 0x800 + f = o then some v else none
    | .errorInjectWrite (.core c') a m d =>
      if c' ≠ c then none else if o = 0xC00 then some (BitVec.ofNat 64 a) else if o = 0xC08 then some m
      else if o = 0xC10 then some (zext 64 (d.setWidth 64)) else none
    | _ => none
  if 0x3000 ≤ o ∧ o < 0x3060 then 0 else
  (s.events.reverse.findSome? hit).getD (leWord (windowBytes s c off 8))

/-- The moves that a write of the control window starts (R66, R373-R375): injection, DCTL, OVF W1C and state blocks. The bytes of at most one
8-byte word are written; the SRAM is the firmware's and the debugger's to write (R373). -/
def windowWrite (s : State) (c off0 : Nat) (bs : List Byte) : State :=
  let off := off0 / 8 * 8
  let v := leWord (patch (wordLE (windowWord s c off)) (off0 % 8) bs)
  let o := off % 0x10000
  if 0xC00 ≤ o ∧ o < 0xC20 then
    let was := fun (n : Nat) => windowWord s c (off / 0x20 * 0x20 + n)
    let now := fun (n : Nat) => if o % 0x20 = n then v else was n
    if o = 0xC18 then s else s.push (.errorInjectWrite (.core c) (now 0).toNat (now 8) ((now 16).setWidth 8))
  else if 0x1000 ≤ o ∧ o < 0x1100 ∧ o % 16 = 0 then
    let x := (o - 0x1000) / 16
    s.pushAll ((if v.getLsbD 7 then [.dctlCancel c x] else []) ++ (if v.getLsbD 6 then [.dctlStep c x] else [])
      ++ (if v.getLsbD 5 then [.dctlResume c x] else []) ++ (if v.getLsbD 4 then [.dctlHaltreq c x] else []))
  else if 0x3000 ≤ o ∧ o < 0x3060 then
    let clear := fun (d : Tbl LocalDir) (b : Nat) =>
      let l := 8 * (o - 0x3000) + b
      match Tbl.find d l with
      | some e => if v.getLsbD b then Tbl.put d l { e with ovf := false } else d
      | none => d
    s.updCore c fun k => { k with dirl := (upFrom 0 64).foldl clear k.dirl }
  else if 0x8000 ≤ o then s.push (.contextStateWrite c ((o - 0x8000) / 0x800) ((o - 0x8000) % 0x800) v)
  else s

/-! Race checking (R215-R218). -/

def tagOpen (s : State) (t : Tag) : Bool :=
  let k := s.ctx t.core t.ctx
  k.region == t.region && gtidOf k == t.gtid && k.work.isSome

/-- EINFO of a RACE (R218). -/
def raceInfo (t : Tag) (writer : Bool) : Word :=
  BitVec.ofNat 64 (t.core + t.ctx * 8192 + bitN writer * 131072 + bitN t.atomic * 262144)

/-- The check of R217 on a sector: the conflicting party, or the tags with this access recorded. -/
def raceCheck (s : State) (sec : Nat) (who : Who) (writes atomic : Bool) (ea : Word) : Except Stop State :=
  if ¬ s.rchkEn then .ok s else
  let t := Tbl.read s.tags sec {}
  let clash := fun u : Tag => tagOpen s u && u.core != who.core && !(atomic && u.atomic)
  let mine : Tag := ⟨who.core, who.ctx, who.region, who.gtid, atomic⟩
  let rw := match t.writer with | some u => if clash u then some u else none | none => none
  match rw, (if writes then t.readers.find? clash else none) with
  | some u, _ => .error { cause := .race, eaddr := ea, einfo := raceInfo u true }
  | none, some u => .error { cause := .race, eaddr := ea, einfo := raceInfo u false }
  | none, none =>
    let t' := if writes then { t with writer := some mine } else { t with readers := (mine :: t.readers.filter fun u => !(u.core == mine.core && u.ctx == mine.ctx)).take 2 }
    .ok { s with tags := Tbl.put s.tags sec t' }

def countRace (s : State) : State := { s with races := min 0xFFFF (s.races + 1) }

/-! Migration counters (R61, R64). -/

/-- The counter of a domain's page for a die. -/
def migKey (g page d : Nat) : Nat := (g * 2 ^ 48 + page) * 4 + d

/-- A die's access that missed in its cache and reached the home: counted, and a move begun at the threshold; with an empty pool the
counter stays there (R61). -/
def countMiss (s : State) (d g : Nat) (t : Target) : State :=
  match t.place with
  | .dev a =>
    if t.mcnt ∧ t.mode = 0 ∧ s.migth ≠ 0 ∧ homeOf a ≠ d then
      let key := migKey g t.page d
      let old := Tbl.read s.migCount key 0
      let none' := (s.die d).pool.isEmpty
      let n := min (min 0xFFFF (old + 1)) (if none' then max old s.migth else 0xFFFF)
      let s := { s with migCount := Tbl.put s.migCount key n }
      if n ≥ s.migth ∧ none' = false then s.pushOnce (.migrationStart g (t.page * 65536) d) else s
    else s
  | .peer p f =>
    if t.mode = 3 ∧ s.migth ≠ 0 then
      let key := p * 2 ^ 64 + f / 65536
      let n := min 0xFFFF (Tbl.read s.migPage key 0 + 1)
      let s := { s with migPage := Tbl.put s.migPage key n }
      if n ≥ s.migth then s.pushOnce (.crossPackageMigration g (t.page * 65536) []) else s
    else s
  | _ => s

/-- An access to a peer's page counted once, as its request is about to be sent (R64). -/
def countPeer (s : State) (w : Who) (id : Nat) (t : Target) : State :=
  if s.sent.any (fun r => r.core == w.core && r.op == id) then s else countMiss s (dieOf w.core) w.dom t

/-- A page that is being moved, or that comes from another package: writes stall, reads go on (R62, R64). -/
def moving (s : State) (addr : Nat) : Bool :=
  s.moves.any fun m => addr / 65536 * 65536 ==
    if m.oldPeer = 0 then m.oldHome * 2 ^ 52 + m.oldPfn * 65536 else m.newHome * 2 ^ 52 + m.newPfn * 65536
/-- The same for a page of another package that comes here (R64). -/
def movingPeer (s : State) (p f : Nat) : Bool :=
  p != 0 && s.moves.any fun m => m.oldPeer == p && m.oldHome * 2 ^ 52 + m.oldPfn * 65536 == f / 65536 * 65536

end Sys2Proof.Machine
end

