-- ==== Sys2Proof/Machine/Scalar.lean ====
section
/-!
DEFINITION. The integer functions of the ALU, the immediate majors, LDI and the ADR functions (R126, R131, R132).
-/
set_option linter.all false
namespace Sys2Proof.Machine
open Sys2Proof

/-! The functions of R131 on `n` bits. -/

/-- Leading zeros, `n` when there is no set bit. -/
def clzBits {n : Nat} (x : BitVec n) : BitVec n :=
  BitVec.ofNat n (match (upFrom 0 n).find? fun i => x.getLsbD (n - 1 - i) with | some i => i | none => n)
/-- Trailing zeros, `n` when there is no set bit. -/
def ctzBits {n : Nat} (x : BitVec n) : BitVec n :=
  BitVec.ofNat n (match (upFrom 0 n).find? fun i => x.getLsbD i with | some i => i | none => n)
def popBits {n : Nat} (x : BitVec n) : BitVec n := BitVec.ofNat n (popN n x.toNat)
/-- The shift amount: b[5:0], or b[4:0] on 32 bits. -/
def shAmt {n : Nat} (b : BitVec n) : Nat := b.toNat % n
def boolBits {n : Nat} (b : Bool) : BitVec n := BitVec.ofNat n (bitN b)
/-- Signed quotient toward zero; all ones for a zero divisor. -/
def divS {n : Nat} (a b : BitVec n) : BitVec n := if b = 0 then BitVec.allOnes n else BitVec.ofInt n (a.toInt.tdiv b.toInt)
def divU {n : Nat} (a b : BitVec n) : BitVec n := if b = 0 then BitVec.allOnes n else BitVec.ofNat n (a.toNat / b.toNat)
/-- Remainder with the sign of the dividend; the dividend for a zero divisor. -/
def remS {n : Nat} (a b : BitVec n) : BitVec n := if b = 0 then a else BitVec.ofInt n (a.toInt.tmod b.toInt)
def remU {n : Nat} (a b : BitVec n) : BitVec n := if b = 0 then a else BitVec.ofNat n (a.toNat % b.toNat)
def mulHS {n : Nat} (a b : BitVec n) : BitVec n := BitVec.ofInt n (a.toInt * b.toInt / 2 ^ n)
def mulHU {n : Nat} (a b : BitVec n) : BitVec n := BitVec.ofNat n (a.toNat * b.toNat / 2 ^ n)
def bswapBits {n : Nat} (a : BitVec n) : BitVec n := BitVec.ofNat n (leNat (natLE (n / 8) a.toNat).reverse)

/-- An ALU function of two operands on 64 bits, or on 32 with a sign-extended result under `.w` (R131). -/
def alu (w : Bool) (f : (n : Nat) → BitVec n → BitVec n → BitVec n) (a b : Word) : Word :=
  if w then (f 32 (a.setWidth 32) (b.setWidth 32)).signExtend 64 else f 64 a b

/-- D := f(A, B), retiring (R131). -/
def aluOp (w : Bool) (f : (n : Nat) → BitVec n → BitVec n → BitVec n) (b a d : Reg) (s : State) : State :=
  issue 4 (some d) [b, a] (fun s => .ret (s.wrK d (alu w f (rd s.k a) (rd s.k b)))) s

/-- D := f(A), retiring. -/
def aluOp1 (w : Bool) (f : (n : Nat) → BitVec n → BitVec n) (a d : Reg) (s : State) : State :=
  issue 4 (some d) [a] (fun s => .ret (s.wrK d (alu w (fun n x _ => f n x) (rd s.k a) 0))) s

/-- D := f(A) with an immediate, in an instruction of `len` bytes (R132). -/
def immOp (len : Nat) (f : Word → Word) (a d : Reg) (s : State) : State :=
  issue len (some d) [a] (fun s => .ret (s.wrK d (f (rd s.k a)))) s

/-- Sext(IMM14, 14). -/
def imm14 (i : BitVec 14) : Word := i.signExtend 64

def extBits (w : ExtW) : Nat :=
  match w with | .b => 8 | .h => 16 | .w => 32

/-- ADD (R131). -/
def execAdd (w : Bool) (b a d : Reg) (s : State) : Out := took (aluOp w (fun n a b => a + b) b a d s)
/-- SUB (R131). -/
def execSub (w : Bool) (b a d : Reg) (s : State) : Out := took (aluOp w (fun n a b => a - b) b a d s)
/-- AND (R131). -/
def execAnd (w : Bool) (b a d : Reg) (s : State) : Out := took (aluOp w (fun n a b => a &&& b) b a d s)
/-- OR (R131). -/
def execOr (w : Bool) (b a d : Reg) (s : State) : Out := took (aluOp w (fun n a b => a ||| b) b a d s)
/-- XOR (R131). -/
def execXor (w : Bool) (b a d : Reg) (s : State) : Out := took (aluOp w (fun n a b => a ^^^ b) b a d s)
/-- ANDN (R131). -/
def execAndn (w : Bool) (b a d : Reg) (s : State) : Out := took (aluOp w (fun n a b => a &&& ~~~b) b a d s)
/-- SHL (R131). -/
def execShl (w : Bool) (b a d : Reg) (s : State) : Out := took (aluOp w (fun n a b => a <<< shAmt b) b a d s)
/-- SHR (R131). -/
def execShr (w : Bool) (b a d : Reg) (s : State) : Out := took (aluOp w (fun n a b => a >>> shAmt b) b a d s)
/-- SAR (R131). -/
def execSar (w : Bool) (b a d : Reg) (s : State) : Out := took (aluOp w (fun n a b => a.sshiftRight (shAmt b)) b a d s)
/-- ROL (R131). -/
def execRol (w : Bool) (b a d : Reg) (s : State) : Out := took (aluOp w (fun n a b => a.rotateLeft (shAmt b)) b a d s)
/-- SLT (R131). -/
def execSlt (w : Bool) (b a d : Reg) (s : State) : Out := took (aluOp w (fun n a b => boolBits (a.slt b)) b a d s)
/-- SLTN (R131). -/
def execSltn (w : Bool) (b a d : Reg) (s : State) : Out := took (aluOp w (fun n a b => boolBits (a.ult b)) b a d s)
/-- MIN (R131). -/
def execMin (w : Bool) (b a d : Reg) (s : State) : Out := took (aluOp w (fun n a b => if b.slt a then b else a) b a d s)
/-- MAX (R131). -/
def execMax (w : Bool) (b a d : Reg) (s : State) : Out := took (aluOp w (fun n a b => if a.slt b then b else a) b a d s)
/-- MINN (R131). -/
def execMinn (w : Bool) (b a d : Reg) (s : State) : Out := took (aluOp w (fun n a b => if b.ult a then b else a) b a d s)
/-- MAXN (R131). -/
def execMaxn (w : Bool) (b a d : Reg) (s : State) : Out := took (aluOp w (fun n a b => if a.ult b then b else a) b a d s)
/-- MUL (R131). -/
def execMul (w : Bool) (b a d : Reg) (s : State) : Out := took (aluOp w (fun n a b => a * b) b a d s)
/-- MULH (R131). -/
def execMulh (w : Bool) (b a d : Reg) (s : State) : Out := took (aluOp w (fun n a b => mulHS a b) b a d s)
/-- MULHN (R131). -/
def execMulhn (w : Bool) (b a d : Reg) (s : State) : Out := took (aluOp w (fun n a b => mulHU a b) b a d s)
/-- DIV (R131). -/
def execDiv (w : Bool) (b a d : Reg) (s : State) : Out := took (aluOp w (fun n a b => divS a b) b a d s)
/-- DIVN (R131). -/
def execDivn (w : Bool) (b a d : Reg) (s : State) : Out := took (aluOp w (fun n a b => divU a b) b a d s)
/-- REM (R131). -/
def execRem (w : Bool) (b a d : Reg) (s : State) : Out := took (aluOp w (fun n a b => remS a b) b a d s)
/-- REMN (R131). -/
def execRemn (w : Bool) (b a d : Reg) (s : State) : Out := took (aluOp w (fun n a b => remU a b) b a d s)
/-- CLZ (R131). -/
def execClz (w : Bool) (a d : Reg) (s : State) : Out := took (aluOp1 w (fun n a => clzBits a) a d s)
/-- CTZ (R131). -/
def execCtz (w : Bool) (a d : Reg) (s : State) : Out := took (aluOp1 w (fun n a => ctzBits a) a d s)
/-- POPC (R131). -/
def execPopc (w : Bool) (a d : Reg) (s : State) : Out := took (aluOp1 w (fun n a => popBits a) a d s)
/-- BSWAP (R131). -/
def execBswap (w : Bool) (a d : Reg) (s : State) : Out := took (aluOp1 w (fun n a => bswapBits a) a d s)
/-- SEXT (R131). -/
def execSext (w : ExtW) (a d : Reg) (s : State) : Out := took (immOp 4 (sext (extBits w)) a d s)
/-- ZEXT (R131). -/
def execZext (w : ExtW) (a d : Reg) (s : State) : Out := took (immOp 4 (zext (extBits w)) a d s)

/-- ADDI (R132). -/
def execAddi (i : BitVec 14) (a d : Reg) (s : State) : Out := took (immOp 4 (fun a => a + imm14 i) a d s)
/-- ADDI with a literal (R132). -/
def execAddiLit (i : Word) (a d : Reg) (s : State) : Out := took (immOp 12 (fun a => a + i) a d s)
/-- ANDI (R132). -/
def execAndi (i : BitVec 14) (a d : Reg) (s : State) : Out := took (immOp 4 (fun a => a &&& imm14 i) a d s)
/-- ANDI with a literal (R132). -/
def execAndiLit (i : Word) (a d : Reg) (s : State) : Out := took (immOp 12 (fun a => a &&& i) a d s)
/-- ORI (R132). -/
def execOri (i : BitVec 14) (a d : Reg) (s : State) : Out := took (immOp 4 (fun a => a ||| imm14 i) a d s)
/-- ORI with a literal (R132). -/
def execOriLit (i : Word) (a d : Reg) (s : State) : Out := took (immOp 12 (fun a => a ||| i) a d s)
/-- XORI (R132). -/
def execXori (i : BitVec 14) (a d : Reg) (s : State) : Out := took (immOp 4 (fun a => a ^^^ imm14 i) a d s)
/-- XORI with a literal (R132). -/
def execXoriLit (i : Word) (a d : Reg) (s : State) : Out := took (immOp 12 (fun a => a ^^^ i) a d s)
/-- SLTI (R132). -/
def execSlti (i : BitVec 14) (a d : Reg) (s : State) : Out := took (immOp 4 (fun a => boolBits (a.slt (imm14 i))) a d s)
/-- SLTI with a literal (R132). -/
def execSltiLit (i : Word) (a d : Reg) (s : State) : Out := took (immOp 12 (fun a => boolBits (a.slt i)) a d s)
/-- SLTIN (R132). -/
def execSltin (i : BitVec 14) (a d : Reg) (s : State) : Out := took (immOp 4 (fun a => boolBits (a.ult (imm14 i))) a d s)
/-- SLTIN with a literal (R132). -/
def execSltinLit (i : Word) (a d : Reg) (s : State) : Out := took (immOp 12 (fun a => boolBits (a.ult i)) a d s)
/-- SHLI (R132). -/
def execShli (i : BitVec 6) (a d : Reg) (s : State) : Out := took (immOp 4 (fun a => a <<< i.toNat) a d s)
/-- SHRI (R132). -/
def execShri (i : BitVec 6) (a d : Reg) (s : State) : Out := took (immOp 4 (fun a => a >>> i.toNat) a d s)
/-- SARI (R132). -/
def execSari (i : BitVec 6) (a d : Reg) (s : State) : Out := took (immOp 4 (fun a => a.sshiftRight i.toNat) a d s)
/-- ROLI (R132). -/
def execRoli (i : BitVec 6) (a d : Reg) (s : State) : Out := took (immOp 4 (fun a => a.rotateLeft i.toNat) a d s)
/-- LDI (R132). -/
def execLdi (i : BitVec 19) (d : Reg) (s : State) : Out :=
  took (issue 4 (some d) [] (fun s => .ret (s.wrK d (i.signExtend 64))) s)
/-- LDL (R132). -/
def execLdl (i : Word) (d : Reg) (s : State) : Out := took (issue 12 (some d) [] (fun s => .ret (s.wrK d i)) s)

/-! MOVG and its guard. -/

/-- The commands whose COMPACT will resolve a guard of the context (R100). -/
def resolves (ops : List Op) (q : QIx) : Bool :=
  q != 0 && ops.any fun o => live o && match o.body with
    | .copy c => c.res == some q
    | _ => false

/-- MOVG: A moves when the guard, inverted by N, is true; it waits while the guard is unresolved (R128, R131). -/
def execMovg (n : Bool) (q : QIx) (a d : Reg) (s : State) : Out :=
  took (issue 4 (some d) [a] (fun s =>
    match guardOf s.k q with
    | none => .wait s
    | some g =>
      let v := rd s.k a
      let s := s.updK fun k => if g != n then observe k [q] else k
      .ret (if g != n then s.wrK d v else s)) s)

/-! The ADR functions (R126). -/

/-- A core address in form 01. -/
def coreAddr (peer x y off : Nat) : Word := BitVec.ofNat 64 (2 ^ 62 + peer % 4096 * 2 ^ 50 + x % 128 * 2 ^ 43 + y % 64 * 2 ^ 37 + off % 2 ^ 18)

/-- The coordinates that a core address names, for EVPOST, SVC and LVSEND, and in forms 10 and 11 for CXY and CRES: peer, x, y; none for form 00 or a
relative address that leaves the mesh. -/
def coreNamed (s : State) (ea : Word) : Option (Nat × Nat × Nat) :=
  let c := s.cur.1
  match field ea 63 62 with
  | 0 => none
  | 3 => if field ea 61 18 != 0 then none else some (0, coreX c, coreY c)
  | 1 => if field ea 36 18 != 0 then none
    else some (if field ea 61 50 = s.pkid then 0 else field ea 61 50, field ea 49 43, field ea 42 37)
  | _ =>
    let x := (coreX c : Int) + (sext 7 (BitVec.ofNat 64 (field ea 49 43))).toInt
    let y := (coreY c : Int) + (sext 6 (BitVec.ofNat 64 (field ea 42 37))).toInt
    if field ea 61 50 != 0 || field ea 36 18 != 0 || x < 0 || x > 127 || y < 0 || y > 63 then none
    else some (0, x.toNat, y.toNat)

/-- CADR (R126). -/
def execCadr (b a d : Reg) (s : State) : Out :=
  took (issue 4 (some d) [b, a] (fun s =>
    let va := rd s.k a
    let vb := rd s.k b
    if field va 63 25 != 0 || field vb 63 18 != 0 then .fault (stopAt .laddr 0) s
    else .ret (s.wrK d (coreAddr (field va 24 13) (field va 6 0) (field va 12 7) (field vb 17 0)))) s)

/-- CREL (R126). -/
def execCrel (b a d : Reg) (s : State) : Out :=
  took (issue 4 (some d) [b, a] (fun s =>
    let va := rd s.k a
    let vb := rd s.k b
    if field va 63 13 != 0 || field vb 63 18 != 0 then .fault (stopAt .laddr 0) s
    else .ret (s.wrK d (BitVec.ofNat 64
      (2 ^ 63 + field va 6 0 * 2 ^ 43 + field va 12 7 * 2 ^ 37 + field vb 17 0)))) s)

/-- The core that an address names for CXY and CRES: form 01 as it is written (R126). -/
def coreWritten (s : State) (ea : Word) : Option (Nat × Nat × Nat) :=
  if field ea 63 62 = 1 then some (field ea 61 50, field ea 49 43, field ea 42 37) else coreNamed s ea

/-- CXY (R126). -/
def execCxy (a d : Reg) (s : State) : Out :=
  took (issue 4 (some d) [a] (fun s =>
    let ea := rd s.k a
    match coreWritten s ea with
    | none => .fault (stopAt .laddr ea) s
    | some (p, x, y) => .ret (s.wrK d (BitVec.ofNat 64 (x + y * 128 + p * 8192)))) s)

/-- CRES (R126): the form 01 address, where the coordinate names a core. -/
def execCres (a d : Reg) (s : State) : Out :=
  took (issue 4 (some d) [a] (fun s =>
    let ea := rd s.k a
    match coreWritten s ea with
    | none => .fault (stopAt .laddr ea) s
    | some (p, x, y) =>
      if (p = 0 ∨ p = s.pkid) ∧ ¬ s.coreExists x y then .fault (stopAt .laddr ea) s
      else .ret (s.wrK d (if field ea 63 62 = 1 then ea else coreAddr 0 x y (field ea 17 0)))) s)

/-- Width of band i of WIDL (R125). -/
def band (widl : Word) (i : Nat) : Nat := field widl (6 * i + 5) (6 * i)

/-- A band of a work identifier (R126, R338). -/
def bandOf (widl v : Word) (k : Nat) : Word :=
  let off := (upFrom 0 k).foldl (fun n i => n + band widl i) 0
  BitVec.ofNat 64 (v.toNat / 2 ^ off % 2 ^ band widl k)

/-- WFLD (R126). -/
def execWfld (k : BitVec 5) (a d : Reg) (s : State) : Out :=
  took (issue 4 (some d) [a] (fun s => .ret (s.wrK d (bandOf s.k.widl (rd s.k a) k.toNat))) s)

end Sys2Proof.Machine
end

