-- ==== Sys2Proof/Machine/Guards.lean ====
section
/-!
DEFINITION. The guard functions (R127-R130): comparisons into guards, GSET to GNOT and CMPGI.
-/
set_option linter.all false
namespace Sys2Proof.Machine
open Sys2Proof

/-- A guard of the issuing context written; while a COMPACT of the context will resolve it, the write stalls (R100). -/
def guardWrite (g : QIx) (v : Option Bool) (s : State) : Res :=
  if resolves (opsOf s s.cur.1 s.cur.2) g then .wait s else .ret (s.setG g v)

/-- A comparison of A and B into a guard (R130). -/
def cmpOp (f : Word → Word → Bool) (b a : Reg) (g : QIx) (s : State) : State :=
  issue 4 none [b, a] (fun s => guardWrite g (some (f (rd s.k a) (rd s.k b))) s) s

/-- A comparison of A with an immediate into a guard (R130). -/
def cmpImm (len : Nat) (i : Word) (a : Reg) (c : CmpI) (g : QIx) (s : State) : State :=
  issue len none [a] (fun s =>
    let v := rd s.k a
    guardWrite g (some (match c with
      | .eq => v == i | .ne => v != i | .lt => v.slt i | .ge => !v.slt i)) s) s

/-- A GRD function of guards: it waits while its result depends on an unresolved one, and observing a guard that a COMPACT
resolved is an acquire (R129, R130). -/
def guardFn (f : Option Bool → Option Bool → Option Bool) (x y g : QIx) (s : State) : State :=
  issue 4 none [] (fun s =>
    match f (guardOf s.k x) (guardOf s.k y) with
    | none => .wait s
    | some v =>
      match guardWrite g (some v) s with
      | .ret t => .ret (if observed s.k [x, y] then t.updK region else t)
      | r => r) s

def gAnd (x y : Option Bool) : Option Bool :=
  match x, y with
  | some false, _ => some false
  | _, some false => some false
  | some true, some true => some true
  | _, _ => none

def gOr (x y : Option Bool) : Option Bool :=
  match x, y with
  | some true, _ => some true
  | _, some true => some true
  | some false, some false => some false
  | _, _ => none

/-- CMPG.eq (R130). -/
def execCmpgEq (b a : Reg) (g : QIx) (s : State) : Out := took (cmpOp (fun a b => a == b) b a g s)
/-- CMPG.ne (R130). -/
def execCmpgNe (b a : Reg) (g : QIx) (s : State) : Out := took (cmpOp (fun a b => a != b) b a g s)
/-- CMPG.lt (R130). -/
def execCmpgLt (b a : Reg) (g : QIx) (s : State) : Out := took (cmpOp (fun a b => a.slt b) b a g s)
/-- CMPG.ge (R130). -/
def execCmpgGe (b a : Reg) (g : QIx) (s : State) : Out := took (cmpOp (fun a b => !a.slt b) b a g s)
/-- CMPG.ltn (R130). -/
def execCmpgLtn (b a : Reg) (g : QIx) (s : State) : Out := took (cmpOp (fun a b => a.ult b) b a g s)
/-- CMPG.gen (R130). -/
def execCmpgGen (b a : Reg) (g : QIx) (s : State) : Out := took (cmpOp (fun a b => !a.ult b) b a g s)
/-- GSET (R130). -/
def execGset (v : Bool) (g : QIx) (s : State) : Out := took (issue 4 none [] (guardWrite g (some v)) s)
/-- GCLR makes the guard unresolved (R130). -/
def execGclr (g : QIx) (s : State) : Out := took (issue 4 none [] (guardWrite g none) s)
/-- GMOV (R130). -/
def execGmov (h g : QIx) (s : State) : Out := took (guardFn (fun x _ => x) h h g s)
/-- GNOT (R130). -/
def execGnot (h g : QIx) (s : State) : Out := took (guardFn (fun x _ => x.map (!·)) h h g s)
/-- GAND: false as soon as either is false (R130). -/
def execGand (j h g : QIx) (s : State) : Out := took (guardFn gAnd h j g s)
/-- GOR: true as soon as either is true (R130). -/
def execGor (j h g : QIx) (s : State) : Out := took (guardFn gOr h j g s)
/-- CMPGI (R130). -/
def execCmpgi (i : BitVec 14) (a : Reg) (c : CmpI) (q : QIx) (s : State) : Out := took (cmpImm 4 (imm14 i) a c q s)
/-- CMPGI with a literal (R130). -/
def execCmpgiLit (i : Word) (a : Reg) (c : CmpI) (q : QIx) (s : State) : Out := took (cmpImm 12 i a c q s)

end Sys2Proof.Machine
end

