-- ==== Sys2Proof/Machine/Fetch.lean ====
section
/-!
DEFINITION. Instruction fetch through the fetch buffer (R7-R9, R70).
-/
set_option linter.all false
namespace Sys2Proof.Machine
open Sys2Proof

/-- The sixteen words of the 64-byte line at an offset of a core's banks, none for one that is uncorrectable (R69). -/
def lineWords (s : State) (c line : Nat) : List (Option Nat) :=
  (upFrom 0 16).map fun i =>
    if (s.core c).bad.contains ((line + 4 * i) / 8) then none else some (leNat (readBytes (s.core c).mem (line + 4 * i) 4))

/-- One word for core `c` from the banks of core `b`: from the fetch buffer, or from a refill of it (R70). A word at or above
0x3_0000 raises LADDR (R8), an uncorrectable one DATALOST (R69). -/
def fetchWord (s : State) (c b a : Nat) : Except Stop (Nat × State) :=
  if a ≥ bankEnd then .error (stopAt .laddr (localAddr a)) else
  let key := b * 0x40000 + a / 64 * 64
  let hit := match (s.core c).fetch with
    | some (k, ws) => if k = key then ws.getD (a % 64 / 4) none else none
    | none => none
  match hit with
  | some w => .ok (w, s)
  | none =>
    let ws := lineWords s b (a / 64 * 64)
    match ws.getD (a % 64 / 4) none with
    | none => .error (stopAt .datalost (localAddr a))
    | some w => .ok (w, (softRead s b (a / 64 * 64) 64).updCore c fun k => { k with fetch := some (key, ws) })

/-- `n` words from an offset up. -/
def fetchWords (s : State) (c b a n : Nat) : Except Stop (List Nat × State) :=
  match n with
  | 0 => .ok ([], s)
  | n + 1 =>
    match fetchWord s c b a with
    | .error p => .error p
    | .ok (w, s) =>
      match fetchWords s c b (a + 4) n with
      | .error p => .error p
      | .ok (ws, s) => .ok (w :: ws, s)

/-- The words of the instruction at an offset: word 0 and as many more as its LEN names (R7). DESIGN CHOICE (log 68): the fills that an
instruction across a line boundary needs are made in one step, so that no store lands between them; R9 lets one land there. -/
def fetchInstr (s : State) (c b a : Nat) : Except Stop (List Nat × State) :=
  match fetchWord s c b a with
  | .error p => .error p
  | .ok (w, s) =>
    match fetchWords s c b (a + 4) (lenWords (w % 4) - 1) with
    | .error p => .error p
    | .ok (ws, s) => .ok (w :: ws, s)

end Sys2Proof.Machine
end

