-- ==== Sys2Proof/Machine/Access.lean ====
section
/-!
DEFINITION. Reads and writes of resolved targets as cores and engines perform them: the stash (R76-R79), checked pages
(R215-R218), peers (R248, R249, R252), a context's own earlier stores (R84), and what a failed operation does to its
firing (R104, R357, R396).
-/
set_option linter.all false
namespace Sys2Proof.Machine
open Sys2Proof

/-! Places. -/

/-- A place as a space and an offset: equal bytes have equal keys. -/
def placeKey (p : Place) : Nat × Nat :=
  match p with
  | .loc c off => (3 * c, off)
  | .dev a => (1, a)
  | .peer p f => (3 * p + 2, f)

/-- A place moved by an offset. -/
def placeAdd (p : Place) (n : Nat) : Place :=
  match p with
  | .loc c off => .loc c (off + n)
  | .dev a => .dev (a + n)
  | .peer p f => .peer p (f + n)

def placeSub (p : Place) (n : Nat) : Place :=
  match p with
  | .loc c off => .loc c (off - n)
  | .dev a => .dev (a - n)
  | .peer p f => .peer p (f - n)

/-- Whether two spans share a byte. -/
def overlaps (p : Place) (n : Nat) (q : Place) (m : Nat) : Bool :=
  (placeKey p).1 == (placeKey q).1 && (placeKey p).2 < (placeKey q).2 + m && (placeKey q).2 < (placeKey p).2 + n

/-- Bytes of a store over a span read at a place. -/
def overStore (p : Place) (bs : List Byte) (q : Place) (new : List Byte) : List Byte :=
  if (placeKey p).1 != (placeKey q).1 then bs else
  ((upFrom (placeKey p).2 bs.length).zip bs).map fun (i, b) =>
    if (placeKey q).2 ≤ i ∧ i < (placeKey q).2 + new.length then new.getD (i - (placeKey q).2) b else b

/-- The bytes that a context's stores with smaller names, still in its store buffer, put over a span (R84). -/
def overBuffer (ops : List Op) (before : Nat) (p : Place) (bs : List Byte) : List Byte :=
  ops.foldl (fun bs o =>
    match o.body, o.target with
    | .store n d _ _ _ false, some t => if o.id < before ∧ o.status = 0 then overStore p bs t.place (natLE n d.toNat) else bs
    | _, _ => bs) bs

/-- EADDR of a stop that has not named its own (R69). -/
def atEa (ea : Word) (p : Stop) : Stop := if p.eaddr = 0 then { p with eaddr := ea } else p

/-! Peers. -/

/-- The names of requests that no operation carries: a message sent, and a read by an instruction that waits. -/
def msgId (x : Nat) : Nat := 2 ^ 40 + x
def syncId (x : Nat) : Nat := 2 ^ 41 + x

def dropSent (s : State) (tag : Nat) : State := { s with sent := s.sent.filter fun r => r.tag != tag }

/-- A read of a peer (R247-R249): its reply is taken, or its request is sent and waited for. `dep` is the local offset at
which an engine has the data deposited. -/
def peerRead (s : State) (core id : Nat) (p f n : Nat) (dep : Option Nat) : Got (List Byte) :=
  match s.sent.find? fun r => r.core == core && r.op == id && r.pkt.faddr == f && r.pkt.op == 1 with
  | some r =>
    match r.got, r.nack with
    | some bs, _ => .ok bs (dropSent s r.tag)
    | none, some e => .bad (nackStop 0 e) (dropSent s r.tag)
    | none, none => .wait s
  | none =>
    match unreachable s with
    | some e => .bad (nackStop 0 e) s
    | none => if lineResent s p f then .wait s else
      .wait (match dep with
        | some o => request s 0x01 0x81 p f n 4 0 o [] core id
        | none => request s 0x01 0x80 p f n 4 0 0 [] core id)

/-- A write sent to a peer or a group (R248, R253): done when its reply has come. -/
def peerWrite (s : State) (core id : Nat) (p f : Nat) (bs : List Byte) (g : Bool) : Got Unit :=
  match unreachable s with
  | some e => .bad (nackStop 0 e) s
  | none =>
    if movingPeer s p f ∨ lineResent s p f then .wait s
    else if p < 0xF00 then .ok () (request s 2 0x83 p f bs.length (4 + 8 * bitN g) 0 0 bs core id)
    else
      -- a group write goes to this package's board switch
      let t := request s 4 0x84 p f bs.length (4 + 8 * bitN g) 0 0 bs core id
      .ok () (match t.sent.getLast? with
        | some r => t.push (.gwr r.pkt)
        | none => t)

/-- An earlier MCWR or ACLWR of an operation's context without its reply: its group writes are held (R258). -/
def configBefore (s : State) (core id : Nat) : Bool :=
  let x := match opById s core id with | some o => o.ctx | none => id % 16
  (s.core core).ops.any fun q => q.ctx == x && q.id < id && live q && match q.body with | .config .. => true | _ => false

/-- A write of an engine to a peer or a group, which its beat waits for (R104, R253). -/
def peerWriteWait (s : State) (core id : Nat) (p f : Nat) (bs : List Byte) (g : Bool) : Got Unit :=
  match s.sent.find? fun r => r.core == core && r.op == id && r.pkt.dst == p && r.pkt.faddr == f && (r.pkt.op == 2 || r.pkt.op == 4) with
  | some r =>
    match r.got, r.nack with
    | some _, _ => .ok () (dropSent s r.tag)
    | none, some e => .bad (nackStop 0 e) (dropSent s r.tag)
    | none, none => .wait s
  | none =>
    if p ≥ 0xF00 ∧ configBefore s core id then .wait s else
    match peerWrite s core id p f bs g with
    | .ok _ s => .wait s
    | r => r

/-! Banks of other cores. -/

/-- Whether a core's banks lie behind the spoke of another, isolated die (R227). -/
def coreCut (s : State) (w : Who) (h : Nat) : Bool := dieOf h != dieOf w.core && dieCut s (dieOf h)

/-- A core's bank read or written from wherever the access is made. -/
def reachRead (s : State) (w : Who) (h off n : Nat) : Got (List Byte) :=
  if coreCut s w h then .bad (stopAt .datalost 0) s else bankRead s h off n
def reachWrite (s : State) (w : Who) (h off : Nat) (bs : List Byte) (via : Option (Nat × Target) := none) : Got Unit :=
  if coreCut s w h then .bad (stopAt .datalost 0) s else bankWrite s h off bs via

/-! The stash (R76-R79). -/

/-- Whether a source may be held in a stash (R66, R76): no checked page, no control window, no peer page of MODE DIRECT. DESIGN CHOICE (log
73): no core space of a peer package either, of which R76 and R77 say nothing. -/
def stashable (t : Target) : Bool :=
  match t.place with
  | .dev _ => !t.chk
  | .loc _ off => off < bankEnd
  | .peer .. => false

/-- The sector of a window made present: false says that the access goes to its source (R76, R78, R79). Poison comes along without a
fault (R50). While a write with G=1 of the context itself is pending on the line no copy is made (R223). -/
def stashReady (s : State) (w : Who) (off : Nat) (t : Target) : Got Bool :=
  let c := w.bank
  if (Tbl.find (s.core c).stash (off / 64)).isSome then .ok true s
  else if ¬ stashable t then .ok false s
  else
    let src := placeSub t.place (off % 64)
    let words := upFrom (off / 64 * 8) 8
    let put := fun (s : State) (bs : List Byte) (poison : Bool) =>
      s.updCore c fun k =>
        { k with
          mem := writeBytes k.mem (off / 64 * 64) bs
          bad := k.bad.filter fun w => !words.contains w
          soft := k.soft.filter fun w => !words.contains w.1
          stash := Tbl.put k.stash (off / 64) { target := { t with place := src, win := none }, dirty := false, poison := poison } }
    let s := countEv s w.core w.ctx 5 1
    match src with
    | .dev a =>
      let d := dieOf c
      if pendingOf s d nobody (a / 256) ∧ ¬ pendingOf s d w.num (a / 256) then .ok false s else
      let missed := (sectorAt s d (a / 64)).isNone
      match dieSector s d w.num a with
      | .ok x s => .ok true (put (if missed then countMiss s d w.dom t else s) (overAccepted s d nobody a x.bytes) x.poison)
      | .wait s => .wait s
      | .bad p s => .bad p s
    | .loc h o =>
      let e := Tbl.read (s.core h).dirl (o / 256) {}
      if e.uncached.any (· == c) then .ok false s
      else if e.ptrs.any (· == c) ∨ e.table.any (· == c) ∨ e.ptrs.length < 4 then
        match reachRead s w h o 64 with
        | .ok bs s =>
          let s := if e.ptrs.any (· == c) ∨ e.table.any (· == c) then s
            else s.updCore h fun k => { k with dirl := Tbl.put k.dirl (o / 256) { e with ptrs := e.ptrs ++ [c] } }
          .ok true (put s bs false)
        | .wait s => .wait s
        | .bad p s => .bad p s
      else .wait (s.pushOnce (.directoryOverflowEvent h (o / 256) c))
    | .peer .. => .ok false s

/-! Reads. -/

/-- The migration counter and the meter of a die-cache access that has been performed; `missed` if it had to go to its home (R61, R393). -/
def reached (s : State) (w : Who) (d a : Nat) (t : Target) (missed : Bool) : State :=
  let s := charge s w.dom 7 1
  if missed then charge (countMiss (countEv s w.core w.ctx 4 1) d w.dom t) w.dom (if homeOf a < 4 then 8 else 9) 1 else s

/-- A read at a place, under the name `id`; `atomic` for the race check (R217). -/
def readPlace (s : State) (w : Who) (id : Nat) (t : Target) (n : Nat) (atomic : Bool) (dep : Option Nat) : Got (List Byte) :=
  match t.place with
  | .loc h o => reachRead s w h o n
  | .dev a =>
    let d := if t.chk then homeDie a else dieOf w.core
    let missed := (sectorAt s d (a / 64)).isNone
    match if t.chk then raceCheck s (a / 64) w false atomic 0 else .ok s with
    | .error p => .bad p (countRace s)
    | .ok s =>
      match dieRead s d w.num a n with
      | .ok bs s => .ok bs (reached s w d a t missed)
      | r => r
  | .peer p f => peerRead (countPeer s w id t) w.core id p f n dep

/-- A read of target bytes held in the stash; poison that came with the sector raises DATALOST (R50). -/
def stashRead (s : State) (c off n : Nat) : Got (List Byte) :=
  match Tbl.find (s.core c).stash (off / 64) with
  | some e => if e.poison then .bad (stopAt .datalost 0) s else bankRead s c off n
  | none => bankRead s c off n

/-- A read of a target, through the stash when it lies in a window (R76). -/
def readTarget (s : State) (w : Who) (id : Nat) (t : Target) (n : Nat) (atomic : Bool) (dep : Option Nat := none) : Got (List Byte) :=
  match t.win with
  | none => readPlace s w id t n atomic dep
  | some off =>
    match stashReady s w off t with
    | .ok true s => stashRead s w.bank off n
    | .ok false s => readPlace s w id t n atomic dep
    | .wait s => .wait s
    | .bad p s => .bad p s

/-- Bytes of the issuing core's own local memory, with the context's earlier stores, for a message (R331, R360). -/
def localBytes (s : State) (off n : Nat) : List Byte :=
  let (c, x) := s.cur
  let b := bankCore s c x
  overBuffer (opsOf s c x) s.nextId (.loc b off) (overRings s b off (readBytes (s.core b).mem off n))

/-- The offset of a local operand that must lie in the banks outside every stash window: LADDR for any other (R270, R331, R332, R360). -/
def localSpan (s : State) (ea : Word) (n : Nat) : Except Stop Nat :=
  let (c, x) := s.cur
  if ea.toNat % n ≠ 0 then .error (stopAt .align ea) else
  match formOf s c (bankCore s c x) (!isSuper s s.k) true ea with
  | .error _ => .error (stopAt .laddr ea)
  | .ok (.loc t off) =>
    if t ≠ bankCore s c x ∨ off ≥ bankEnd ∨ (windowAt s t off).isSome then .error (stopAt .laddr ea) else .ok off
  | .ok _ => .error (stopAt .laddr ea)

/-! Stores. -/

/-- The core and the target through whose stash sector a write is made. -/
def viaOf (w : Who) (t : Target) : Option (Nat × Target) := if t.win.isSome then some (w.bank, t) else none

/-- A write at a place by an engine, under the name `id` (R95, R223). -/
def writePlace (s : State) (w : Who) (id : Nat) (t : Target) (bs : List Byte) (g atomic : Bool) : Got Unit :=
  match t.place with
  | .loc h o => reachWrite s w h o bs (viaOf w t)
  | .dev a =>
    if moving s a then .wait s else
    let d := if t.chk then homeDie a else dieOf w.core
    let missed := (sectorAt s d (a / 64)).isNone
    match if t.chk then raceCheck s (a / 64) w true atomic 0 else .ok s with
    | .error p => .bad p (countRace s)
    | .ok s =>
      match engineWrite s d a bs (g || t.gdef) w.core id w.num (viaOf w t) with
      | .ok _ s => .ok () (reached s w d a t missed)
      | r => r
  | .peer p f => peerWriteWait (countPeer s w id t) w.core id p f bs (g || t.gdef)

/-- A write of a target by an engine, through the stash when it lies in a window. -/
def writeTarget (s : State) (w : Who) (id : Nat) (t : Target) (bs : List Byte) (g : Bool) : Got Unit :=
  match t.win with
  | none => writePlace s w id t bs g false
  | some off =>
    match stashReady s w off t with
    | .wait s => .wait s
    | .bad p s => .bad p s
    | .ok _ s => writePlace s w id t bs g false

/-- Entries of the core's store buffer in use (R84). -/
def bufferUsed (s : State) (c : Nat) : Nat :=
  ((s.core c).ops.filter fun o => match o.body with | .store _ _ _ _ _ sent => !sent && o.status == 0 | _ => false).length

/-- Room in the in-flight table (R377). -/
def tableRoom (s : State) (c n : Nat) : Bool := (s.core c).ops.length + n ≤ 64

/-- An outstanding LASTUSE or DISCARD of the context: its range is performed before later accesses (R88). -/
def rangePending (ops : List Op) : Bool := ops.any fun o => live o && match o.body with | .range .. => true | _ => false

/-- A release of an accepted command that later stores and commands wait for (R95). -/
def relPending (ops : List Op) : Bool :=
  ops.any fun o => live o && match o.body with | .copy c => c.rel | .exch _ _ _ l => l | _ => false

/-- An MCWR or ACLWR without its reply: later group writes wait (R258). -/
def configPending (ops : List Op) : Bool := ops.any fun o => live o && match o.body with | .config .. => true | _ => false

/-- A target in a multicast group (R253). -/
def isGroup (t : Target) : Bool := match t.place with | .peer p _ => p ≥ 0xF00 | _ => false

/-- A checked store entered into the store buffer, to be performed later (R84). -/
def bufferStore (s : State) (ea : Word) (t : Target) (n : Nat) (v : Word) (g : Bool) (rel : Option Scope) (lu atomic : Bool) : State :=
  let (c, x) := s.cur
  let (id, s) := s.fresh
  let o := mkOp s id ea (some t) (.store n v g rel lu false)
  (addOp s c { o with atomic := atomic }).push (.storePerform c id)

/-- Plain 8-byte stores from an address up, checked before any is buffered (HST, FRONT: R123, R369). -/
def checkStores (s : State) (ea : Word) (ws : List Word) : Except Stop (List (Word × Target × Word)) × State :=
  match ws with
  | [] => (.ok [], s)
  | w :: ws =>
    match access s s.cur.1 s.cur.2 ea false true with
    | (.error p, s) => (.error p, s)
    | (.ok t, s) =>
      match checkStores s (ea + 8) ws with
      | (.error p, s) => (.error p, s)
      | (.ok r, s) => (.ok ((ea, t, w) :: r), s)

/-! Failures (R104, R357, R396). -/

/-- A failure reported against a firing: it parks now, or in turn once it can park again if it is already stopped (R104, R357). A store's
failure before the firing has parked on another is only listed (R396). A context that only waits, or can issue, parks before its next
instruction. -/
def reportFail (s : State) (c : Nat) (o : Op) (kind : ParkKind) (p : Stop) (eng : Bool) (reix : Nat) : State :=
  let k := opCtx s c o
  let q : Pending := ⟨p, match kind with | .access q => q.pc | .amoUnknown _ => o.pc | _ => if eng then o.pc else k.pc, eng, reix, kind⟩
  let stores := (k.pend.toList ++ k.later).any fun q => q.kind == .store
  if k.work.isNone then s
  else if k.pend.isSome then
    if kind = .store ∧ stores then s else updOpCtx s c o fun k => { k with later := k.later ++ [q] }
  else
    let s := updOpCtx s c o fun k => { k with pend := some q }
    if k.status ≠ .parked ∧ o.ctx < 256 then s.push (.park c o.ctx) else s

/-- A store that failed where it was performed: it stays listed, and its firing parks with the store's address in EADDR (R396). -/
def failStore (s : State) (c : Nat) (o : Op) (p : Stop) : State :=
  let s := updOp s c o.id fun o => { o with status := 2, cause := p.cause }
  let s := { s with awaiting := s.awaiting.filter fun a => !(a.core == c && a.op == o.id) }
  reportFail s c o .store { p with eaddr := o.addr } false 0

/-- A write that is performed, but whose invalidation was lost: it stays listed with VISFAIL, and its firing parks on the first such write
(R228). `reply` of the operation holds the EINFO. -/
def reportVis (s : State) (c : Nat) (o : Op) : State :=
  let told := (mates s c o).any fun q => q.id != o.id && q.status == 1 && q.ended && q.cause == .visfail
  let s := updOp s c o.id fun o => { o with status := 1, ended := true, done := some .sys }
  if told then s else reportFail s c o .visfail { cause := .visfail, eaddr := o.addr, einfo := o.reply } false 0

/-- The same for a vector or MAT command: an ENGFAULT (R228). -/
def reportVisEngine (s : State) (c : Nat) (o : Op) : State :=
  if o.cause = .visfail then
    reportFail s c o .engine { cause := .engfault, eaddr := o.addr, einfo := BitVec.ofNat 64 Cause.visfail.code } true 0
  else s

/-- A load or AMO that failed: it is parked upon as the operation, which RESUME replays (R84, R237, R362). -/
def failAccess (s : State) (c : Nat) (o : Op) (p : Stop) : State :=
  let s := dropOp s c o.id
  reportFail s c o (.access o) (atEa o.addr p) false 0

end Sys2Proof.Machine
end

