-- ==== Sys2Proof/Machine/Operands.lean ====
section
/-!
DEFINITION. Operands by handle: the fields of a shape record (R118), capture at acceptance (R91, R97, R154), the walk over
rows, elements and bits (R97), and the reads, writes and holds that the copy engine, the vector engine and the matrix unit
share (R58, R92, R95, R99, R162).
-/
set_option linter.all false
namespace Sys2Proof.Machine
open Sys2Proof

/-! Fields of a shape record (R118). -/

def extent (r : Shape) (d : Nat) : Nat := field r.d1 (16 * d + 15) (16 * d)
def setExtent (r : Shape) (d n : Nat) : Shape := { r with d1 := setField r.d1 (16 * d + 15) (16 * d) n }
/-- Stride of dimension 1, 2 or 3, as its 32 bits. -/
def strideBits (r : Shape) (d : Nat) : Nat :=
  match d with
  | 1 => field r.d2 31 0
  | 2 => field r.d2 63 32
  | _ => field r.d3 31 0
/-- Signed stride in bytes. -/
def stride (r : Shape) (d : Nat) : Int := (BitVec.ofNat 32 (strideBits r d)).toInt
def shapeType (r : Shape) : Nat := field r.d3 51 48
def advance16 (r : Shape) : Word := sext 16 (BitVec.ofNat 64 (field r.d3 47 32))
def advanceOn (r : Shape) : Bool := r.d3.getLsbD 53
def setRB (r : Shape) (b : Bool) : Shape := { r with d3 := setField r.d3 52 52 (bitN b) }

/-- Bits of an element type: 4 for q4, 6 for t6. -/
def elemBits (t : ElemTy) : Nat :=
  match t with
  | .f64 | .s64 | .n64 => 64
  | .f32 | .s32 | .n32 => 32
  | .bf16 | .f16 | .s16 | .n16 => 16
  | .t8 | .s8 | .n8 => 8
  | .t6 => 6
  | .q4 => 4

/-- Element size for alignment: 1 for q4, 16 for a t6 pack (R118). -/
def alignSize (t : ElemTy) : Nat :=
  match t with
  | .t6 => 16
  | .q4 => 1
  | t => elemBits t / 8

def isNull (h : Handle) : Bool := h.shape == {} && h.bind.isNone

/-! Rings that handles are bound to. -/

def ringOf (s : State) (b : Binding) : Option LiveRing := Tbl.find (s.core b.core).rings b.off
/-- The view index of a ring-bound handle: the committed index plus the pending advance (R111). -/
def viewOf (s : State) (b : Binding) : Nat :=
  match ringOf s b with
  | some r => (if b.producer then r.pidx else r.cidx) + b.pending
  | none => 0

/-- Address of a slot by index. -/
def slotBase (r : LiveRing) (i : Nat) : Word := r.base + BitVec.ofNat 64 (i % r.count * r.slot)

/-- The advance of R122 on one handle. -/
def advanceHandle (h : Handle) : Handle :=
  if h.bind.isNone && advanceOn h.shape then { h with shape := { h.shape with d0 := h.shape.d0 + advance16 h.shape * 64 } }
  else h


/-! Capture. -/

/-- The operand that a command captures from a handle, with its ring's slots (R91, R97). -/
def capture (s : State) (k : Ctx) (h : HIx) : Operand :=
  let v := handleOf k h
  let o : Operand := { hx := h.toNat, shape := v.shape, empty := v.empty, bind := v.bind, marks := extent v.shape 3 }
  match v.bind with
  | none => o
  | some b =>
    match ringOf s b with
    | none => o
    | some r => { o with view := viewOf s b, slot := r.slot, count := r.count, rbase := r.base }

/-- No operand: an unused slot. -/
def noOperand : Operand := ⟨0, {}, false, none, 0, 0, 1, 0, 1⟩

def nullOperand (o : Operand) : Bool := o.shape == {} && o.bind.isNone
def opTy (o : Operand) : ElemTy := (elemOfCode (shapeType o.shape)).getD .n8
/-- TYPE names an element type: a handle that no check has seen may hold 15, which no command accepts: SHAPE. DEDUCED: log 78. -/
def typed (o : Operand) : Bool := (elemOfCode (shapeType o.shape)).isSome
def ext (o : Operand) (d : Nat) : Nat := extent o.shape d
/-- Bits of one walk unit: a t6 pack is 384, a q4 nibble 4 (R98). -/
def unitBits (o : Operand) : Nat := if opTy o = .t6 then 384 else elemBits (opTy o)
/-- elems(h), counted in walk units. -/
def elems (o : Operand) : Nat := ext o 0 * ext o 1 * ext o 2 * ext o 3
def rows (o : Operand) : Nat := ext o 1 * ext o 2 * ext o 3
def rowBits (o : Operand) : Nat := unitBits o * ext o 0
def rowBytes (o : Operand) : Nat := (rowBits o + 7) / 8
/-- Elements of a row: 64 for each t6 pack (R140). -/
def rowEls (o : Operand) : Nat := if opTy o = .t6 then 64 * ext o 0 else ext o 0
/-- Elements by number, a t6 pack as 64. -/
def count (o : Operand) : Nat := rowEls o * rows o

/-- R97: a ring-bound shape's extent 3 and the part of it inside one slot. DESIGN CHOICE (log 75): strides count by their size, so a shape
that reaches below its slot's base with a negative stride passes while its span does not exceed the slot. -/
def ringFits (o : Operand) : Bool :=
  o.bind.isNone ||
    (ext o 3 ≤ o.count && rowBytes o + (ext o 1 - 1) * (stride o.shape 1).natAbs
      + (ext o 2 - 1) * (stride o.shape 2).natAbs ≤ o.slot)

/-- Address of a row in walk order (R97). -/
def rowEa (o : Operand) (r : Nat) : Word :=
  let i1 := r % ext o 1
  let i2 := r / ext o 1 % ext o 2
  let i3 := r / (ext o 1 * ext o 2)
  let base := match o.bind with
    | none => o.shape.d0 + BitVec.ofInt 64 (i3 * stride o.shape 3)
    | some _ => o.rbase + BitVec.ofNat 64 ((o.view + i3) % o.count * o.slot)
  base + BitVec.ofInt 64 (i1 * stride o.shape 1 + i2 * stride o.shape 2)

/-- The address and the bit within its row at which an element begins. -/
def elemAt (o : Operand) (i : Nat) : Word × Nat := (rowEa o (i / rowEls o), i % rowEls o * elemBits (opTy o))
/-- The same of a walk unit. -/
def unitAt (o : Operand) (i : Nat) : Word × Nat := (rowEa o (i / ext o 0), i % ext o 0 * unitBits o)

/-- The handles of a command advance once each (R122). -/
def advanceAll (k : Ctx) (hs : List HIx) : Ctx :=
  hs.eraseDups.foldl (fun k h => setHandle k h (advanceHandle (handleOf k h))) k

/-! Bytes that a command's operands cover (R162, R193). -/

/-- Addresses that name one byte get one number: core forms of an existing core as the core and offset. -/
def canon (s : State) (c lc : Nat) (ea : Word) : Int :=
  match formOf s c lc false false ea with
  | .ok (.loc t off) => 2 ^ 70 + t * 2 ^ 20 + off
  | .ok (.virt va) => va
  | .ok (.peer p f) => 2 ^ 80 + p * 2 ^ 64 + f
  | .error _ => 2 ^ 90 + ea.toNat

/-- Whether any row of a two-dimensional slice meets `n` bytes at distance `d` from its first byte. -/
def sliceMeets (o : Operand) (d : Int) (n : Nat) : Bool :=
  let st := stride o.shape 1
  let hit := fun (i : Int) => decide (0 ≤ i ∧ i < ext o 1 ∧ i * st < d + n ∧ d < i * st + rowBytes o)
  if st = 0 then hit 0
  else
    let q := d / st
    let m : Int := (n + rowBytes o) / st.natAbs + 1
    (upFrom 0 (2 * m.toNat + 1)).any fun j => hit (q - m + j)

/-- Whether an operand covers one of `n` bytes at an address. -/
def covers (s : State) (c lc : Nat) (o : Operand) (ea : Word) (n : Nat) : Bool :=
  let at' := canon s c lc ea
  !o.empty && ext o 0 != 0 && (upFrom 0 (ext o 3)).any fun i3 => (upFrom 0 (ext o 2)).any fun i2 =>
    sliceMeets o (at' - canon s c lc (rowEa o ((i3 * ext o 2 + i2) * ext o 1))) n

/-- The operands of a vector or MAT command. -/
def operandsOf (o : Op) : List Operand :=
  match o.body with
  | .vec v => [v.d, v.a, v.b, v.c]
  | .mat m => [m.a, m.b, m.x, m.s, m.t]
  | _ => []

/-! Pieces of a span: what lies in one block of `z` bytes each, or in one 64-byte sector. -/

def piecesFrom (z : Nat) (ea : Word) (n : Nat) : Nat → List (Word × Nat)
  | 0 => []
  | fuel + 1 =>
    if n = 0 then [] else
    let m := min n (z - ea.toNat % z)
    (ea, m) :: piecesFrom z (ea + BitVec.ofNat 64 m) (n - m) fuel
def pieces (ea : Word) (n : Nat) : List (Word × Nat) := piecesFrom 64 ea n (n / 64 + 2)

/-- Where an address lies, whatever its rights: the location of each of its bytes. -/
def locationAt (s : State) (w : Who) (ea : Word) : Option Place :=
  match accessBy s w ea false false with
  | (.ok t, _) => some t.place
  | _ => none

/-- Whether an operand covers a byte of a location under another address: another page of the same frame, or a stash window. -/
def aliasCovers (s : State) (w : Who) (o : Operand) (p : Place) (n : Nat) : Bool :=
  !o.empty && (upFrom 0 (rows o)).any fun r => (pieces (rowEa o r) (rowBytes o)).any fun e =>
    match locationAt s w e.1 with
    | some q => overlaps q e.2 p n
    | none => false

/-- A load or store waits for a byte that an earlier vector or MAT command of its context reads or writes, under whatever address
(R162, R193). -/
def coveredBy (s : State) (c x : Nat) (ops : List Op) (ea : Word) (n : Nat) : Bool :=
  let os := (ops.filter fun o => live o && (isVec o || isMat o)).flatMap operandsOf
  if os.isEmpty then false else
  let w := whoOf s c x
  os.any (fun p => covers s c w.bank p ea n) ||
    match locationAt s w ea with
    | none => false
    | some (.loc t off) => if (s.core c).windows.isEmpty then false else os.any fun o => aliasCovers s w o (.loc t off) n
    | some p => os.any fun o => aliasCovers s w o p n

/-! Own earlier writes (R99, R155). -/

def undoKey (p : Place) : Nat × Nat := ((placeKey p).1, (placeKey p).2 / 64)

def undoAt (u : Undo) (key : Nat × Nat) : Option (List (Option Byte)) :=
  match u with
  | [] => none
  | (k, l) :: r => if k = key then some l else undoAt r key

def undoSet (u : Undo) (key : Nat × Nat) (l : List (Option Byte)) : Undo :=
  match u with
  | [] => [(key, l)]
  | (k, m) :: r => if k = key then (k, l) :: r else (k, m) :: undoSet r key l

/-- The bytes of a piece as they stood before the command's own writes. -/
def undoOver (u : Undo) (p : Place) (bs : List Byte) : List Byte :=
  match undoAt u (undoKey p) with
  | none => bs
  | some l => ((l.drop ((placeKey p).2 % 64)).take bs.length).zipWith (fun o b => o.getD b) bs

/-- What stood in a piece, noted before the command first writes it. DESIGN CHOICE (log 74): at a peer nothing is noted, so a source that
overlaps a peer destination gives what earlier writes of the command have left there. -/
def undoNote (u : Undo) (p : Place) (was : List Byte) : Undo :=
  match p with
  | .peer .. => u
  | _ =>
    let l := (undoAt u (undoKey p)).getD (List.replicate 64 none)
    let o := (placeKey p).2 % 64
    undoSet u (undoKey p) (((upFrom 0 64).zip l).map fun (i, b) =>
      if b.isNone ∧ o ≤ i ∧ i < o + was.length then was[i - o]? else b)

/-- Bytes as they stand, for the note alone. -/
def peekBytes (s : State) (p : Place) (n : Nat) : List Byte :=
  match p with
  | .loc c off => readBytes (s.core c).mem off n
  | .dev a => hubRead s a n
  | .peer .. => []

/-! Reads and writes by pieces. -/

/-- Bytes read by pieces: as they stand, and as they stood before the command's own writes. `reads` is the right asked for; `dep` the
offset in the own banks at which a peer deposits them (R249). -/
def readPieces (s : State) (w : Who) (id : Nat) (u : Undo) (reads : Bool) (ps : List (Word × Nat)) (dep : Option Nat := none) :
    Got (List Byte × List Byte) :=
  match ps with
  | [] => .ok ([], []) s
  | (ea, n) :: ps =>
    match accessBy s w ea reads (!reads) with
    | (.error p, s) => .bad p s
    | (.ok t, s) =>
      match readTarget s w id t n false dep with
      | .wait s => .wait s
      | .bad p s => .bad (atEa ea p) s
      | .ok bs s =>
        match readPieces s w id u reads ps (dep.map (· + n)) with
        | .ok (r, q) s => .ok (bs ++ r, undoOver u t.place bs ++ q) s
        | .wait s => .wait s
        | .bad p s => .bad p s

/-- `n` bits that begin at a bit from an address: as they stand and as they stood. -/
def readBits (s : State) (w : Who) (id : Nat) (u : Undo) (reads : Bool) (ea : Word) (bit n : Nat) (dep : Option Nat := none) :
    Got (Nat × Nat) :=
  let len := (bit % 8 + n + 7) / 8
  match readPieces s w id u reads (pieces (ea + BitVec.ofNat 64 (bit / 8)) len) dep with
  | .wait s => .wait s
  | .bad p s => .bad p s
  | .ok (x, y) s =>
    let cut := fun (l : List Byte) => leNat l / 2 ^ (bit % 8) % 2 ^ n
    .ok (cut x, cut y) s

/-- `n` bits of an operand's walk from bit `pos` on, over as many of its rows as they lie in. -/
def readWalk (s : State) (w : Who) (id : Nat) (u : Undo) (o : Operand) (pos n : Nat) (dep : Option Nat) : Nat → Got (Nat × Nat)
  | 0 => .ok (0, 0) s
  | fuel + 1 =>
    let bit := pos % rowBits o
    let m := min n (rowBits o - bit)
    match readBits s w id u true (rowEa o (pos / rowBits o)) bit m dep with
    | .wait s => .wait s
    | .bad p s => .bad p s
    | .ok v s =>
      if n ≤ m then .ok v s else
      match readWalk s w id u o (pos + m) (n - m) (if m % 8 = 0 then dep.map (· + m / 8) else none) fuel with
      | .ok r s => .ok (v.1 + r.1 * 2 ^ m, v.2 + r.2 * 2 ^ m) s
      | .wait s => .wait s
      | .bad p s => .bad p s

/-- A value as it stands or as it stood before the command's own writes: the choice is free, one for each number (log 2). -/
def choose (number : Nat) (v : Nat × Nat) : Nat :=
  if v.1 = v.2 then v.1 else if Config.freeBit number then v.1 else v.2

/-- The same for each element of a run of bits that begins at bit `pos` of a walk with elements of `u` bits. -/
def chooseRun (seed pos u n : Nat) (v : Nat × Nat) : Nat :=
  if v.1 = v.2 then v.1 else
  (upFrom (pos / u) ((pos + n + u - 1) / u - pos / u)).foldl (fun acc i =>
    let lo := max pos (i * u) - pos
    let hi := min (pos + n) ((i + 1) * u) - pos
    let part := fun (x : Nat) => x / 2 ^ lo % 2 ^ (hi - lo)
    acc + choose (seed + i) (part v.1, part v.2) * 2 ^ lo) 0

/-- Whole bytes for `n` bits at a bit from an address: the other bits of its first and last byte stay as they are. -/
def mergeBits (s : State) (w : Who) (id : Nat) (ea : Word) (bit n v : Nat) : Got (Word × List Byte) :=
  let at' := ea + BitVec.ofNat 64 (bit / 8)
  let len := (bit % 8 + n + 7) / 8
  if bit % 8 = 0 ∧ n % 8 = 0 then .ok (at', natLE len v) s else
  match readPieces s w id [] false (pieces at' len) with
  | .wait s => .wait s
  | .bad p s => .bad p s
  | .ok (old, _) s =>
    let o := leNat old
    let b := bit % 8
    .ok (at', natLE len (o % 2 ^ b + v % 2 ^ n * 2 ^ b + o / 2 ^ (b + n) * 2 ^ (b + n))) s

/-- Bytes cut at the boundaries of blocks of `z` bytes, and at sector boundaries. -/
def cutBy (z : Nat) (ea : Word) (bs : List Byte) : List (Word × List Byte) :=
  ((piecesFrom z ea bs.length (bs.length / z + 2)).foldl (fun (acc : List (Word × List Byte) × List Byte) p =>
    (acc.1 ++ [(p.1, acc.2.take p.2)], acc.2.drop p.2)) ([], bs)).1
def cutPieces (ea : Word) (bs : List Byte) : List (Word × List Byte) := cutBy 64 ea bs

/-- The block within which an engine's run at an address lies: 256 bytes at a peer or in a group, else a sector (R249, R253). -/
def runSize (s : State) (w : Who) (ea : Word) : Nat :=
  match locationAt s w ea with
  | some (.peer ..) => 256
  | _ => 64
def cutRuns (s : State) (w : Who) (ea : Word) (bs : List Byte) : List (Word × List Byte) := cutBy (runSize s w ea) ea bs

/-- Pieces written in order. -/
def writePieces (s : State) (w : Who) (id : Nat) (u : Undo) (g : Bool) (ps : List (Word × List Byte)) : Got Undo :=
  match ps with
  | [] => .ok u s
  | (ea, bs) :: ps =>
    match accessBy s w ea false true with
    | (.error p, s) => .bad p s
    | (.ok t, s) =>
      let u := undoNote u t.place (peekBytes s t.place bs.length)
      match writeTarget s w id t bs g with
      | .wait s => .wait s
      | .bad p s => .bad (atEa ea p) s
      | .ok _ s => writePieces s w id u g ps

/-- What the first piece that has to wait begins. -/
def firstWait (s : State) (w : Who) (id : Nat) (g : Bool) (ps : List (Word × List Byte)) : State :=
  match ps with
  | [] => s
  | p :: ps =>
    match writePieces s w id [] g [p] with
    | .wait t => t
    | _ => firstWait s w id g ps

/-- A beat's writes: all of them, or, where one waits or fails, none. -/
def writeBeat (s : State) (w : Who) (id : Nat) (u : Undo) (g : Bool) (ps : List (Word × List Byte)) : Got Undo :=
  match writePieces s w id u g ps with
  | .ok u s => .ok u s
  | .bad p t => .bad p { s with races := t.races, nextId := t.nextId }
  | .wait _ => .wait (firstWait s w id g ps)

/-- Replies that a beat has used stand until the beat is complete, so that a beat that waits again reads them again. -/
def keepReplies (old : State) (c id : Nat) (s : State) : State :=
  { s with sent := s.sent ++ old.sent.filter fun r => r.core == c && r.op == id && !s.sent.any fun q => q.tag == r.tag }
def dropReplies (s : State) (c id : Nat) : State := { s with sent := s.sent.filter fun r => !(r.core == c && r.op == id) }

/-! Holds and waits of engine commands. -/

/-- The page that holds a command. -/
def heldPage (p : Stop) : Nat := p.page.getD (p.eaddr.toNat / 65536)

/-- A command that meets XLATE holds at its beat: it joins the page's entry, or opens it with a message of KIND 1; while the fault
table is full it tries again (R58). -/
def holdOp (s : State) (c : Nat) (o : Op) (p : Stop) (again : Event) : State :=
  let pg := heldPage p
  if s.faults.any fun f => f.dom == o.dom && f.page == pg then updOp s c o.id fun o => { o with held := true }
  else if s.faults.length ≥ 256 then s.pushOnce again
  else
    let s := updOp s c o.id fun o => { o with held := true }
    toSuper { s with faults := s.faults ++ [⟨o.dom, pg⟩] } o.dom
      ⟨smsgHead c (o.ctx % 16) o.pc 1 Cause.xlate.code, o.gtid, p.eaddr, 0⟩

/-- Earlier stores of a command's context that its reads wait for (R95, R162, R193), and AMOs, one of whose bytes it may name (R236). -/
def storesBefore (s : State) (c : Nat) (o : Op) : Bool :=
  (mates s c o).any fun q => q.id < o.id && q.status == 0 &&
    match q.body, q.target with
    | .store _ _ _ _ _ sent, some t => !sent || (match t.place with | .peer .. => true | _ => false)
    | .amo .., _ => !q.ended
    | _, _ => false

/-- Earlier vector commands of a command's context that have not ended (R162). -/
def vectorsBefore (s : State) (c : Nat) (o : Op) : Bool :=
  (mates s c o).any fun q => q.id < o.id && live q && isVec q

/-- An earlier command of the context whose release is not yet performed (R95). -/
def releaseBefore (s : State) (c : Nat) (o : Op) : Bool :=
  relPending ((mates s c o).filter fun q => q.id < o.id)

/-- Whether writes of an operation still wait for acknowledgements or replies. -/
def writesOut (s : State) (c id : Nat) : Bool :=
  s.awaiting.any (fun a => a.core == c && a.op == id) || s.sent.any fun r => r.core == c && r.op == id

/-- A command that has ended leaves the table once its writes are performed everywhere (R377). -/
def endOp (s : State) (c id : Nat) (reply : Word) : State :=
  if s.awaiting.any fun a => a.core == c && a.op == id then
    updOp s c id fun o => { o with ended := true, done := some .die, reply := reply }
  else dropOp s c id

/-- The event of R295 for the end of a command. -/
def endEvent (s : State) (c : Nat) (o : Op) : State :=
  let s := updOpCtx s c o fun k => { k with events := min 255 (k.events + 1) }
  { s with stalled := s.stalled.filter fun p => p != (c, o.ctx) }

/-! Reads by an instruction that waits for them: HLD, LVBIND, JOINW, ACLWR, LAUNCH (R123, R330, R303, R260, R351). -/

/-- Whether a load or AMO named below `before`, to one of the 8-byte words of a span, is still to be performed (R84, R206, R236). -/
def boundLater (ops : List Op) (before : Nat) (p : Place) (n : Nat) : Bool :=
  let lo := (placeKey p).2 % 8
  ops.any fun q => q.id < before && live q && (isLoad q || isAmo q) && match q.target with
    | some u => overlaps (placeSub p lo) ((lo + n + 7) / 8 * 8) (placeSub u.place ((placeKey u.place).2 % 8)) 8
    | none => false

/-- One read of 1, 2, 4 or 8 bytes as a load, with the context's earlier accesses to them performed first; `atomic` for the race check (R217). -/
def readNow (s : State) (ea : Word) (n : Nat) (atomic : Bool := false) : Got (List Byte) :=
  let (c, x) := s.cur
  if ea.toNat % n ≠ 0 then .bad (stopAt .align ea) s
  else if acqPending (opsOf s c x) ∨ coveredBy s c x (opsOf s c x) ea n then .wait s
  else
    match access s c x ea true false with
    | (.error p, s) => .bad p s
    | (.ok t, s) =>
      if boundLater (opsOf s c x) s.nextId t.place n then .wait s else
      match readTarget s (whoOf s c x) (syncId x) t n atomic with
      | .ok bs s => .ok (overBuffer (opsOf s c x) s.nextId t.place bs) s
      | .wait s => .wait s
      | .bad p s => .bad (atEa ea p) s

/-- `n` double words from an address up. -/
def readWords (s : State) (ea : Word) (n : Nat) : Got (List Word) :=
  match n with
  | 0 => .ok [] s
  | n + 1 =>
    match readNow s ea 8 with
    | .wait s => .wait s
    | .bad p s => .bad p s
    | .ok bs s =>
      match readWords s (ea + 8) n with
      | .wait s => .wait s
      | .bad p s => .bad p s
      | .ok ws s => .ok (leWord bs :: ws) s

end Sys2Proof.Machine
end

