-- ==== Sys2Proof/Machine/LoadStore.lean ====
section
/-!
DEFINITION. Releases and acquires (R199-R202, R213), loads and stores with their store buffer and replies (R80-R84, R396),
and MEMCTL with the steps of the stash, the die cache and the range operations (R75-R79, R85-R90).
-/
set_option linter.all false
namespace Sys2Proof.Machine
open Sys2Proof

/-! Releases and acquires. -/

/-- Sectors of cached peer lines that a die holds dirty (R77, R249). -/
def peerDirty (s : State) (d : Nat) : List Nat :=
  ((s.die d).sectors.filter fun e => !isOwn (e.1 * 64) && e.2.dirty).map (·.1)

/-- Those sectors sent to their packages, for what `by'` names. -/
def sendPeerDirty (s : State) (d : Nat) (by' : Option (Nat × Nat × Nat)) : State :=
  (peerDirty s d).foldl (fun s sec => writeBack s d sec by') s

/-- A release at a scope by context `x` of core `c`, over its operations with names below `before`: whether it is performed.
At system scope the dirty cached peer lines go back to their packages first (R77, R213). -/
def releaseAt (s : State) (c x : Nat) (sc : Scope) (before : Nat) : Bool × State :=
  if ¬ releaseReady (opsOf s c x) before sc then (false, s)
  else if sc ≠ .sys then (true, s.updCtx c x region)
  else if (peerDirty s (dieOf c)).isEmpty then
    if s.sent.any (fun r => r.core == wbCore (dieOf c)) then (false, s) else (true, s.updCtx c x region)
  else (false, sendPeerDirty s (dieOf c) (some (c, x, 0)))

/-- Stash copies of cached peer pages (MODE CACHED). -/
def isCachedPeer (e : StashSec) : Bool :=
  match e.target.place with
  | .dev a => !isOwn a
  | _ => false

/-- What an acquire at system scope invalidates: the core's stash copies and its die's copies of cached peer lines (R77). -/
def dropCachedPeers (s : State) (c : Nat) : State :=
  let d := dieOf c
  let s := dropStash (sendPeerDirty s d none) [c] isCachedPeer
  -- a fill that is on its way would be older than the acquire
  let s := { s with sent := s.sent.filter fun r => r.core != fillCore d }
  (((s.die d).sectors.filter fun e => !isOwn (e.1 * 64)).map fun e => e.1 / 4).foldl (fun s line =>
    let s := dropLine s d line
    let e := dirEntry s line
    setDir s line { e with owner := if e.owner = some d then none else e.owner, sharers := e.sharers.filter (· != d) }) s

/-- An acquire performed at a scope (R200, R216). -/
def acquireAt (s : State) (c x : Nat) (sc : Scope) : State :=
  (if sc = .sys then dropCachedPeers s c else s).updCtx c x region

/-! Loads (R80-R84). -/

/-- Bytes and signedness of a load type (R11). -/
def loadBytes (w : MemW) : Nat :=
  match w with
  | .s8 | .n8 => 1
  | .s16 | .n16 => 2
  | .s32 | .n32 => 4
  | .d64 => 8
def loadSigned (w : MemW) : Bool :=
  match w with
  | .s8 | .s16 | .s32 => true
  | _ => false
def storeBytes (z : StSz) : Nat :=
  match z with
  | .b => 1 | .h => 2 | .w => 4 | .d => 8

/-- A value extended as the load says. -/
def loadValue (n : Nat) (signed : Bool) (bs : List Byte) : Word :=
  if signed then sext (8 * n) (leWord bs) else leWord bs

/-- Outstanding loads and AMOs of a context (R84, R236). -/
def loadsOut (ops : List Op) : Nat := (ops.filter fun o => live o && (isLoad o || isAmo o)).length

/-- The issue of a load: checks, a slot, and its reply to come (R81, R84). -/
def issueLoad (len : Nat) (ea : Word) (n : Nat) (signed : Bool) (d : Reg) (acq : Option Scope) (lu atomic : Bool) (s : State) : Res :=
  let (c, x) := s.cur
  let ops := opsOf s c x
  if ea.toNat % n ≠ 0 then .fault (stopAt .align ea) s
  else if acqPending ops ∨ rangePending ops ∨ loadsOut ops ≥ 8 ∨ ¬ tableRoom s c 1 ∨ coveredBy s c x ops ea n then .wait s
  else
    match access s c x ea true false with
    | (.error p, s) => .fault p s
    | (.ok t, s) =>
      let (id, s) := s.fresh
      let o := mkOp s id ea (some t) (.load n signed d acq lu)
      .ret ((addOp s c { o with atomic := atomic }).push (.loadReply c id))

/-- LD (R81). -/
def execLd (o : BitVec 11) (w : MemW) (a d : Reg) (s : State) : Out :=
  took (issue 4 (some d) [a] (fun s =>
    issueLoad 4 (rd s.k a + o.signExtend 64 * BitVec.ofNat 64 (loadBytes w)) (loadBytes w) (loadSigned w) d none false false s) s)

/-- LSX load (R81-R83): an acquire at its scope when ORD says so. -/
def execLsxLoad (l : LsxLoad) (s : State) : Out :=
  took (issue 12 (some l.d) [l.a] (fun s =>
    issueLoad 12 (rd s.k l.a + l.off.signExtend 64) (loadBytes l.w) (loadSigned l.w) l.d
      (if l.ord = .acq then some l.scope else none) l.lu (l.ord != .plain) s) s)

/-- Whether an earlier outstanding load or AMO of the context to one of the same 8-byte words comes first (R84, R206, R236). -/
def earlierSame (ops : List Op) (o : Op) : Bool :=
  match o.target with
  | none => false
  | some t => boundLater ops o.id t.place 8

/-- The event of R295 for a reply. -/
def bumpOp (s : State) (c : Nat) (o : Op) : State :=
  let s := updOpCtx s c o fun k => { k with events := min 255 (k.events + 1) }
  { s with stalled := s.stalled.filter fun p => p != (c, o.ctx) }

/-- The stash copies of a place's sector. -/
def onPlace (p : Place) (e : StashSec) : Bool :=
  match p, e.target.place with
  | .dev a, .dev b => a / 64 == b / 64
  | .loc h o, .loc k q => h == k && o / 64 == q / 64
  | _, _ => false

/-- A line of a die's cache marked first to evict. -/
def markFirst (s : State) (d line : Nat) : State :=
  s.updDie d fun k => if k.first.any (· == line) then k else { k with first := k.first ++ [line] }

/-- Last use (R83): the line first to evict, the core's stash copies of the sector invalidated, under whatever address; what is dirty
there stands in the die's cache too (log 18). -/
def lastUse (s : State) (c : Nat) (t : Target) : State :=
  let s := dropStash s [c] (onPlace t.place)
  match t.place with
  | .dev a => markFirst s (if t.chk then homeDie a else dieOf c) (a / 256)
  | _ => s

/-- LASTUSE over a sector (R88, R90): every die that holds the line marks it, and every stash copy goes. -/
def lastUseAll (s : State) (t : Target) : State :=
  let s := dropStash s (stashCores s) (onPlace t.place)
  match t.place with
  | .dev a => ([0, 1, 2, 3].filter fun d => (s.die d).lru.contains (a / 256)).foldl (fun s d => markFirst s d (a / 256)) s
  | _ => s

/-- LOAD_REPLY (R84): the value is bound and written; a fault found here is the load's own (R50, R69, R217, R252). -/
def runLoadReply (c id : Nat) (s : State) : State :=
  match opById s c id with
  | none => s
  | some o =>
    match o.body, o.target with
    | .load n signed d acq lu, some t =>
      let ops := mates s c o
      if earlierSame ops o then s.push (.loadReply c id) else
      match readTarget s (whoOp s c o) id t n o.atomic with
      | .wait s => s.push (.loadReply c id)
      | .bad p s => failAccess s c o p
      | .ok bs s =>
        let bs := overBuffer ops id t.place bs
        let s := updOpCtx (dropOp s c id) c o fun k => wr k d (loadValue n signed bs)
        let s := match acq with
          | some sc => updOpCtx (if sc = .sys then dropCachedPeers s c else s) c o region
          | none => s
        bumpOp (if lu then lastUse s o.bank t else s) c o
    | _, _ => s
def execLoadReply (core id : Nat) (s : State) : Out := took (runLoadReply core id s)

/-! Stores (R81, R84, R396). -/

/-- The issue of a store: its ALIGN, LADDR, XLATE and PERM are found here; then it enters the store buffer and retires. -/
def issueStore (ea : Word) (n : Nat) (v : Word) (g : Bool) (rel : Option Scope) (lu atomic : Bool) (s : State) : Res :=
  let (c, x) := s.cur
  let ops := opsOf s c x
  if ea.toNat % n ≠ 0 then .fault (stopAt .align ea) s
  else if acqPending ops ∨ rangePending ops ∨ ¬ tableRoom s c 1 ∨ bufferUsed s c ≥ 16 ∨ coveredBy s c x ops ea n then .wait s
  else
    match access s c x ea false true with
    | (.error p, s) => .fault p s
    | (.ok t, s) =>
      if configPending ops ∧ isGroup t then .wait s else .ret (bufferStore s ea t n v (g || t.gdef) rel lu atomic)

/-- ST (R81). -/
def execSt (o : BitVec 11) (g : Bool) (z : StSz) (a b : Reg) (s : State) : Out :=
  took (issue 4 none [a, b] (fun s =>
    issueStore (rd s.k a + o.signExtend 64 * BitVec.ofNat 64 (storeBytes z)) (storeBytes z) (rd s.k b) g none false false s) s)

/-- LSX store (R81-R83): a release at its scope when ORD says so. -/
def execLsxStore (l : LsxStore) (s : State) : Out :=
  took (issue 12 none [l.a, l.s] (fun s =>
    issueStore (rd s.k l.a + l.off.signExtend 64) (storeBytes l.w) (rd s.k l.s) l.g
      (if l.ord = .rel then some l.scope else none) l.lu (l.ord != .plain) s) s)

/-- An earlier store of the context to the same 8-byte word, still in the buffer (R84). -/
def earlierStore (ops : List Op) (o : Op) : Bool :=
  match o.target with
  | none => false
  | some t => ops.any fun q => q.id < o.id && q.status == 0 && q.done.isNone &&
      match q.body, q.target with
      | .store .., some u => overlaps (placeSub t.place ((placeKey t.place).2 % 8)) 8 u.place 8
      | _, _ => false

/-- A store that its die has to own the line for: accepted now, granted by the hub. With G=0 the die's cores read it from now on; with G=1
it is held, and no stash copy of its line serves the older value meanwhile (R223). -/
def acceptStore (s : State) (d c : Nat) (o : Op) (a : Nat) (bs : List Byte) (g : Bool) (via : Option (Nat × Target)) : State :=
  let s := s.updDie d fun k => { k with accepted := k.accepted ++ [⟨a, bs, g, c * 16 + o.ctx % 16, o.id, via⟩] }
  let s := if g then dropCopies s d (onLine (a / 256)) none else stashWrite (dropCopies s d (onSector (a / 64)) via) via bs
  let s := updOp s c o.id fun o => { o with
    done := (if g then none else some .die)
    body := match o.body with | .store n v g r l _ => .store n v g r l true | b => b }
  s.push (.ownershipRequest d (a / 256) o.id)

/-- A die may perform a store at once: it owns the line, which owes nothing, and nothing that it has accepted, and no other write with G=1,
waits there (R223-R225). -/
def lineQuiet (s : State) (d line : Nat) : Bool :=
  ownsLine s d line && !owes s line && !lineHeld s line && !(s.die d).accepted.any fun q => q.addr / 256 == line

/-- A store performed at its location (R223, R396). -/
def performStore (s : State) (c : Nat) (o : Op) (t : Target) (n : Nat) (v : Word) (g lu : Bool) : State :=
  let w := whoOp s c o
  let bs := natLE n v.toNat
  let after := fun (s : State) => if lu then lastUse s o.bank t else s
  let again := fun (s : State) => s.push (.storePerform c o.id)
  -- a window's sector is filled before the store writes it (R76)
  let present := match t.win with
    | none => Got.ok false s
    | some off => stashReady s w off t
  match present with
  | .wait s => again s
  | .bad p s => failStore s c o p
  | .ok _ s =>
    match t.place with
    | .loc h off =>
      if off ≥ bankEnd then
        if coreCut s w h then failStore s c o (stopAt .datalost 0) else dropOp (windowWrite s h off bs) c o.id
      else
        match reachWrite s w h off bs (viaOf w t) with
        | .wait s => again s
        | .bad p s => failStore s c o p
        | .ok _ s => after (dropOp s c o.id)
    | .dev a =>
      if moving s a then again s else
      let d := if t.chk then homeDie a else dieOf c
      match if t.chk then raceCheck s (a / 64) w true o.atomic o.addr else .ok s with
      | .error p => failStore (countRace s) c o p
      | .ok s =>
        let missed := (sectorAt s d (a / 64)).isNone
        if lineQuiet s d (a / 256) then
          match dieWrite s d a bs (viaOf w t) with
          | .wait s => again s
          | .bad p s => failStore s c o p
          | .ok _ s => after (dropOp (reached s w d a t missed) c o.id)
        else if homeLost s a ∨ dieCut s d = true then failStore s c o (stopAt .datalost 0)
        else after (acceptStore (reached s w d a t missed) d c o a bs g (if lu then none else viaOf w t))
    | .peer p f =>
      match peerWrite (countPeer s w o.id t) c o.id p f bs g with
      | .wait s => again s
      | .bad e s => failStore s c o e
      | .ok _ s => after (updOp s c o.id fun o => { o with
          body := match o.body with | .store n v g r l _ => .store n v g r l true | b => b })

/-- STORE_PERFORM (R84, R205, R396). -/
def runStorePerform (c id : Nat) (s : State) : State :=
  match opById s c id with
  | none => s
  | some o =>
    match o.body, o.target with
    | .store n v g rel lu false, some t =>
      let ops := mates s c o
      let earlierLoads := ops.any fun q => q.id < id && live q && (isLoad q || isAmo q)
      let held := relPending (ops.filter fun q => q.id < id)
      if o.status ≠ 0 then s
      else if earlierLoads ∨ held ∨ earlierStore ops o then s.push (.storePerform c id)
      else
        match rel with
        | none => performStore s c o t n v g lu
        | some sc =>
          if ¬ releaseReady ops id sc then s.push (.storePerform c id)
          else if sc = .sys ∧ (¬ (peerDirty s (dieOf c)).isEmpty ∨ s.sent.any fun r => r.core == wbCore (dieOf c)) then
            (sendPeerDirty s (dieOf c) (some (c, o.ctx, 0))).push (.storePerform c id)
          else performStore (updOpCtx (updOp s c id fun o => { o with
              body := .store n v g none lu false }) c o region) c o t n v g lu
    | _, _ => s
def execStorePerform (core id : Nat) (s : State) : Out := took (runStorePerform core id s)

/-! Stash control (R85-R87). -/

/-- The stash region for a size code (R75). -/
def stashStart (sz : Nat) : Nat := match sz with | 0 => 0x30000 | 1 => 0x2C000 | 2 => 0x28000 | _ => 0x20000

/-- A sector of the stash that is dirty and lies in a span. -/
def dirtyIn (off len : Nat) (e : Nat × StashSec) : Bool := e.2.dirty && off ≤ e.1 * 64 && e.1 * 64 < off + len

/-- The right that write-backs begun by a context need at the source of every dirty sector of a span (R54). -/
def flushRights (s : State) (c x off len : Nat) : Option Stop × State :=
  ((s.core c).stash.filter (dirtyIn off len)).foldl (fun r e => match r with
    | (some p, s) => (some p, s)
    | (none, s) => match accessBy s { whoOf s c x with bank := c } (localAddr (e.1 * 64)) false true with
      | (.error p, s) => (some p, s)
      | (.ok _, s) => (none, s)) (none, s)

/-- Every dirty sector of a span of the stash written back to its home for context `x`; the sectors become clean (R87). -/
def flushSpan (s : State) (c x off len : Nat) : State :=
  ((s.core c).stash.filter (dirtyIn off len)).foldl (fun s e =>
    let s := s.updCore c fun k => { k with stash := Tbl.put k.stash e.1 { e.2 with dirty := false } }
    match e.2.target.place with
    | .dev a => writeBack s (dieOf c) (a / 64) (some (c, x, 0))
    | _ => s) s

/-- A store through the window that is not performed, and its line not granted. -/
def storesThrough (s : State) (c off len : Nat) : Bool :=
  (s.core c).ops.any fun o => o.status == 0 && isStore o && match o.target with
    | some t => match t.win with | some w => off ≤ w && w < off + len | none => false
    | none => false

/-- What a flush waits for: stores through the window not yet performed, and cached peer sectors on their way. -/
def flushPending (s : State) (c x : Nat) (off len : Nat) : Bool :=
  storesThrough s c off len || s.sent.any fun r => r.core == wbCore (dieOf c)

/-- A flush of a span by context `x`: done when its write-backs are performed at their homes. -/
def flushAt (s : State) (c x off len : Nat) : Got Unit :=
  if storesThrough s c off len then .wait s else
  match flushRights s c x off len with
  | (some p, s) => .bad p s
  | (none, s) =>
    let s := flushSpan s c x off len
    if flushPending s c x off len then .wait s else .ok () s

/-- A window removed: its stash copies go, and the lines of its source that were answered uncached forget it (R79, R86). -/
def dropWindow (s : State) (c : Nat) (w : Window) : State :=
  let s := s.updCore c fun k =>
    { k with
      windows := k.windows.filter (· != w)
      stash := k.stash.filter fun e => !(w.off ≤ e.1 * 64 && e.1 * 64 < w.off + w.len) }
  match formOf s c c false true w.src with
  | .ok (.loc h o) => s.updCore h fun k =>
      let here := fun (line : Nat) => o / 256 ≤ line && line < (o + w.len) / 256
      { k with dirl := k.dirl.map fun l => if here l.1 then (l.1, { l.2 with uncached := l.2.uncached.filter (· != c) }) else l }
  | _ => s

/-- STMAP (R85). -/
def execStmap (b a d : Reg) (s : State) : Out :=
  took (issue 4 none [b, a, d] (fun s =>
    let c := s.cur.1
    let k := s.me
    let win := rd s.k a
    let src := rd s.k b
    let len := rd s.k d
    let off := field win 17 0
    let form := field src 63 62
    let own := form == 3 || (form != 0 && match formOf s c c false false src with | .ok (.loc t _) => t == c | _ => false)
    if field win 7 0 ≠ 0 ∨ field src 7 0 ≠ 0 ∨ field len 7 0 ≠ 0 ∨ len = 0 then .fault (stopAt .align win) s
    else if own then .fault (stopAt .laddr src) s
    else if field win 63 18 ≠ 0 ∨ off < stashStart k.stsz
        ∨ off + len.toNat > bankEnd then
      .fault { stopWhy .laddr 1 with eaddr := win } s
    else if k.windows.any (fun w => w.off < off + len.toNat && off < w.off + w.len) then .fault { stopWhy .laddr 2 with eaddr := win } s
    else if k.windows.length ≥ 8 then .fault { stopWhy .laddr 3 with eaddr := win } s
    else .ret (s.updCore c fun k => { k with windows := k.windows ++ [⟨off, len.toNat, src⟩] })) s)

/-- The window that begins at an offset. -/
def windowFrom (s : State) (c : Nat) (win : Word) : Option Window := (s.core c).windows.find? fun w => w.off == win.toNat

/-- STUNMAP (R86): it retires when the write-backs are performed at their homes. -/
def execStunmap (a : Reg) (s : State) : Out :=
  took (issue 4 none [a] (fun s =>
    let (c, x) := s.cur
    let v := rd s.k a
    match windowFrom s c v with
    | none => .fault { stopWhy .laddr 4 with eaddr := v } s
    | some w =>
      match flushAt s c x w.off w.len with
      | .wait s => .wait s
      | .bad p s => .fault p s
      | .ok _ s => .ret (dropWindow s c w)) s)

/-- STFLUSH (R87). -/
def execStflush (a : Reg) (s : State) : Out :=
  took (issue 4 none [a] (fun s =>
    let (c, x) := s.cur
    let v := rd s.k a
    let span := if a = 0 then some (0, bankEnd) else (windowFrom s c v).map fun w => (w.off, w.len)
    match span with
    | none => .fault { stopWhy .laddr 4 with eaddr := v } s
    | some (off, len) =>
      match flushAt s c x off len with
      | .wait s => .wait s
      | .bad p s => .fault p s
      | .ok _ s => .ret s) s)

/-- A write of STSZ (R75): flush, remove every window, set the size. -/
def writeStsz (s : State) (c x : Nat) (v : Word) : Got Unit :=
  match flushAt s c x 0 bankEnd with
  | .ok _ s =>
    let s := (s.core c).windows.foldl (fun s w => dropWindow s c w) s
    .ok () (s.updCore c fun k => { k with stsz := field v 1 0, stash := [] })
  | r => r

/-- STSZ_WRITE (R75): the move of a write of STSZ by the issuing core; nothing is written where a page denies the write-back. -/
def execStszWrite (v : Word) (s : State) : Out :=
  took (match writeStsz s s.cur.1 s.cur.2 v with
    | .ok _ t => t
    | .wait t => t.push (.stszWrite v)
    | .bad _ t => t)

/-! Range functions (R88-R90). -/

/-- Offsets of the pieces of a range that lie in one 64-byte sector each: the first byte of each. -/
def sectorsOf (a n : Nat) : List Nat :=
  if n = 0 then [] else (upFrom (a / 64) ((a + n - 1) / 64 + 1 - a / 64)).map fun i => max a (i * 64)

/-- Every page, window or place of a range resolved and checked, one target a sector; local bytes outside windows give none. -/
def rangeTargets (s : State) (c x : Nat) (reads writes : Bool) (eas : List Word) : Except Stop (List Target) × State :=
  match eas with
  | [] => (.ok [], s)
  | ea :: eas =>
    match access s c x ea reads writes with
    | (.error p, s) => (.error p, s)
    | (.ok t, s) =>
      match rangeTargets s c x reads writes eas with
      | (.error p, s) => (.error p, s)
      | (.ok ts, s) =>
        (.ok (match t.place, t.win with
          | .loc h _, none => if h = bankCore s c x then ts else t :: ts
          | _, _ => t :: ts), s)

/-- The issue of LASTUSE or DISCARD over a checked range: handed to the die cache as a background operation (R88). -/
def issueRange (discard : Bool) (ea : Word) (n : Nat) (s : State) : Res :=
  let (c, x) := s.cur
  if n = 0 then .ret s
  else if acqPending (opsOf s c x) ∨ ¬ tableRoom s c 1 then .wait s
  else
    match rangeTargets s c x (!discard) discard ((sectorsOf ea.toNat n).map fun a => BitVec.ofNat 64 a) with
    | (.error p, s) => .fault p s
    | (.ok ts, s) =>
      if ts.isEmpty then .ret s else
      let (id, s) := s.fresh
      .ret ((addOp s c (mkOp s id ea none (.range discard ts))).push (.backgroundRangeOperation c id))

/-- LASTUSE (R88, R90). -/
def execLastuse (b a : Reg) (s : State) : Out :=
  took (issue 4 none [b, a] (fun s => issueRange false (rd s.k a) (rd s.k b).toNat s) s)

/-- DISCARD (R88, R89). -/
def execDiscard (b a : Reg) (s : State) : Out :=
  took (issue 4 none [b, a] (fun s =>
    let ea := rd s.k a
    let n := (rd s.k b).toNat
    if n ≠ 0 ∧ (ea.toNat % 64 ≠ 0 ∨ n % 64 ≠ 0) then .fault (stopAt .align ea) s else issueRange true ea n s) s)

/-- PREF (R88): it may be dropped and has no effect on values; the model begins no fill for it. DESIGN CHOICE: log 26. -/
def execPref (b a : Reg) (s : State) : Out := took (issue 4 none [b, a] (fun s => .ret s) s)

/-- V_s of R89 at a sector: the value it held, or the value its home holds; the choice is free. Stash copies of it go with the other
value. -/
def discardSector (s : State) (t : Target) : State :=
  match t.place with
  | .dev a =>
    match (dirEntry s (a / 256)).owner with
    | none => s
    | some d =>
      match sectorAt s d (a / 64) with
      | none => s
      | some x =>
        if ¬ x.dirty then s else
        let (keep, s) := s.anyBit
        if keep || !isOwn a then s
        else
          let s := putSector s d (a / 64) { x with bytes := readBytes s.mem (a / 64 * 64) 64, dirty := false }
          wroteDev (dropCopies s d (onSector (a / 64)) none) a
  | _ => s

/-- A sector that DISCARD has to wait for: its line owes acknowledgements, or is being granted, so that the write of V_s is performed
everywhere when it is done (R89, R224). -/
def discardWaits (s : State) (t : Target) : Bool :=
  match t.place with
  | .dev a => owes s (a / 256) || lineHeld s (a / 256)
  | _ => false

/-- BACKGROUND_RANGE_OPERATION (R88-R90): after the context's earlier accesses to the range. -/
def runBackgroundRange (c id : Nat) (s : State) : State :=
  match opById s c id with
  | none => s
  | some o =>
    match o.body with
    | .range discard ts =>
      let ops := mates s c o
      if ops.any (fun q => q.id < id && q.status == 0 && (isLoad q || isStore q || isAmo q)) ∨ (discard = true ∧ ts.any (discardWaits s) = true) then
        s.push (.backgroundRangeOperation c id)
      else dropOp (ts.foldl (fun s t => if discard then discardSector s t else lastUseAll s t) s) c id
    | _ => s
def execBackgroundRangeOperation (core id : Nat) (s : State) : Out := took (runBackgroundRange core id s)

/-! Steps of the stash and the die cache. -/

/-- STASH_FILL (R76): the sector at a local offset of a core filled from its window's source, under the core's supervisor
context or its resident one; nothing where there is no window or its source cannot be reached. -/
def runStashFill (c off : Nat) (s : State) : State :=
  match windowAt s c off with
  | none => s
  | some w =>
    let x := s.cur.2
    match access s c x (localAddr off) true false with
    | (.error _, s) => s
    | (.ok t, s) =>
      match stashReady s (whoOf s c x) off t with
      | .ok _ s => s
      | .wait s => s.push (.stashFill c off)
      | .bad _ s => s
def execStashFill (core off : Nat) (s : State) : Out := took (runStashFill core off s)

/-- DIE_CACHE_EVICT (R72, R73): dirty sectors written back to their homes, stash copies invalidated first. -/
def runDieCacheEvict (d line : Nat) (s : State) : State :=
  if (s.die d).accepted.any (fun a => a.addr / 256 == line) then s.push (.dieCacheEvict d line) else evictLine s d line
def execDieCacheEvict (die line : Nat) (s : State) : Out := took (runDieCacheEvict die line s)

/-- DIRECTORY_OVERFLOW_EVENT (R79): the firmware's handler, which writes its SRAM, records the requester and sets OVF, or answers uncached; how full its table
is, the spec does not say: a free choice. -/
def runDirectoryOverflow (c line req : Nat) (s : State) : State :=
  let e := Tbl.read (s.core c).dirl line {}
  let (room, s) := s.anyBit
  let e := if room then { e with ovf := true, table := if e.table.any (· == req) then e.table else e.table ++ [req] }
    else { e with uncached := if e.uncached.any (· == req) then e.uncached else e.uncached ++ [req] }
  s.updCore c fun k => { k with dirl := Tbl.put k.dirl line e, sramGen := k.sramGen + 1 }
def execDirectoryOverflowEvent (core line requester : Nat) (s : State) : Out :=
  took (runDirectoryOverflow core line requester s)

/-- DIRECTORY_OVF_WRITE (R79): pointed and table sharers invalidated, then OVF cleared; the write that waits goes on. -/
def runDirectoryOvfWrite (c line : Nat) (s : State) : State :=
  let e := Tbl.read (s.core c).dirl line {}
  let s := dropStash s (e.ptrs ++ e.table) fun t =>
    match t.target.place with | .loc h o => h == c && o / 256 == line | _ => false
  s.updCore c fun k => { k with dirl := Tbl.put k.dirl line { e with ptrs := [], table := [], ovf := false }, sramGen := k.sramGen + 1 }
def execDirectoryOvfWrite (core line : Nat) (s : State) : Out := took (runDirectoryOvfWrite core line s)

end Sys2Proof.Machine
end

