-- ==== Sys2Proof/Machine/Csr.lean ====
section
/-!
DEFINITION. The CSRs (R46, R47): what each reads as, what a write changes, and the rows CSRRD to CSRCLR with the writes that
have behaviour of their own (R61, R75, R137, R143, R220, R344).
-/
set_option linter.all false
namespace Sys2Proof.Machine
open Sys2Proof

/-- A row that the decoder's later checks refuse before its operands are waited for (R42). -/
def refusedBy (i : Instr) (bad : Option Cause) (t : State → State) (s : State) : State :=
  match bad with
  | some c => finish 4 none (illegal c (word0 i) s)
  | none => t s

/-! Reading (R125, R136, R137, R143, R145, R220, R306, R311, R342, R344, R353, R380). -/

/-- CTX (R311). -/
def ctxWord (s : State) (x : Nat) (k : Ctx) : Word :=
  let n := match k.away with | some h => h.2 | none => x
  match k.home with
  | some (g, some a) => BitVec.ofNat 64 (a % 2 ^ 17 * 8192 + bitN (a == (s.dom g).super) * 32 + n)
  | some (_, none) => BitVec.ofNat 64 (0x1FFFF * 8192 + 16 + n)
  | none => BitVec.ofNat 64 n

/-- COORD (R125). -/
def coordWord (s : State) (c : Nat) : Word := BitVec.ofNat 64 (s.pkid * 2 ^ 29 + dieOf c * 2 ^ 25 + c)

/-- What a CSR reads as for context `x` of core `c`. -/
def csrGet (s : State) (c x : Nat) (n : CsrName) : Word :=
  let k := s.ctx c x
  let b := s.core (bankCore s c x)
  match n with
  | .fpc => k.fpc
  | .fpf => k.fpf
  | .nbv => BitVec.ofNat 64 k.nbv
  | .qtlo => b.qtlo
  | .qthi => b.qthi
  | .coord => coordWord s c
  | .widl => k.widl
  | .dgx => BitVec.ofNat 64 k.dgx
  | .dgy => BitVec.ofNat 64 k.dgy
  | .dox => BitVec.ofNat 64 k.dox
  | .doy => BitVec.ofNat 64 k.doy
  | .ctx => ctxWord s x k
  | .gtid => gtidOf k
  | .supv => k.supv
  | .tvec => k.tvec
  | .epc => k.epc
  | .ecause => k.ecause
  | .eaddr => k.eaddr
  | .einfo => k.einfo
  | .estat => k.estat
  | .reix => k.reix
  | .wins => k.wins
  | .stsz => BitVec.ofNat 64 (s.core c).stsz
  | .dqbase => (s.core c).dqbase
  | .migth => BitVec.ofNat 64 s.migth
  | .agesh => BitVec.ofNat 64 s.agesh
  | .pcap => BitVec.ofNat 64 s.pcap
  | .devcap => s.devcap
  | .pmc i => Tbl.read (s.core c).pmc i.toNat 0
  | .pmcsel => (s.core c).pmcsel
  | .rchk => BitVec.ofNat 64 (s.races * 65536 + bitN s.rchkEn)

/-! Access rights (R47). -/

/-- CSRs that no code writes. -/
def csrConst (n : CsrName) : Bool :=
  match n with
  | .coord | .widl | .dgx | .dgy | .dox | .doy | .ctx | .gtid | .supv | .devcap => true
  | _ => false

/-- CSRs that only supervisor code writes. -/
def csrPriv (n : CsrName) : Bool :=
  match n with
  | .stsz | .dqbase | .migth | .agesh | .pcap | .pmc _ | .pmcsel | .rchk => true
  | _ => false

/-- Steps 5 and 6 of R42 for an access. -/
def csrRefused (s : State) (writes : Bool) (n : CsrName) : Option Cause :=
  if writes && (csrConst n || csrPriv n) && !isSuper s s.k then some .priv
  else match n with
    | .rchk => if s.rchkPresent then none else some .absent
    | _ => none

/-! Writing. -/

/-- A write of FPC: RND keeps its value when 000, 110 or 111 is written (R136). -/
def putFpc (old v : Word) : Word :=
  let r := field v 2 0
  let keep := r = 0 ∨ r ≥ 6
  BitVec.ofNat 64 (field v 8 3 * 8 + (if keep then field old 2 0 else r))

/-- A write of PMCSEL: a code above 0x11 stores 0 (R380). -/
def putPmcsel (v : Word) : Word :=
  let code := fun i => let e := field v (8 * i + 7) (8 * i); if e > 0x11 then 0 else e
  BitVec.ofNat 64 (field v 37 32 * 2 ^ 32 + code 3 * 2 ^ 24 + code 2 * 65536 + code 1 * 256 + code 0)

/-- A write of ESTAT keeps its read-only bits ENG and PARK (R353). -/
def putEstat (old v : Word) : Word :=
  BitVec.ofNat 64 (field old 23 23 * 2 ^ 23 + field v 22 2 * 4 + field old 1 1 * 2 + field v 0 0)

/-- A write of WINS (R116). -/
def putWins (v : Word) : Word :=
  BitVec.ofNat 64 (field v 36 36 * 2 ^ 36 + field v 35 25 * 2 ^ 25 + field v 17 7 * 128)

/-- MIGTH (R60, R61). -/
def setMigth (v : Word) (s : State) : State := { s with migth := field v 15 0, migCount := [], migPage := [] }

/-- RCHK (R220): CLR, or a change of EN, clears every tag. -/
def clearTags (s : State) : State := { s with tags := [] }
def setRchkEn (en : Bool) (s : State) : State := if en = s.rchkEn then s else clearTags { s with rchkEn := en }

/-- PCAP (R344): clamped to 500 and the design power. -/
def setPcap (v : Word) (s : State) : State := { s with pcap := min (max (field v 15 0) 500) s.designPower }

/-- Whether a queued command decodes q4 (R143). -/
def readsQ4 (o : Op) : Bool :=
  live o && match o.body with
    | .vec c => c.v.ty == .q4 || c.fn == .vqexp
    | .mat c => (c.fn == .mma || c.fn == .mmag) && (c.m.ta == .q4 || c.m.tb == .q4)
    | _ => false

/-- Commands of a firing that are kept, or stopped, until it goes on (R163, R195). -/
def keptOf (k : Ctx) : List Op := k.kept ++ match k.park with | some (.command o) => [o] | _ => []

/-- Whether a command of a core that was accepted and reads q4 has not ended: one of its table, or of a parked or saved firing (R143). -/
def tableBusy (s : State) (c : Nat) : Bool :=
  (s.core c).ops.any readsQ4 || ((s.core c).ctxs.any fun e => (keptOf e.2).any readsQ4)
    || (s.die (dieOf c)).slots.any fun v => v.2.homeCore == c && (keptOf v.2.ctx).any readsQ4

/-- A write of QTLO or QTHI of a core waits for the commands that read q4 (R143). -/
def setTable (c : Nat) (hi : Bool) (v : Word) (s : State) : Option State :=
  if tableBusy s c then none
  else some (s.updCore c fun k => if hi then { k with qthi := v } else { k with qtlo := v })

/-- What an access of FPF, or a write of FPC, waits for: the context's vector and matrix commands and AFADD replies (R137, R234). -/
def fpBusy (s : State) (c x : Nat) : Bool :=
  (opsOf s c x).any fun o => live o && (isVec o || isMat o || match o.body with | .amo 10 .. => true | _ => false)

/-- A write of a CSR by context `x` of core `c`; none while it has to wait. -/
def csrPut (s : State) (c x : Nat) (n : CsrName) (v : Word) : Option State :=
  let upd := fun (f : Ctx → Ctx) => some (s.updCtx c x f)
  match n with
  | .fpc => if fpBusy s c x then none else upd fun k => { k with fpc := putFpc k.fpc v }
  | .fpf => if fpBusy s c x then none else upd fun k => { k with fpf := BitVec.ofNat 64 (field v 5 0) }
  | .nbv => upd fun k => { k with nbv := if field v 1 0 = 0 then k.nbv else field v 1 0 }
  | .qtlo => setTable (bankCore s c x) false v s
  | .qthi => setTable (bankCore s c x) true v s
  | .tvec => upd fun k => { k with tvec := BitVec.ofNat 64 (field v 17 2 * 4) }
  | .epc => upd fun k => { k with epc := BitVec.ofNat 64 (field v 17 2 * 4) }
  | .ecause => upd fun k => { k with ecause := BitVec.ofNat 64 (field v 7 0) }
  | .eaddr => upd fun k => { k with eaddr := v }
  | .einfo => upd fun k => { k with einfo := v }
  | .estat => upd fun k => { k with estat := putEstat k.estat v }
  | .reix => upd fun k => { k with reix := BitVec.ofNat 64 (field v 31 0) }
  | .wins => upd fun k => { k with wins := putWins v }
  | .stsz => match writeStsz s c x v with | .ok _ s => some s | .wait _ => none | .bad _ s => some s
  | .dqbase => some (s.updCore c fun k =>
      { k with dqbase := BitVec.ofNat 64 (field v 35 24 * 2 ^ 24 + field v 17 6 * 64) })
  | .migth => some (setMigth v s)
  | .agesh => some { s with agesh := field v 4 0 }
  | .pcap => some (setPcap v s)
  | .pmc i => some (s.updCore c fun k => { k with pmc := Tbl.put k.pmc i.toNat v })
  | .pmcsel => some (s.updCore c fun k => { k with pmcsel := putPmcsel v })
  | .rchk => some (if s.rchkPresent then setRchkEn (v.getLsbD 0) (if v.getLsbD 1 then clearTags s else s) else s)
  | .coord | .widl | .dgx | .dgy | .dox | .doy | .ctx | .gtid | .supv | .devcap => some s

/-- A write that waits still begins its write-backs (R75). -/
def csrBegin (s : State) (c x : Nat) (n : CsrName) (v : Word) : State :=
  match n with
  | .stsz => match writeStsz s c x v with | .wait s => s | _ => s
  | _ => s

/-- A write of STSZ begins write-backs, which need WR (R54). -/
def csrDenied (s : State) (c x : Nat) (n : CsrName) : Option Stop × State :=
  match n with
  | .stsz => if storesThrough s c 0 bankEnd then (none, s) else flushRights s c x 0 bankEnd
  | _ => (none, s)

/-! The instructions (R46). -/

/-- A read; FPF waits for the context's earlier commands (R137). -/
def csrRead (n : CsrName) (d : Reg) (s : State) : Res :=
  let (c, x) := s.cur
  if n = .fpf ∧ fpBusy s c x then .wait s else .ret (s.wrK d (csrGet s c x n))

/-- A write of `f old A`, with the old value into `d` when there is one. -/
def csrWrite (n : CsrName) (f : Word → Word) (d : Option Reg) (s : State) : Res :=
  let (c, x) := s.cur
  let old := csrGet s c x n
  if n = .fpf ∧ fpBusy s c x then .wait s else
  match csrDenied s c x n with
  | (some p, s) => .fault p s
  | (none, s) =>
    match csrPut s c x n (f old) with
    | none => .wait (csrBegin s c x n (f old))
    | some s => .ret (match d with | some d => s.wrK d old | none => s)

/-- CSRRD. -/
def execCsrrd (n : CsrName) (d : Reg) (s : State) : Out :=
  took (refusedBy (.csrrd n d) (csrRefused s false n) (issue 4 (some d) [] (csrRead n d)) s)
/-- CSRWR. -/
def execCsrwr (n : CsrName) (a : Reg) (s : State) : Out :=
  took (refusedBy (.csrwr n a) (csrRefused s true n) (issue 4 none [a] (fun s => csrWrite n (fun _ => rd s.k a) none s)) s)
/-- CSRSW. -/
def execCsrsw (n : CsrName) (a d : Reg) (s : State) : Out :=
  took (refusedBy (.csrsw n a d) (csrRefused s true n)
    (issue 4 (some d) [a] (fun s => csrWrite n (fun _ => rd s.k a) (some d) s)) s)
/-- CSRSET. -/
def execCsrset (n : CsrName) (a d : Reg) (s : State) : Out :=
  took (refusedBy (.csrset n a d) (csrRefused s true n)
    (issue 4 (some d) [a] (fun s => csrWrite n (fun o => o ||| rd s.k a) (some d) s)) s)
/-- CSRCLR. -/
def execCsrclr (n : CsrName) (a d : Reg) (s : State) : Out :=
  took (refusedBy (.csrclr n a d) (csrRefused s true n)
    (issue 4 (some d) [a] (fun s => csrWrite n (fun o => o &&& ~~~rd s.k a) (some d) s)) s)

/-! The writes with behaviour of their own, as moves. -/

/-- MIGTH_WRITE (R61). -/
def execMigthWrite (v : Word) (s : State) : Out := took (setMigth v s)
/-- RCHK_CLR (R220); nothing where the part has no race checker (R6). -/
def execRchkClr (s : State) : Out := took (if s.rchkPresent then clearTags s else s)
/-- RCHK_EN_WRITE (R220). -/
def execRchkEnWrite (en : Bool) (s : State) : Out := took (if s.rchkPresent then setRchkEn en s else s)
/-- PCAP_WRITE (R344). -/
def execPcapWrite (v : Word) (s : State) : Out := took (setPcap v s)
/-- QTABLE_WRITE (R143), of the issuing context's home core. -/
def execQtableWrite (hi : Bool) (v : Word) (s : State) : Out :=
  took (attempt (.qtableWrite hi v) (setTable (bankCore s s.cur.1 s.cur.2) hi v s) s)

/-- FP_CSR_ACCESS (R137), by the issuing context. -/
def fpAccess (acc : FpAcc) (s : State) : Option State :=
  let (c, x) := s.cur
  match acc with
  | .readFpf d => if fpBusy s c x then none else some (s.wrK d s.k.fpf)
  | .writeFpf v => csrPut s c x .fpf v
  | .writeFpc v => csrPut s c x .fpc v
def execFpCsrAccess (acc : FpAcc) (s : State) : Out := took (attempt (.fpCsrAccess acc) (fpAccess acc s) s)

/-! Counters (R381). -/

/-- CNTRD. -/
def execCntrd (n : BitVec 5) (d : Reg) (s : State) : Out :=
  took (issue 4 (some d) [] (fun s => .ret (s.wrK d (Tbl.read s.me.pmc n.toNat 0))) s)

end Sys2Proof.Machine
end

