-- ==== Sys2Proof/Machine/Numeric.lean ====
section
/-!
DEFINITION. Number formats (R133-R144): decoding every element type into an exact value, exact arithmetic on values,
rounding and conversion back into bits with the flags raised, comparison, selection and the reference algorithms of R172.
-/
set_option linter.all false
namespace Sys2Proof.Machine
open Sys2Proof

/-- An exact value: a finite (-1)^neg * m * 2^e, whose magnitude is a little more when `sticky` is set (the rest of a quotient
or root); an infinity; a NaN, signalling or quiet; or NaR. -/
inductive Num where
  | fin (neg : Bool) (m : Nat) (e : Int) (sticky : Bool)
  | inf (neg : Bool)
  | nan (sig : Bool)
  | nar
  deriving DecidableEq, Repr

/-- FPF bits (R137). -/
def fIV : Nat := 1
def fDZ : Nat := 2
def fOF : Nat := 4
def fUF : Nat := 8
def fIX : Nat := 16
def fNR : Nat := 32

/-- Exponent and fraction bits of an IEEE format. -/
structure Ieee where
  eb : Nat
  fb : Nat

def ieeeOf (t : ElemTy) : Ieee :=
  match t with
  | .f64 => ⟨11, 52⟩
  | .bf16 => ⟨8, 7⟩
  | .f16 => ⟨5, 10⟩
  | _ => ⟨8, 23⟩

def Ieee.bias (f : Ieee) : Nat := 2 ^ (f.eb - 1) - 1
/-- Pattern of an infinity without its sign. -/
def Ieee.infBits (f : Ieee) : Nat := (2 ^ f.eb - 1) * 2 ^ f.fb
/-- The canonical quiet NaN (R134). -/
def Ieee.nanBits (f : Ieee) : Nat := f.infBits + 2 ^ (f.fb - 1)
def Ieee.signBit (f : Ieee) : Nat := 2 ^ (f.eb + f.fb)

/-- An IEEE pattern as a value (R133, R134). -/
def decodeIeee (f : Ieee) (p : Nat) : Num :=
  let neg := p / f.signBit % 2 == 1
  let ex := p / 2 ^ f.fb % 2 ^ f.eb
  let fr := p % 2 ^ f.fb
  if ex = 2 ^ f.eb - 1 then (if fr = 0 then .inf neg else .nan (fr / 2 ^ (f.fb - 1) == 0))
  else if ex = 0 then .fin neg fr (1 - f.bias - f.fb) false
  else .fin neg (2 ^ f.fb + fr) (ex - f.bias - f.fb) false

/-- Length of the run of equal bits from bit `i` - 1 downward in a tapered pattern. -/
def runLen (p : Nat) (b : Bool) : Nat → Nat
  | 0 => 0
  | i + 1 => if p.testBit i == b then runLen p b i + 1 else 0

/-- A tapered pattern of `n` bits as a value (R139). -/
def decodeTapered (n p : Nat) : Num :=
  if p = 0 then .fin false 0 0 false
  else if p = 2 ^ (n - 1) then .nar
  else
    let neg := p.testBit (n - 1)
    let q := if neg then (2 ^ n - p) % 2 ^ n else p
    let b := q.testBit (n - 2)
    let m := runLen q b (n - 1)
    let k : Int := if b then m - 1 else -m
    -- bits left after the run and its ending bit
    let rest := n - 1 - m - 1
    let e := if rest = 0 then 0 else bitN (q.testBit (rest - 1))
    let fb := rest - 1
    .fin neg (2 ^ fb + q % 2 ^ fb) (2 * k + e - fb) false

/-- Bits of a tapered type. -/
def taperBits (t : ElemTy) : Nat := if t = .t6 then 6 else 8

/-- A float or tapered pattern as a value. -/
def decodeF (t : ElemTy) (p : Nat) : Num :=
  if isTapered t then decodeTapered (taperBits t) p else decodeIeee (ieeeOf t) p

/-! Rounding (R135). -/

/-- Bits of a number. -/
def bitLen (m : Nat) : Nat := if m = 0 then 0 else Nat.log2 m + 1

/-- Whether the kept part of a magnitude is raised by one: `rem` out of `2^sh` below it, and perhaps more. -/
def roundUp (mode : Rm) (neg : Bool) (kept rem sh : Nat) (sticky : Bool) : Bool :=
  let half := 2 ^ sh
  match mode with
  | .dyn | .rne => 2 * rem > half || (2 * rem == half && sh != 0 && (sticky || kept % 2 == 1))
  | .rna => 2 * rem ≥ half && sh != 0
  | .rtz => false
  | .rdn => neg && (rem != 0 || sticky)
  | .rup => !neg && (rem != 0 || sticky)

/-- A magnitude at a quantum of 2^q: what is kept, whether anything was lost, and the rounded count. -/
def quantize (mode : Rm) (neg : Bool) (m : Nat) (e q : Int) (sticky : Bool) : Nat × Bool :=
  if q ≤ e then (m * 2 ^ (e - q).toNat, sticky)
  else
    let sh := (q - e).toNat
    let kept := m / 2 ^ sh
    let rem := m % 2 ^ sh
    (kept + bitN (roundUp mode neg kept rem sh sticky), rem != 0 || sticky)

/-- Round of R135 into an IEEE format: bits and flags. -/
def roundIeee (f : Ieee) (mode : Rm) (v : Num) : Nat × Nat :=
  match v with
  | .nan _ | .nar => (f.nanBits, 0)
  | .inf neg => (bitN neg * f.signBit + f.infBits, 0)
  | .fin neg m e sticky =>
    let sign := bitN neg * f.signBit
    if m = 0 ∧ ¬ sticky then (sign, 0) else
    let top := e + bitLen m - 1
    let emin : Int := 1 - f.bias
    let q := max (top - f.fb) (emin - f.fb)
    let (n, inexact) := quantize mode neg m e q sticky
    let (n, q) := if n = 2 ^ (f.fb + 1) then (2 ^ f.fb, q + 1) else (n, q)
    let ex : Int := q + f.fb + f.bias
    if n ≥ 2 ^ f.fb ∧ ex > (2 ^ f.eb - 2 : Nat) then
      let big := match mode with
        | .rtz => false
        | .rdn => neg
        | .rup => !neg
        | _ => true
      (sign + (if big then f.infBits else f.infBits - 1), fOF + fIX)
    else
      (sign + (if n < 2 ^ f.fb then n else ex.toNat * 2 ^ f.fb + (n - 2 ^ f.fb)),
        if inexact then fIX + (if top < emin then fUF else 0) else 0)

/-- Comparison of magnitudes m * 2^e: less, equal or greater. -/
def cmpMag (m : Nat) (e : Int) (ms : Bool) (n : Nat) (d : Int) (ns : Bool) : Ordering :=
  let lo := min e d
  let a := m * 2 ^ (e - lo).toNat
  let b := n * 2 ^ (d - lo).toNat
  if a < b then .lt else if a > b then .gt else compare (bitN ms) (bitN ns)

/-- Magnitude of a positive tapered pattern. -/
def taperMag (n p : Nat) : Nat × Int :=
  match decodeTapered n p with
  | .fin _ m e _ => (m, e)
  | _ => (0, 0)

/-- The largest positive pattern, at or below `p`, whose value does not exceed a magnitude. -/
def taperFloor (n m : Nat) (e : Int) (st : Bool) : Nat → Nat
  | 0 => 0
  | p + 1 =>
    let v := taperMag n (p + 1)
    if cmpMag v.1 v.2 false m e st != .gt then p + 1 else taperFloor n m e st p

/-- Conversion into a tapered type (R141): bits and flags. -/
def roundTapered (t : ElemTy) (v : Num) : Nat × Nat :=
  let n := taperBits t
  match v with
  | .nar => (2 ^ (n - 1), 0)
  | .nan _ | .inf _ => (2 ^ (n - 1), fIV + fNR)
  | .fin neg m e st =>
    if m = 0 ∧ ¬ st then (0, 0) else
    let sgn := fun p => if neg then (2 ^ n - p) % 2 ^ n else p
    let top := 2 ^ (n - 1) - 1
    let big := taperMag n top
    let small := taperMag n 1
    if cmpMag m e st big.1 big.2 false == .gt then (sgn top, fOF + fIX)
    else if cmpMag m e st small.1 small.2 false == .lt then (sgn 1, fUF + fIX)
    else
      let p := taperFloor n m e st top
      let v := taperMag n p
      if cmpMag v.1 v.2 false m e st == .eq then (sgn p, 0)
      else
        -- v and w are the neighbours: compare with their midpoint (v + w) / 2
        let w := taperMag n (p + 1)
        let lo := min v.2 w.2
        let mid := v.1 * 2 ^ (v.2 - lo).toNat + w.1 * 2 ^ (w.2 - lo).toNat
        match cmpMag m e st mid (lo - 1) false with
        | .lt => (sgn p, fIX)
        | .gt => (sgn (p + 1), fIX)
        | .eq => (sgn (if p % 2 = 0 then p else p + 1), fIX)

/-- A result delivered into a float or tapered type, with the flags it has already raised (R135, R141). -/
def deliver (t : ElemTy) (mode : Rm) (v : Num × Nat) : Nat × Nat :=
  let r := if isTapered t then roundTapered t v.1 else roundIeee (ieeeOf t) mode v.1
  (r.1, r.2 ||| v.2)

/-! Exact arithmetic with the special cases of R150. -/

/-- IV for a signalling NaN (R134) and NR for a NaR (R142) among the operands. -/
def readFlags (vs : List Num) : Nat :=
  (if vs.any (· == .nan true) then fIV else 0) + (if vs.any (· == .nar) then fNR else 0)

/-- The result when an operand is a NaN or NaR; none when none is. -/
def nanResult (vs : List Num) : Option (Num × Nat) :=
  if vs.any (· == .nar) then some (.nar, readFlags vs)
  else if vs.any (fun v => v == .nan true || v == .nan false) then some (.nan false, readFlags vs)
  else none

def invalid : Num × Nat := (.nan false, fIV)

def numNeg (v : Num) : Num :=
  match v with
  | .fin s m e t => .fin (!s) m e t
  | .inf s => .inf !s
  | v => v

/-- a + b; an exact zero takes the sign of R135. -/
def numAdd (mode : Rm) (a b : Num) : Num × Nat :=
  match nanResult [a, b] with
  | some r => r
  | none =>
    match a, b with
    | .inf s, .inf t => if s == t then (.inf s, 0) else invalid
    | .inf s, _ => (.inf s, 0)
    | _, .inf t => (.inf t, 0)
    | .fin s m e _, .fin t n d _ =>
      let lo := min e d
      let x : Int := (if s then -1 else 1) * (m * 2 ^ (e - lo).toNat : Nat)
      let y : Int := (if t then -1 else 1) * (n * 2 ^ (d - lo).toNat : Nat)
      let z := x + y
      if z = 0 then (.fin (if s == t then s else mode == .rdn) 0 lo false, 0)
      else (.fin (z < 0) z.natAbs lo false, 0)
    | _, _ => invalid

/-- a * b. -/
def numMul (a b : Num) : Num × Nat :=
  match nanResult [a, b] with
  | some r => r
  | none =>
    match a, b with
    | .inf s, .inf t => (.inf (s != t), 0)
    | .inf s, .fin t n _ _ => if n = 0 then invalid else (.inf (s != t), 0)
    | .fin s m _ _, .inf t => if m = 0 then invalid else (.inf (s != t), 0)
    | .fin s m e _, .fin t n d _ => (.fin (s != t) (m * n) (e + d) false, 0)
    | _, _ => invalid

/-- a / b, with at least 70 bits of quotient and the rest sticky. -/
def numDiv (a b : Num) : Num × Nat :=
  match nanResult [a, b] with
  | some r => r
  | none =>
    match a, b with
    | .inf _, .inf _ => invalid
    | .inf s, .fin t _ _ _ => (.inf (s != t), 0)
    | .fin s _ _ _, .inf t => (.fin (s != t) 0 0 false, 0)
    | .fin s m e _, .fin t n d _ =>
      if n = 0 then (if m = 0 then invalid else (.inf (s != t), fDZ))
      else
        let k := 70 + bitLen n
        (.fin (s != t) (m * 2 ^ k / n) (e - d - k) (m * 2 ^ k % n != 0), 0)
    | _, _ => invalid

/-- Integer square root, bit by bit from bit `n` - 1. -/
def isqrtFrom (m : Nat) : Nat → Nat → Nat
  | 0, r => r
  | n + 1, r => let t := r + 2 ^ n; isqrtFrom m n (if t * t ≤ m then t else r)

/-- Magnitude scaled to an even exponent with at least 140 bits. -/
def evenScale (m : Nat) (e : Int) : Nat × Int :=
  let k := 140 + (e % 2).toNat
  (m * 2 ^ k, e - k)

/-- The square root. -/
def numSqrt (a : Num) : Num × Nat :=
  match nanResult [a] with
  | some r => r
  | none =>
    match a with
    | .fin s m e _ =>
      if m = 0 then (.fin s 0 0 false, 0)
      else if s then invalid
      else
        let (n, d) := evenScale m e
        let r := isqrtFrom n (bitLen n / 2 + 1) 0
        (.fin false r (d / 2) (r * r != n), 0)
    | .inf s => if s then invalid else (.inf false, 0)
    | _ => invalid

/-- 1 / √a (R167): ±0 gives ±∞ with DZ. -/
def numRsqrt (a : Num) : Num × Nat :=
  match nanResult [a] with
  | some r => r
  | none =>
    match a with
    | .fin s m e _ =>
      if m = 0 then (.inf s, fDZ)
      else if s then invalid
      else
        let e' := e - e % 2
        let n := m * 2 ^ (e % 2).toNat
        -- 1/√(n 2^e') = √(2^(2k)/n) 2^(-k-e'/2)
        let k := 70 + bitLen n
        let r := isqrtFrom (2 ^ (2 * k) / n) (k + 1) 0
        (.fin false r (-k - e' / 2) (r * r * n != 2 ^ (2 * k)), 0)
    | .inf s => if s then invalid else (.fin false 0 0 false, 0)
    | _ => invalid

/-- Flags of two steps together. -/
def also (fl : Nat) (r : Num × Nat) : Num × Nat := (r.1, r.2 ||| fl)

/-- a * b + c, fused. -/
def numFma (mode : Rm) (a b c : Num) : Num × Nat :=
  let p := numMul a b
  also p.2 (numAdd mode p.1 c)

/-- a + c * (b - a), term by term for special values (R167). -/
def numLerp (mode : Rm) (a b c : Num) : Num × Nat :=
  match nanResult [a, b, c] with
  | some r => r
  | none =>
    let d := numAdd mode b (numNeg a)
    let p := numMul c d.1
    also (d.2 ||| p.2) (numAdd mode a p.1)

def isNan (v : Num) : Bool :=
  match v with
  | .nan _ | .nar => true
  | _ => false

/-- The order of two values that are no NaN, with −0 = +0. -/
def numCmp (a b : Num) : Ordering :=
  match a, b with
  | .inf s, .inf t => if s == t then .eq else if s then .lt else .gt
  | .inf s, _ => if s then .lt else .gt
  | _, .inf t => if t then .gt else .lt
  | .fin s m e _, .fin t n d _ =>
    let lo := min e d
    let x : Int := (if s then -1 else 1) * (m * 2 ^ (e - lo).toNat : Nat)
    let y : Int := (if t then -1 else 1) * (n * 2 ^ (d - lo).toNat : Nat)
    compare x y
  | _, _ => .eq

def signOf (v : Num) : Bool :=
  match v with
  | .fin s .. | .inf s => s
  | _ => false

/-- FMIN and FMAX (R150) on patterns: −0 is below +0, a single NaN gives way, two give the canonical one. -/
def selectF (t : ElemTy) (isMax : Bool) (p q : Nat) : Nat × Nat :=
  let a := decodeF t p
  let b := decodeF t q
  let fl := readFlags [a, b]
  let canon := if isTapered t then 2 ^ (taperBits t - 1) else (ieeeOf t).nanBits
  match isNan a, isNan b with
  | true, true => (canon, fl)
  | true, false => (q, fl)
  | false, true => (p, fl)
  | false, false =>
    let lt := match numCmp a b with
      | .lt => true
      | .gt => false
      | .eq => signOf a && !signOf b
    (if lt != isMax then p else q, fl)

/-! Integers (R144). -/

/-- Least and greatest value of an integer type. -/
def intRange (t : ElemTy) : Int × Int :=
  let w := match t with
    | .s8 | .n8 => 8
    | .s16 | .n16 => 16
    | .s32 | .n32 => 32
    | _ => 64
  if isSigned t then (-(2 ^ (w - 1) : Int), 2 ^ (w - 1) - 1) else (0, 2 ^ w - 1)

def intBits (t : ElemTy) : Nat :=
  match t with
  | .s8 | .n8 => 8
  | .s16 | .n16 => 16
  | .s32 | .n32 => 32
  | _ => 64

/-- A pattern of an integer type as an integer. -/
def decodeI (t : ElemTy) (p : Nat) : Int :=
  let w := intBits t
  let p := p % 2 ^ w
  if isSigned t ∧ p ≥ 2 ^ (w - 1) then (p : Int) - 2 ^ w else p

/-- An integer modulo 2^w as a pattern. -/
def wrapI (t : ElemTy) (x : Int) : Nat := (x % (2 ^ intBits t : Nat)).toNat

/-- Sat of R144: pattern and flags. -/
def satI (t : ElemTy) (x : Int) : Nat × Nat :=
  let (lo, hi) := intRange t
  if x < lo then (wrapI t lo, fOF) else if x > hi then (wrapI t hi, fOF) else (wrapI t x, 0)

/-- An integer result, wrapped or saturated. -/
def deliverI (t : ElemTy) (sat : Bool) (x : Int) : Nat × Nat := if sat then satI t x else (wrapI t x, 0)

/-- A float or tapered value into an integer type (R144). -/
def toIntTy (t : ElemTy) (mode : Rm) (v : Num) : Nat × Nat :=
  let (lo, hi) := intRange t
  match v with
  | .nan _ => (0, fIV)
  | .nar => (0, fIV + fNR)
  | .inf s => (wrapI t (if s then lo else hi), fIV)
  | .fin s m e st =>
    let (n, inexact) := quantize mode s m e 0 st
    let x : Int := if s then -n else n
    if x < lo then (wrapI t lo, fIV) else if x > hi then (wrapI t hi, fIV)
    else (wrapI t x, if inexact then fIX else 0)

/-- An integer as an exact value. -/
def ofInt (x : Int) : Num := .fin (x < 0) x.natAbs 0 false

/-! Conversions (R151, R171). -/

/-- A float or tapered source converted into a float or tapered target. -/
def convertF (src dst : ElemTy) (mode : Rm) (p : Nat) : Nat × Nat :=
  let v := decodeF src p
  if isTapered dst then
    -- a NaR moves without a flag; a NaN sets IV and NR (R141)
    roundTapered dst v
  else
    let r := roundIeee (ieeeOf dst) mode v
    (r.1, r.2 ||| readFlags [v])

/-- VCVT (R171) of one pattern; `q4` gives the table value of a code. -/
def convert (src dst : ElemTy) (sat : Bool) (mode : Rm) (q4 : Nat → Int) (p : Nat) : Nat × Nat :=
  if src = dst then
    if isIeee src ∧ decodeF src p = .nan true then ((ieeeOf src).nanBits, fIV) else (p, 0)
  else if isI src ∨ src = .q4 then
    let x := if src = .q4 then q4 p else decodeI src p
    if isI dst then deliverI dst sat x else deliver dst mode (ofInt x, 0)
  else if isI dst then toIntTy dst mode (decodeF src p)
  else convertF src dst mode p

/-- Entry of the q4 table (R143). -/
def q4Value (q : Word × Word) (c : Nat) : Int :=
  let w := if c % 16 < 8 then q.1 else q.2
  decodeI .s8 (field w (8 * (c % 8) + 7) (8 * (c % 8)))

/-! Special functions (R172): every inner step rounds to f32 with RNE. -/

def f32Of (p : Nat) : Num := decodeIeee (ieeeOf .f32) p
def rne (v : Num × Nat) : Num := f32Of (roundIeee (ieeeOf .f32) .rne v.1).1
def rneMul (a b : Num) : Num := rne (numMul a b)
def rneAdd (a b : Num) : Num := rne (numAdd .rne a b)
def rneFma (a b c : Num) : Num := rne (numFma .rne a b c)

/-- T[j], the f32 value nearest 2^(j/32). -/
def tabT : List Nat :=
  [0x3F800000, 0x3F82CD87, 0x3F85AAC3, 0x3F88980F, 0x3F8B95C2, 0x3F8EA43A, 0x3F91C3D3, 0x3F94F4F0,
   0x3F9837F0, 0x3F9B8D3A, 0x3F9EF532, 0x3FA27043, 0x3FA5FED7, 0x3FA9A15B, 0x3FAD583F, 0x3FB123F6,
   0x3FB504F3, 0x3FB8FBAF, 0x3FBD08A4, 0x3FC12C4D, 0x3FC5672A, 0x3FC9B9BE, 0x3FCE248C, 0x3FD2A81E,
   0x3FD744FD, 0x3FDBFBB8, 0x3FE0CCDF, 0x3FE5B907, 0x3FEAC0C7, 0x3FEFE4BA, 0x3FF5257D, 0x3FFA83B3]
/-- L[j], the f32 value nearest log₂(1 + j/32). -/
def tabL : List Nat :=
  [0x0, 0x3D35D69C, 0x3DB31FB8, 0x3E0462C4, 0x3E2E00D2, 0x3E567AF1, 0x3E7DE0B6, 0x3E92203D,
   0x3EA4D3C2, 0x3EB7110E, 0x3EC8DDD4, 0x3EDA3F60, 0x3EEB3A9F, 0x3EFBD42B, 0x3F060828, 0x3F0DF989,
   0x3F15C01A, 0x3F1D5DA0, 0x3F24D3C2, 0x3F2C2411, 0x3F335004, 0x3F3A58FF, 0x3F41404F, 0x3F480731,
   0x3F4EAED0, 0x3F553848, 0x3F5BA4A4, 0x3F61F4E5, 0x3F6829FB, 0x3F6E44CD, 0x3F744636, 0x3F7A2F04]
/-- Q[j], the f32 value nearest 1/(1 + j/32). -/
def tabQ : List Nat :=
  [0x3F800000, 0x3F783E10, 0x3F70F0F1, 0x3F6A0EA1, 0x3F638E39, 0x3F5D67C9, 0x3F579436, 0x3F520D21,
   0x3F4CCCCD, 0x3F47CE0C, 0x3F430C31, 0x3F3E82FA, 0x3F3A2E8C, 0x3F360B61, 0x3F321643, 0x3F2E4C41,
   0x3F2AAAAB, 0x3F272F05, 0x3F23D70A, 0x3F20A0A1, 0x3F1D89D9, 0x3F1A90E8, 0x3F17B426, 0x3F14F209,
   0x3F124925, 0x3F0FB824, 0x3F0D3DCB, 0x3F0AD8F3, 0x3F088889, 0x3F064B8A, 0x3F042108, 0x3F020821]
def tab (l : List Nat) (j : Nat) : Num := f32Of (l.getD j 0)

/-- C1, C2, C3, K1, K2, K3, L2E and L2E2 of R172. -/
def cC1 : Num := f32Of 0x3F317218
def cC2 : Num := f32Of 0x3E75FDF0
def cC3 : Num := f32Of 0x3D635847
def cK1 : Num := f32Of 0x3FB8AA3B
def cK2 : Num := f32Of 0xBF38AA3B
def cK3 : Num := f32Of 0x3EF6384F
def cL2E : Num := f32Of 0x3FB8AA3B
def cL2E2 : Num := f32Of 0x4038AA3B

def numOne : Num := .fin false 1 0 false
def numZero : Num := .fin false 0 0 false

/-- EXP2K (R172). -/
def exp2k (x : Num) : Num :=
  match x with
  | .inf s => if s then numZero else .inf false
  | .fin s m e _ =>
    if numCmp x (ofInt 128) != .lt then .inf false
    else if numCmp x (ofInt (-150)) == .lt then numZero
    else
      let (n, _) := quantize .rne s m (e + 5) 0 false
      let k : Int := if s then -n else n
      let j := (k % 32).toNat
      let mm := (k - j) / 32
      let u := (numAdd .rne x (.fin (0 < k) k.natAbs (-5) false)).1
      let p := rneFma u cC3 cC2
      let p := rneFma u p cC1
      let p := rneMul u p
      let t := tab tabT j
      match rneFma t p t with
      | .fin s m e z => .fin s m (e + mm) z
      | v => v
  | v => v

/-- VEXP2 of an f32 value, before delivery. -/
def fnExp2 (x : Num) : Num × Nat :=
  match nanResult [x] with
  | some r => r
  | none => (exp2k x, 0)

/-- A positive finite magnitude as 2^e * g with 1 ≤ g < 2: e and g. -/
def normal2 (m : Nat) (e : Int) : Int × Num :=
  let l := (bitLen m : Int) - 1
  (e + l, .fin false m (-l) false)

def fnLog2 (x : Num) : Num × Nat :=
  match nanResult [x] with
  | some r => r
  | none =>
    match x with
    | .inf s => if s then invalid else (.inf false, 0)
    | .fin s m e _ =>
      if m = 0 then (.inf true, fDZ)
      else if s then invalid
      else
        let (ex, g) := normal2 m e
        -- j := floor(32 (g - 1)), with g = m / 2^l
        let l := bitLen m - 1
        let j := m * 32 / 2 ^ l - 32
        let c : Num := .fin false (32 + j) (-5) false
        let u := rneMul (numAdd .rne g (numNeg c)).1 (tab tabQ j)
        let t := rneFma u cK3 cK2
        let t := rneFma u t cK1
        let t := rneMul u t
        numAdd .rne (ofInt ex) (rneAdd (tab tabL j) t)
    | _ => invalid

def fnSigm (x : Num) : Num × Nat :=
  match nanResult [x] with
  | some r => r
  | none =>
    match x with
    | .inf s => (if s then numZero else numOne, 0)
    | _ =>
      let t := rneMul x cL2E
      let z := exp2k (numNeg t)
      numDiv numOne (rneAdd numOne z)

/-- tanh of a magnitude, with the sign applied by `fnTanh`. -/
def fnTanh (x : Num) : Num × Nat :=
  match nanResult [x] with
  | some r => r
  | none =>
    let pos := if signOf x then numNeg x else x
    if numCmp pos (.fin false 1 (-12) false) == .lt then (x, 0)
    else
      let t := rneMul pos cL2E2
      let z := exp2k (numNeg t)
      let r := numDiv (numAdd .rne numOne (numNeg z)).1 (numAdd .rne numOne z).1
      r

/-- A magnitude rounded in a mode and then given a sign: VTANH delivers so (R172). -/
def deliverTanh (t : ElemTy) (mode : Rm) (x : Num) : Nat × Nat :=
  let small := numCmp (if signOf x then numNeg x else x) (.fin false 1 (-12) false) == .lt
  let r := deliver t mode (fnTanh x)
  if isNan x ∨ small ∨ ¬ signOf x then r else (r.1 + (ieeeOf t).signBit, r.2)

end Sys2Proof.Machine
end

