-- ==== Sys2Proof/Machine/Fpu.lean ====
section
/-!
DEFINITION. The scalar FPU (R149-R153) and its flags and events (R137, R138).
-/
set_option linter.all false
namespace Sys2Proof.Machine
open Sys2Proof

/-- The mode that an RM field names under FPC (R35, R136). -/
def modeOf (r : Rm) (fpc : Word) : Rm :=
  match r with
  | .dyn => match field fpc 2 0 with
    | 2 => .rtz | 3 => .rdn | 4 => .rup | 5 => .rna | _ => .rne
  | r => r

/-- Flags whose events FPC enables (R136, R138). -/
def enabled (fpc : Word) (flags : Nat) : Nat := flags &&& field fpc 8 3

/-- Flags ORed into FPF (R137). -/
def raiseFlags (k : Ctx) (flags : Nat) : Ctx := { k with fpf := k.fpf ||| BitVec.ofNat 64 flags }

def fTy (x : FFmt) : ElemTy := match x with | .d => .f64 | .s => .f32
/-- The pattern that an FPU operand holds (R149). -/
def fArg (x : FFmt) (v : Word) : Nat := match x with | .d => v.toNat | .s => v.toNat % 2 ^ 32
def fVal (x : FFmt) (v : Word) : Num := decodeF (fTy x) (fArg x v)

/-- The end of an FPU function that raises `flags`: its effect, or FPX when an enabled event is among them and RESUME has not
allowed this one execution (R138). -/
def fpEnd (flags : Nat) (effect : State → State) (s : State) : Res :=
  let s := s.updK fun k => raiseFlags k flags
  if enabled s.k.fpc flags ≠ 0 ∧ ¬ s.k.oneDefault then
    .fault { cause := .fpx, einfo := BitVec.ofNat 64 flags } s
  else .ret (effect s)

/-- A rounding function of A and B, with D as it stands, into D (R150). -/
def fpOp (x : FFmt) (r : Rm) (f : Rm → Num → Num → Num → Num × Nat) (b a d : Reg) (s : State) : State :=
  issue 4 (some d) [b, a, d] (fun s =>
    let k := s.k
    let mode := modeOf r k.fpc
    let p := deliver (fTy x) mode (f mode (fVal x (rd k a)) (fVal x (rd k b)) (fVal x (rd k d)))
    fpEnd p.2 (fun s => s.wrK d (BitVec.ofNat 64 p.1)) s) s

/-- The same of A and B alone. -/
def fpOp2 (x : FFmt) (r : Rm) (f : Rm → Num → Num → Num × Nat) (b a d : Reg) (s : State) : State :=
  issue 4 (some d) [b, a] (fun s =>
    let k := s.k
    let mode := modeOf r k.fpc
    let p := deliver (fTy x) mode (f mode (fVal x (rd k a)) (fVal x (rd k b)))
    fpEnd p.2 (fun s => s.wrK d (BitVec.ofNat 64 p.1)) s) s

/-- FADD (R150). -/
def execFadd (x : FFmt) (r : Rm) (b a d : Reg) (s : State) : Out := took (fpOp2 x r (fun m a b => numAdd m a b) b a d s)
/-- FSUB (R150). -/
def execFsub (x : FFmt) (r : Rm) (b a d : Reg) (s : State) : Out :=
  took (fpOp2 x r (fun m a b => numAdd m a (numNeg b)) b a d s)
/-- FMUL (R150). -/
def execFmul (x : FFmt) (r : Rm) (b a d : Reg) (s : State) : Out := took (fpOp2 x r (fun _ a b => numMul a b) b a d s)
/-- FDIV (R150). -/
def execFdiv (x : FFmt) (r : Rm) (b a d : Reg) (s : State) : Out := took (fpOp2 x r (fun _ a b => numDiv a b) b a d s)
/-- FSQRT (R150). -/
def execFsqrt (x : FFmt) (r : Rm) (a d : Reg) (s : State) : Out := took (fpOp2 x r (fun _ a _ => numSqrt a) a a d s)
/-- FMAC (R150). -/
def execFmac (x : FFmt) (r : Rm) (b a d : Reg) (s : State) : Out :=
  took (fpOp x r (fun m a b d => numFma m a b d) b a d s)

/-- FMIN and FMAX (R150). -/
def fpSelect (isMax : Bool) (x : FFmt) (b a d : Reg) (s : State) : State :=
  issue 4 (some d) [b, a] (fun s =>
    let p := selectF (fTy x) isMax (fArg x (rd s.k a)) (fArg x (rd s.k b))
    fpEnd p.2 (fun s => s.wrK d (BitVec.ofNat 64 p.1)) s) s

/-- FMIN (R150). -/
def execFmin (x : FFmt) (b a d : Reg) (s : State) : Out := took (fpSelect false x b a d s)
/-- FMAX (R150). -/
def execFmax (x : FFmt) (b a d : Reg) (s : State) : Out := took (fpSelect true x b a d s)

/-- FABS (R150): bits exact. -/
def execFabs (x : FFmt) (a d : Reg) (s : State) : Out :=
  took (issue 4 (some d) [a] (fun s => .ret (s.wrK d (BitVec.ofNat 64 (fArg x (rd s.k a) % (ieeeOf (fTy x)).signBit)))) s)
/-- FNEG (R150): bits exact. -/
def execFneg (x : FFmt) (a d : Reg) (s : State) : Out :=
  took (issue 4 (some d) [a] (fun s =>
    .ret (s.wrK d (BitVec.ofNat 64 (fArg x (rd s.k a) ^^^ (ieeeOf (fTy x)).signBit)))) s)

def numElem (t : NumTy) : ElemTy :=
  match t with | .f64 => .f64 | .f32 => .f32 | .s32 => .s32 | .n32 => .n32 | .s64 => .s64 | .n64 => .n64

/-- The register form of a converted value (R151). -/
def cvtWord (t : ElemTy) (p : Nat) : Word :=
  match t with
  | .s32 => sext 32 (BitVec.ofNat 64 p)
  | _ => BitVec.ofNat 64 p

/-- FCVT (R151). -/
def execFcvt (x : FFmt) (r : Rm) (c : Cvt) (a d : Reg) (s : State) : Out :=
  took (issue 4 (some d) [a] (fun s =>
    let k := s.k
    let mode := modeOf r k.fpc
    let src := if c.fromInt then numElem c.ty else fTy x
    let dst := if c.fromInt then fTy x else numElem c.ty
    let v := rd k a
    let p := convert src dst false mode (fun _ => 0) (if c.fromInt then v.toNat % 2 ^ intBits src else fArg x v)
    fpEnd p.2 (fun s => s.wrK d (cvtWord dst p.1)) s) s)

/-- The class of a pattern (R152), as a bit number. -/
def classBit (t : ElemTy) (p : Nat) : Nat :=
  match decodeF t p with
  | .inf s => if s then 0 else 7
  | .nan sig => if sig then 8 else 9
  | .nar => 9
  | .fin s m _ _ =>
    if m = 0 then (if s then 3 else 4)
    else if m < 2 ^ (ieeeOf t).fb then (if s then 2 else 5)
    else (if s then 1 else 6)

/-- FCLASS (R152). -/
def execFclass (x : FFmt) (a d : Reg) (s : State) : Out :=
  took (issue 4 (some d) [a] (fun s =>
    .ret (s.wrK d (BitVec.ofNat 64 (2 ^ classBit (fTy x) (fArg x (rd s.k a)))))) s)

/-- A comparison and its flags (R153): 0 eq, 1 lt, 2 le, 3 uo. -/
def compareF (c : FCond) (a b : Num) : Bool × Nat :=
  let nan := isNan a || isNan b
  let sig := a == .nan true || b == .nan true
  let fl := (if (match c with | .lt | .le => nan | _ => sig) then fIV else 0)
    + (if a == .nar || b == .nar then fNR else 0)
  let o := numCmp a b
  (match c with
    | .uo => nan
    | .eq => !nan && o == .eq
    | .lt => !nan && o == .lt
    | .le => !nan && o != .gt, fl)

/-- FCMPG (R153): a write of a guard that a COMPACT will resolve stalls (R100). -/
def execFcmpg (x : FFmt) (b a : Reg) (c : FCond) (g : QIx) (s : State) : Out :=
  took (issue 4 none [b, a] (fun s =>
    if resolves (opsOf s s.cur.1 s.cur.2) g then .wait s else
    let r := compareF c (fVal x (rd s.k a)) (fVal x (rd s.k b))
    fpEnd r.2 (fun s => s.setG g (some r.1)) s) s)

end Sys2Proof.Machine
end

