-- ==== Sys2Proof/Machine/Atomics.lean ====
section
/-!
DEFINITION. Atomic operations (R231-R243): the operation on the old value, issue, performance at the place of R235, and a
remote AMO's sends.
-/
set_option linter.all false
namespace Sys2Proof.Machine
open Sys2Proof

def ordNum (o : Ord) : Nat :=
  match o with | .plain => 0 | .rlx => 1 | .acq => 2 | .rel => 3 | .acqrel => 4

def amoRel (m : AmoF) : Bool := m.ord == .rel || m.ord == .acqrel
def amoAcq (m : AmoF) : Bool := m.ord == .acq || m.ord == .acqrel
def amoBytes (m : AmoF) : Nat := if m.sz then 8 else 4

/-- The new value of `n` bytes, or none for a failed ACAS, and the flags of AFADD (R233, R234). -/
def amoNew (op n old b c : Nat) : Option Nat × Nat :=
  let w := 8 * n
  let sg := fun (v : Nat) => (BitVec.ofNat w v).toInt
  match op with
  | 0 => (some ((old + b) % 2 ^ w), 0)
  | 1 => (some (old &&& b), 0)
  | 2 => (some (old ||| b), 0)
  | 3 => (some (old ^^^ b), 0)
  | 4 => (some (if sg b < sg old then b else old), 0)
  | 5 => (some (if sg old < sg b then b else old), 0)
  | 6 => (some (min old b), 0)
  | 7 => (some (max old b), 0)
  | 8 => (some b, 0)
  | 9 => (if old = c then some b else none, 0)
  | _ =>
    let t : ElemTy := if n = 8 then .f64 else .f32
    let r := deliver t .rne (numAdd .rne (decodeF t old) (decodeF t b))
    (some r.1, r.2)

/-- Where an AMO may not be performed: a group, or a control window (R235). -/
def amoForbidden (t : Target) : Bool :=
  match t.place with
  | .loc _ off => off ≥ bankEnd
  | .peer p f => p ≥ 0xF00 || (f / 2 ^ 62 == 1 && f % 2 ^ 18 ≥ bankEnd)
  | .dev _ => false

/-- The issue of an AMO (R233, R236, R237). -/
def issueAmo (op : Nat) (m : AmoF) (s : State) : Res :=
  let (c, x) := s.cur
  let ops := opsOf s c x
  let n := amoBytes m
  let ea := rd s.k m.a + m.off.signExtend 64
  if ea.toNat % n ≠ 0 then .fault (stopAt .align ea) s
  else if acqPending ops ∨ rangePending ops ∨ loadsOut ops ≥ 8 ∨ ¬ tableRoom s c 1 ∨ coveredBy s c x ops ea n then .wait s
  else
    match access s c x ea true true with
    | (.error p, s) => .fault p s
    | (.ok t, s) =>
      if amoForbidden t then .fault (stopAt .laddr ea) s else
      let (id, s) := s.fresh
      let cut := fun (v : Word) => BitVec.ofNat 64 (v.toNat % 2 ^ (8 * n))
      .ret ((addOp s c (mkOp s id ea (some t) (.amo op m (cut (rd s.k m.b)) (cut (rd s.k m.c)) none))).push (.amoPerform c id))

/-- An AMO word: ACAS reads its comparand too. -/
def amoInstr (op : Nat) (m : AmoF) (s : State) : State :=
  issue 12 (some m.d) (if op = 9 then [m.a, m.b, m.c] else [m.a, m.b]) (issueAmo op m) s

/-- AADD (R233). -/
def execAadd (m : AmoF) (s : State) : Out := took (amoInstr 0 m s)
/-- AAND (R233). -/
def execAand (m : AmoF) (s : State) : Out := took (amoInstr 1 m s)
/-- AOR (R233). -/
def execAor (m : AmoF) (s : State) : Out := took (amoInstr 2 m s)
/-- AXOR (R233). -/
def execAxor (m : AmoF) (s : State) : Out := took (amoInstr 3 m s)
/-- AMIN (R233). -/
def execAmin (m : AmoF) (s : State) : Out := took (amoInstr 4 m s)
/-- AMAX (R233). -/
def execAmax (m : AmoF) (s : State) : Out := took (amoInstr 5 m s)
/-- AMINN (R233). -/
def execAminn (m : AmoF) (s : State) : Out := took (amoInstr 6 m s)
/-- AMAXN (R233). -/
def execAmaxn (m : AmoF) (s : State) : Out := took (amoInstr 7 m s)
/-- ASWAP (R233). -/
def execAswap (m : AmoF) (s : State) : Out := took (amoInstr 8 m s)
/-- ACAS (R233). -/
def execAcas (m : AmoF) (s : State) : Out := took (amoInstr 9 m s)
/-- AFADD (R234). -/
def execAfadd (m : AmoF) (s : State) : Out := took (amoInstr 10 m s)

/-! Performance. -/

/-- The old value and flags of an AMO performed in this package, where its location is serialised: at a bank once every stash sharer has
given way, in a die's cache once it holds the line owned, a failed ACAS too (R233, R235, R240). RACE comes before DATALOST (R237). -/
def amoAt (s : State) (w : Who) (id : Nat) (t : Target) (op n : Nat) (b d : Word) (g : Bool) : Got (Nat × Nat) :=
  match t.place with
  | .loc h off =>
    match reachRead s w h off n with
    | .wait s => .wait s
    | .bad p s => .bad p s
    | .ok bs s =>
      let old := leNat bs
      match amoNew op n old b.toNat d.toNat with
      | (none, fl) =>
        if (Tbl.read (s.core h).dirl (off / 256) {}).ovf then .wait (s.pushOnce (.directoryOvfWrite h (off / 256)))
        else .ok (old, fl) (dropSharers s h off none)
      | (some v, fl) =>
        match reachWrite s w h off (natLE n v) with
        | .wait s => .wait s
        | .bad p s => .bad p s
        | .ok _ s => .ok (old, fl) s
  | .dev a =>
    let e := if t.chk then homeDie a else dieOf w.core
    let missed := (sectorAt s e (a / 64)).isNone
    if moving s a then .wait s
    else if homeLost s a ∨ dieCut s e = true then .bad (stopAt .datalost 0) s
    else
      match takeLine s e a (g || t.gdef) w.core id w.num with
      | .wait s => .wait s
      | .bad p s => .bad p s
      | .ok _ s =>
        match dieSector s e w.num a with
        | .wait s => .wait s
        | .bad p s => .bad p s
        | .ok x s =>
          let old := leNat ((x.bytes.drop (a % 64)).take n)
          let r := amoNew op n old b.toNat d.toNat
          match if t.chk then raceCheck s (a / 64) w r.1.isSome true 0 else .ok s with
          | .error p => .bad p (countRace s)
          | .ok s =>
            if x.poison then .bad (stopAt .datalost 0) s else
            match r.1 with
            | none => .ok (old, r.2) (reached s w e a t missed)
            | some v =>
              match dieWrite s e a (natLE n v) with
              | .wait s => .wait s
              | .bad p s => .bad p s
              | .ok _ s => .ok (old, r.2) (reached s w e a t missed)
  | .peer .. => .wait s

/-- The request of a remote AMO, numbered by target (R241, R246). LEN is the access size: DESIGN CHOICE, log 25. -/
def sendAmo (s : State) (c id p f op n : Nat) (m : AmoF) (b d : Word) (g : Bool) : State :=
  let q := Tbl.read s.amoSeq p 0
  let tag := s.nextId % 2 ^ 32
  let k : Packet := ⟨3, 0x80, s.pkid, p, q, f, n, scopeNum m.scope + 8 * bitN g + 16 * op, ordNum m.ord, tag, 0,
    wordLE b ++ wordLE d, []⟩
  let r : Sent := { tag := tag, pkt := k, core := c, op := id, first := s.time, last := s.time, lg := linkGroup s p f }
  let s := { s with
    nextId := s.nextId + 1
    amoSeq := Tbl.put s.amoSeq p ((q + 1) % 65536)
    sent := s.sent ++ [r]
    out := s.out ++ [.packet k] }
  (updOp s c id fun o => { o with body := match o.body with | .amo op m b c _ => .amo op m b c (some q) | b => b }).pushAll
    [.amoRetransmit tag, .amoTimeout tag]

/-- AMOUNKNOWN (R243): the operation stays listed as failed, and its firing parks. -/
def amoUnknown (s : State) (c : Nat) (o : Op) (m : AmoF) (seq peer : Nat) : State :=
  let p : Stop := { cause := .amounknown, eaddr := o.addr, einfo := BitVec.ofNat 64 (seq + peer * 65536) }
  reportFail (updOp s c o.id fun o => { o with status := 2, cause := .amounknown }) c o (.amoUnknown m.d) p false 0

/-- An AMO performed: its old value into D, AFADD's flags into FPF, its acquire and release counted (R216, R234, R239). It
stays in flight until its write is performed at system scope (R224). -/
def amoDone (s : State) (c : Nat) (o : Op) (m : AmoF) (old flags : Nat) (remote : Bool) : State :=
  let s := updOpCtx s c o fun k =>
    let k := raiseFlags (wr k m.d (BitVec.ofNat 64 old)) flags
    let k := if amoRel m then region k else k
    if amoAcq m then region k else k
  let s := digest s o.dom (homeKeyOp s c o) (BitVec.ofNat 64 old)
  let s := if amoAcq m ∧ m.scope = .sys then dropCachedPeers s c else s
  let waits := !remote && s.awaiting.any fun a => a.core == c && a.op == o.id
  let s := if o.cause = .visfail then reportVis s c o else if waits then updOp s c o.id fun o => { o with ended := true, done := some .die } else dropOp s c o.id
  bumpOp s c o

/-- A 65th AMO to a package waits until the oldest of those before it has its reply (R241). -/
def amoWindowFull (s : State) (p : Nat) : Bool :=
  let q := Tbl.read s.amoSeq p 0
  s.sent.any fun r => r.pkt.op == 3 && r.pkt.dst == p && r.got.isNone && r.nack.isNone && (q + 65536 - r.pkt.seq) % 65536 ≥ 64

/-- AMO_PERFORM (R95, R235, R236, R239). -/
def runAmoPerform (c id : Nat) (s : State) : State :=
  match opById s c id with
  | none => s
  | some o =>
    match o.body, o.target with
    | .amo op m b d seq, some t =>
      let again := fun (s : State) => s.push (.amoPerform c id)
      let ops := mates s c o
      if o.status ≠ 0 ∨ o.ended then s
      else if earlierSame ops o ∨ earlierStore ops o ∨ relPending (ops.filter fun q => q.id < id) then again s
      else if amoRel m ∧ ¬ releaseReady ops id m.scope then again s
      else if amoRel m ∧ m.scope = .sys ∧ ¬ (peerDirty s (dieOf c)).isEmpty then
        again (sendPeerDirty s (dieOf c) (some (c, o.ctx, 0)))
      else if amoRel m ∧ m.scope = .sys ∧ s.sent.any (fun r => r.core == wbCore (dieOf c)) then again s
      else
        -- a stash sector of the location gives way first; its dirty bytes already stand at the source (log 18)
        let s := match t.win with
          | some w => s.updCore o.bank fun k => { k with stash := Tbl.del k.stash (w / 64) }
          | none => s
        let peer := match t.place with
          | .peer p f => some (p, f)
          | .dev a => if isOwn a then none else some (peerOf a, peerFaddr a)
          | .loc .. => none
        match peer with
        | none =>
          match amoAt s (whoOp s c o) id t op (amoBytes m) b d m.g with
          | .wait s => again s
          | .bad p s => failAccess s c o p
          | .ok (old, fl) s => amoDone s c o m old fl false
        | some (p, f) =>
          match s.sent.find? fun r => r.core == c && r.op == id && r.pkt.op == 3 with
          | some r =>
            match r.got, r.nack with
            | some bs, _ =>
              let old := leNat (bs.take (amoBytes m))
              amoDone (dropSent s r.tag) c o m old (amoNew op (amoBytes m) old b.toNat d.toNat).2 true
            | none, some e => failAccess (dropSent s r.tag) c o (nackStop 0 e)
            | none, none => again s
          | none =>
            match unreachable s with
            | some e => failAccess s c o (nackStop 0 e)
            | none =>
              -- copies of a CACHED line give way first (R235)
              let line : Option Nat := match t.place with | .dev a => some (a / 256) | _ => none
              let s : State := match line with
                | some l => [0, 1, 2, 3].foldl (fun s e => evictLine s e l) s
                | none => s
              let busy : Bool := s.sent.any fun r => line.isSome && r.pkt.op == 2 && r.pkt.dst == p && r.pkt.faddr / 256 == f / 256
              if busy ∨ movingPeer s p f ∨ lineResent s p f ∨ amoWindowFull s p then again s
              else again (sendAmo (countPeer s (whoOp s c o) id t) c id p f op (amoBytes m) m b d (m.g || t.gdef))
    | _, _ => s
def execAmoPerform (core id : Nat) (s : State) : Out := took (runAmoPerform core id s)

/-- Cycles of a time in half microseconds at 1.3 GHz. -/
def halfUs (n : Nat) : Nat := 650 * n

/-- AMO_RETRANSMIT (R243): 8 µs after a send, at most three times, with the same sequence. -/
def runAmoRetransmit (tag : Nat) (s : State) : State :=
  match s.sent.find? fun r => r.tag == tag && r.pkt.op == 3 with
  | none => s
  | some r =>
    if r.got.isSome ∨ r.nack.isSome ∨ r.sends ≥ 4 then s
    else if s.time < r.last + halfUs 16 then s.push (.amoRetransmit tag)
    else
      let sent := s.sent.map fun q => if q.tag = tag then { q with sends := q.sends + 1, last := s.time } else q
      State.push { s with sent := sent, out := s.out ++ [.packet r.pkt] } (.amoRetransmit tag)
def execAmoRetransmit (tag : Nat) (s : State) : Out := took (runAmoRetransmit tag s)

/-- What stands for AMOUNKNOWN where an instruction waits for an AMO of its own (SPAWN, TEND). -/
def unknownMark : Nat := 2 ^ 32

/-- The AMO behind a sent request ends unknown. -/
def endUnknown (s : State) (r : Sent) : State :=
  match opById s r.core r.op with
  | some o => match o.body with
    | .amo _ m .. => amoUnknown (dropSent s r.tag) r.core o m r.pkt.seq r.pkt.dst
    | _ => dropSent s r.tag
  | none => { s with sent := s.sent.map fun q => if q.tag = r.tag then { q with nack := some unknownMark } else q }

/-- AMO_TIMEOUT (R243): 32 µs after the first send. -/
def runAmoTimeout (tag : Nat) (s : State) : State :=
  match s.sent.find? fun r => r.tag == tag && r.pkt.op == 3 with
  | none => s
  | some r =>
    if r.got.isSome ∨ r.nack.isSome then s
    else if s.time < r.first + halfUs 64 then s.push (.amoTimeout tag)
    else endUnknown s r
def execAmoTimeout (tag : Nat) (s : State) : Out := took (runAmoTimeout tag s)

end Sys2Proof.Machine
end

