-- ==== Sys2Proof/Machine/Handles.lean ====
section
/-!
DEFINITION. Shape records and handles (R118-R124) and rings (R107-R111), with WPRD and WPWAIT (R106).
-/
set_option linter.all false
namespace Sys2Proof.Machine
open Sys2Proof

/-- The checks of R120, in order. -/
def validate (r : Shape) : Option Cause :=
  if [0, 1, 2, 3].any (fun d => extent r d == 0) ∨ shapeType r = 15 ∨ field r.d3 63 54 ≠ 0 then some .shape
  else match elemOfCode (shapeType r) with
    | none => some .shape
    | some t =>
      let n := alignSize t
      if r.d0.toNat % n ≠ 0 ∨ [1, 2, 3].any (fun d => strideBits r d % n != 0) then some .align else none

/-! Rings. -/

/-- A live ring changed; what bytes 16-31 of its record read as changes with it, and no stash copy of them stays (R78, R108). -/
def updRing (s : State) (c off : Nat) (f : LiveRing → LiveRing) : State :=
  (dropSharers s c off none).updCore c fun k => match Tbl.find k.rings off with
    | some r => { k with rings := Tbl.put k.rings off (f r) }
    | none => k

/-- The record form of a handle (R121). -/
def recordForm (s : State) (h : Handle) : Shape :=
  match h.bind with
  | none => h.shape
  | some b =>
    match ringOf s b with
    | none => h.shape
    | some r =>
      let f := setExtent { h.shape with d0 := slotBase r (viewOf s b) } 3 1
      setRB { f with d3 := setField f.d3 47 0 0 } true

def shapeWord (r : Shape) (k : Nat) : Word :=
  match k with | 0 => r.d0 | 1 => r.d1 | 2 => r.d2 | _ => r.d3
def setShapeWord (r : Shape) (k : Nat) (v : Word) : Shape :=
  match k with
  | 0 => { r with d0 := v } | 1 => { r with d1 := v } | 2 => { r with d2 := v } | _ => { r with d3 := v }

/-! The HND functions (R123, R124). -/

/-- A destination handle that holds a ring binding raises RING, reason 8. -/
def intoHandle (h : HIx) (body : State → Res) (s : State) : Res :=
  if (handleOf s.k h).bind.isSome then .fault (stopWhy .ring 8) s else body s

/-- HLD (R123). -/
def execHld (a : Reg) (h : HIx) (s : State) : Out :=
  took (issue 4 none [a] (intoHandle h (fun s =>
    let ea := rd s.k a
    if ea.toNat % 32 ≠ 0 then .fault (stopAt .align ea) s else
    match readWords s ea 4 with
    | .wait s => .wait s
    | .bad p s => .fault p s
    | .ok ws s =>
      let r : Shape := ⟨ws.getD 0 0, ws.getD 1 0, ws.getD 2 0, ws.getD 3 0⟩
      match validate r with
      | some c => .fault { cause := c } s
      | none => .ret (s.updK fun k => setHandle k h { shape := setRB r false }))) s)

/-- HST (R123): four plain 8-byte stores, checked before any is buffered. -/
def execHst (a : Reg) (h : HIx) (s : State) : Out :=
  took (issue 4 none [a] (fun s =>
    let (c, x) := s.cur
    let ea := rd s.k a
    let ops := opsOf s c x
    if ea.toNat % 32 ≠ 0 then .fault (stopAt .align ea) s
    else if acqPending ops ∨ rangePending ops ∨ ¬ tableRoom s c 4 ∨ bufferUsed s c > 12 ∨ coveredBy s c x ops ea 32 then .wait s
    else
      let r := recordForm s (handleOf s.k h)
      match checkStores s ea [r.d0, r.d1, r.d2, r.d3] with
      | (.error p, s) => .fault p s
      | (.ok l, s) =>
        -- a group write waits for an earlier configuration write (R258)
        if configPending ops ∧ l.any (fun e => isGroup e.2.1) then .wait s else
        .ret (l.foldl (fun s e => bufferStore s e.1 e.2.1 8 e.2.2 e.2.1.gdef none false false) s)) s)

/-- HSET (R123). -/
def execHset (n : BitVec 5) (a : Reg) (h : HIx) (s : State) : Out :=
  took (issue 4 none [a] (intoHandle h (fun s =>
    let r := setShapeWord (recordForm s (handleOf s.k h)) n.toNat (rd s.k a)
    match validate r with
    | some c => .fault { cause := c } s
    | none => .ret (s.updK fun k => setHandle k h { shape := r }))) s)

/-- HGET (R123). -/
def execHget (n : BitVec 5) (j : HIx) (d : Reg) (s : State) : Out :=
  took (issue 4 (some d) [] (fun s => .ret (s.wrK d (shapeWord (recordForm s (handleOf s.k j)) n.toNat))) s)

/-- HADV (R122, R123). -/
def execHadv (h : HIx) (s : State) : Out :=
  took (issue 4 none [] (intoHandle h (fun s =>
    let v := handleOf s.k h
    if isNull v then .fault (stopWhy .shape 0) s else .ret (s.updK fun k => setHandle k h (advanceHandle v)))) s)

/-- HCOPY (R123). -/
def execHcopy (j h : HIx) (s : State) : Out :=
  took (issue 4 none [] (intoHandle h (fun s =>
    let v := handleOf s.k j
    .ret (s.updK fun k => setHandle k h { shape := setRB (recordForm s v) false, empty := v.empty }))) s)

/-- The share of PART (R124): the new record and whether it is empty; none for SHAPE. -/
def partShare (r : Shape) (size : Nat) (c : Int) (dim : Nat) : Option (Shape × Bool) :=
  match elemOfCode (shapeType r) with
  | none => none
  | some ty =>
    if [0, 1, 2, 3].any (fun d => extent r d == 0) then none else
    let q := dim == 0 && ty == .q4
    let e := if q then (extent r 0 + 1) / 2 else extent r dim
    let (lo, hi) := if c < 0 ∨ c ≥ size then (0, 0) else (c.toNat * e / size, (c.toNat + 1) * e / size)
    let unit : Int := if dim = 0 then (match ty with | .t6 => 48 | .q4 => 1 | t => (elemBits t / 8 : Nat)) else stride r dim
    let r := { r with d0 := r.d0 + BitVec.ofInt 64 (lo * unit) }
    let r := if q then setExtent r 0 (min (2 * hi) (extent r 0) - 2 * lo) else setExtent r dim (hi - lo)
    some (r, hi == lo)

/-- PART (R124). -/
def execPart (b : Reg) (j h : HIx) (s : State) : Out :=
  took (issue 4 none [b] (intoHandle h (fun s =>
    let k := s.k
    let v := rd k b
    let r := setRB (recordForm s (handleOf k j)) false
    let y := v.getLsbD 2
    let size := if y then k.dgy else k.dgx
    let c : Int := if y then (coreY s.cur.1 : Int) - k.doy else (coreX s.cur.1 : Int) - k.dox
    if field v 63 3 ≠ 0 then .fault (stopWhy .shape 0) s else
    match partShare r size c (field v 1 0) with
    | none => .fault (stopWhy .shape 0) s
    | some (r, e) => .ret (s.updK fun k => setHandle k h { shape := r, empty := e }))) s)

/-! Rings: RBIND (R107-R109). -/

/-- A ring record's fields as read from its 64 bytes; none when it breaks R107. -/
def ringRecord (bs : List Byte) : Option LiveRing :=
  let n := fun a m => leNat ((bs.drop a).take m)
  let base := leWord (bs.take 8)
  let slot := n 8 4
  let count := n 12 4
  if base.toNat % 64 ≠ 0 ∨ slot % 64 ≠ 0 ∨ slot = 0 ∨ slot > 2 ^ 24 ∨ count = 0 ∨ count > 65536
      ∨ 65536 % count ≠ 0 ∨ n 32 4 / 2 ^ 25 ≠ 0 ∨ n 36 4 / 2 ^ 25 ≠ 0 ∨ n 40 1 / 16 ≠ 0 ∨ n 41 23 ≠ 0
      ∨ n 16 4 + n 20 4 ≠ count then none
  else
    (scopeOf (n 40 1 % 8)).map fun sc =>
      { base := base, slot := slot, count := count, fillc := n 16 4, freec := n 20 4, pidx := n 24 4, cidx := n 28 4,
        seenFill := n 16 4, seenFree := n 20 4, scope := sc, stamp := n 40 1 / 8 % 2 == 1,
        prodCore := n 32 4, consCore := n 36 4 }

/-- PCO and CCO name cores relative to the grid's origin, with the peer above (R107): a core of another package stands as 8192 times
its package above its number. -/
def ringCore (pkid dox doy v : Nat) : Nat :=
  (if v / 8192 % 4096 = pkid then 0 else v / 8192 % 4096) * 8192 + (v / 128 % 64 + doy) * 128 + (v % 128 + dox)

/-- A record's ring with its cores as numbers of the mesh. -/
def ringPlaced (s : State) (dox doy : Nat) (r : LiveRing) : LiveRing :=
  { r with prodCore := ringCore s.pkid dox doy r.prodCore, consCore := ringCore s.pkid dox doy r.consCore }

/-- Who holds a role: domain and actor, or a task context by its place. -/
def roleOf (s : State) (c x : Nat) : Nat × Nat :=
  match (s.ctx c x).work with
  | some w => (w.dom, w.actor.getD (2 ^ 20 + c * 16 + x))
  | none => (0, 2 ^ 20 + c * 16 + x)

/-- The ring behind a record's address: the one live there, or the record as it reads; a peer's record is read over Callyn. -/
def ringAt (s : State) (ea : Word) : Got (Option (Nat × Nat × Bool × LiveRing)) :=
  let (c, x) := s.cur
  let k := s.k
  -- a record that breaks R107 names no ring, live or not (R109)
  let found := fun (t off : Nat) (bs : List Byte) => (ringRecord bs).map fun r =>
    match Tbl.find (s.core t).rings off with
    | some r => (t, off, true, r)
    | none => (t, off, false, ringPlaced s k.dox k.doy r)
  match formOf s c (bankCore s c x) (!isSuper s k) true ea with
  | .ok (.loc t off) =>
    if off ≥ bankEnd then .ok none s
    else if coveredBy s c x (opsOf s c x) ea 64 then .wait s
    else
      match reachRead s (whoOf s c x) t off 64 with
      | .ok bs s => .ok (found t off (overRings s t off (overBuffer (opsOf s c x) s.nextId (.loc t off) bs))) s
      | .wait s => .wait s
      | .bad p s => .bad p s
  | .ok (.peer p f) =>
    if f / 2 ^ 62 ≠ 1 ∨ p ≥ 0xF00 then .ok none s else
    let t := p * 8192 + f / 2 ^ 37 % 64 * 128 + f / 2 ^ 43 % 128
    match peerRead s c (syncId x) p f 64 none with
    | .ok bs s => .ok (found t (f % 2 ^ 18) bs) s
    | .wait s => .wait s
    | .bad p s => .bad p s
  | _ => .ok none s

/-- The last binding of a role that no port holds ends: the live values go back to the record when no role is left (R108). -/
def unbindRing (s : State) (b : Binding) : State :=
  match ringOf s b with
  | none => s
  | some r =>
    let r := if b.producer then (if r.prodPort then r else { r with prod := none })
      else (if r.consPort then r else { r with cons := none })
    if r.prod.isNone ∧ r.cons.isNone then
      (dropSharers s b.core b.off none).updCore b.core fun k =>
        { k with mem := if b.core < 8192 then writeBytes k.mem (b.off + 16) (ringWords r) else k.mem, rings := Tbl.del k.rings b.off }
    else s.updCore b.core fun k => { k with rings := Tbl.put k.rings b.off r }

/-- A binding that RBIND made ends as its handle takes another; another handle of the context may still hold the role (R109). -/
def endBinding (s : State) (h : HIx) (hd : Handle) : State :=
  match hd.bind with
  | none => s
  | some b =>
    let same := fun (e : Nat × Handle) => e.1 != h.toNat && match e.2.bind with
      | some q => q.core == b.core && q.off == b.off && q.producer == b.producer
      | none => false
    if b.own && !s.k.handles.any same then unbindRing s b else s

/-- RBIND (R109). -/
def execRbind (a : Reg) (h : HIx) (s : State) : Out :=
  took (issue 4 none [a] (fun s =>
    let (c, x) := s.cur
    let v := rd s.k a
    let prod := v.getLsbD 0
    if field v 5 1 ≠ 0 then .fault (stopAt .align v) s
    else
      match ringAt s (BitVec.ofNat 64 (field v 63 6 * 64)) with
      | .wait s => .wait s
      | .bad p s => .fault (atEa v p) s
      | .ok none s => .fault (stopWhy .ring 1) s
      | .ok (some (t, off, known, r)) s =>
        let ring := fun (n : Nat) => Res.fault (stopWhy .ring n) s
        let me := roleOf s c x
        let holder := if prod then r.prod else r.cons
        let hd := handleOf s.k h
        if r.consCore ≠ t then ring 1
        else if (if prod then r.prodCore else r.consCore) ≠ bankCore s c x then ring 2
        else if (match holder with | some w => w != me | none => false) then ring 3
        else if (match hd.bind with | some b => b.pending != 0 | none => false) then ring 6
        else if ¬ known ∧ (s.core t).rings.length ≥ 32 then ring 7
        else if isNull hd then .fault (stopWhy .shape 0) s
        else
          let s := endBinding s h hd
          let r := (Tbl.find (s.core t).rings off).getD r
          let r := if prod then { r with prod := some me } else { r with cons := some me }
          .ret ((s.updCore t fun q => { q with rings := Tbl.put q.rings off r }).updK fun k =>
            setHandle k h { hd with shape := setRB hd.shape true, bind := some ⟨t, off, prod, 0, true⟩ })) s)

/-- The count that a side sees, less its handle's pending advance (R108, R110). -/
def availOf (r : LiveRing) (b : Binding) : Nat := (if b.producer then r.seenFree else r.seenFill) - b.pending

/-- A ring function on a bound handle: RING, reason 5, when it is not ring-bound (R110). -/
def onRing (h : HIx) (body : Handle → Binding → LiveRing → State → Res) (s : State) : Res :=
  let v := handleOf s.k h
  match v.bind with
  | none => .fault (stopWhy .ring 5) s
  | some b =>
    match ringOf s b with
    | none => .fault (stopWhy .ring 5) s
    | some r => body v b r s

/-- RCNT (R110). -/
def execRcnt (h : HIx) (d : Reg) (s : State) : Out :=
  took (issue 4 (some d) [] (onRing h (fun _ b r s => .ret (s.wrK d (BitVec.ofNat 64 (availOf r b))))) s)

/-- RWAIT (R110): the success is an acquire at the ring's scope. -/
def execRwait (b : Reg) (h : HIx) (s : State) : Out :=
  took (issue 4 none [b] (onRing h (fun _ bd r s =>
    let n := (rd s.k b).toNat
    if n > r.count then .fault (stopWhy .ring 4) s
    else if availOf r bd ≥ n then .ret (acquireAt s s.cur.1 s.cur.2 r.scope) else .wait s)) s)

/-- A pending advance added for a role (R110). -/
def advPending (prod : Bool) (b : Reg) (h : HIx) (s : State) : State :=
  issue 4 none [b] (onRing h (fun v bd r s =>
    let n := (rd s.k b).toNat
    if bd.producer ≠ prod then .fault (stopWhy .ring 2) s
    else if n > availOf r bd then .fault (stopWhy .ring 4) s
    else .ret (s.updK fun k => setHandle k h { v with bind := some { bd with pending := bd.pending + n } }))) s

/-- RADVP (R110). -/
def execRadvp (b : Reg) (h : HIx) (s : State) : Out := took (advPending true b h s)
/-- RADVC (R110). -/
def execRadvc (b : Reg) (h : HIx) (s : State) : Out := took (advPending false b h s)

/-- RING_NOTIFICATION (R108, R111): a side learns the live count, and its context is tagged (R295, R310). -/
def runRingNotification (c off : Nat) (toProducer : Bool) (s : State) : State :=
  match Tbl.find (s.core c).rings off with
  | none => s
  | some r =>
    let s := updRing s c off fun r => if toProducer then { r with seenFree := r.freec } else { r with seenFill := r.fillc }
    match (if toProducer then r.prod else r.cons) with
    | some (g, a) =>
      match Tbl.find (s.dom g).actors a with
      | some w => (bumpHome s w.core w.ctx (· == some (g, some a))).push (.firingDispatch g a)
      | none => if a ≥ 2 ^ 20 then bumpHome s ((a - 2 ^ 20) / 16) (a % 16) (· == some (g, none)) else s
    | none => s
def execRingNotification (core rec : Nat) (toProducer : Bool) (s : State) : Out := took (runRingNotification core rec toProducer s)

/-! Write pointers (R106). -/

/-- WPRD. -/
def execWprd (c : BitVec 5) (d : Reg) (s : State) : Out :=
  took (issue 4 (some d) [] (fun s => .ret (s.wrK d (Tbl.read s.k.wp c.toNat 0))) s)

/-- WPWAIT: it waits until the write pointer reaches B, then acquires the bytes delivered at core scope. -/
def execWpwait (b : Reg) (c : BitVec 5) (s : State) : Out :=
  took (issue 4 none [b] (fun s =>
    if (rd s.k b).toNat ≤ (Tbl.read s.k.wp c.toNat 0).toNat then .ret (acquireAt s s.cur.1 s.cur.2 .core) else .wait s) s)

end Sys2Proof.Machine
end

