-- ==== Sys2Proof/Machine/CopyEngine.lean ====
section
/-!
DEFINITION. The copy engine (R91-R105): acceptance with the checks of R97 and R98, the queue and its channels, one beat of
each function, and the end of a command with its reply, guard and release.
-/
set_option linter.all false
namespace Sys2Proof.Machine
open Sys2Proof

/-! Acceptance. -/

/-- What an ECOPY or ECX word with ENG = 00 says: function, channel, registers, parameter and the fields of word 1. -/
structure CopyWord where
  fn : CopyFn
  ch : Nat
  a : Reg
  d : Reg
  p : Word
  g : Bool := false
  rel : Bool := false
  acq : Bool := false
  scope : Scope := .core
  gd : Gd := ⟨false, false, 0⟩
  res : Option QIx := none

/-- The handles that a function uses: destination, source, index or mask (R93). -/
def copyHandles (fn : CopyFn) (a : Word) : List HIx :=
  let n := fun (i : Nat) => BitVec.ofNat 4 (field a (4 * i + 3) (4 * i))
  match fn with
  | .copy => [n 0, n 1]
  | .fill | .flushr => [n 0]
  | _ => [n 0, n 1, n 2]

/-- Types of an index handle (R98, R185). -/
def indexTy (o : Operand) : Bool :=
  match opTy o with
  | .n8 | .n16 | .n32 | .s32 => true
  | _ => false

/-- m of R99. -/
def copyCount (c : CopyCmd) : Nat :=
  if c.p = 0 then (match c.fn with | .copy => elems c.src | _ => elems c.idx) else c.p.toNat

/-- The conditions of R98. -/
def copyChecks (c : CopyCmd) : Bool :=
  let m := copyCount c
  match c.fn with
  | .copy => unitBits c.src == unitBits c.dst && m ≤ elems c.src && m ≤ elems c.dst
  | .gather => rowBytes c.src == rowBytes c.dst && indexTy c.idx && m ≤ elems c.idx && m ≤ rows c.dst
  | .scatter => rowBytes c.src == rowBytes c.dst && indexTy c.idx && m ≤ elems c.idx && m ≤ rows c.src
  | .compact => unitBits c.src == unitBits c.dst && elems c.idx ≥ elems c.src && elems c.dst ≥ elems c.src
  | .fill | .flushr => true

/-- The command as captured (R91). -/
def copyCapture (s : State) (w : CopyWord) : CopyCmd :=
  let k := s.k
  let hs := copyHandles w.fn (rd k w.a)
  let o := fun (i : Nat) => match hs[i]? with
    | some h => capture s k h
    | none => noOperand
  { fn := w.fn, ch := w.ch, dst := o 0, src := o 1, idx := o 2, p := w.p, g := w.g, rel := w.rel, acq := w.acq, scope := w.scope,
    guarded := guardedAt k w.gd, res := w.res, dest := w.d, seed := s.free }

/-- The operands in use. -/
def copyOperands (c : CopyCmd) : List Operand :=
  match c.fn with
  | .copy => [c.dst, c.src]
  | .fill | .flushr => [c.dst]
  | _ => [c.dst, c.src, c.idx]

/-- Acceptance of a copy-engine command (R91, R94, R98, R100). -/
def acceptCopy (w : CopyWord) (s : State) : Res :=
  let (c, x) := s.cur
  let ops := opsOf s c x
  let claimed : Bool := match w.res with | some q => resolves ops q | none => false
  if acqPending ops ∨ rangePending ops ∨ (s.core c).copyQ.length ≥ 2 ∨ ¬ tableRoom s c 1 ∨ claimed then .wait s
  else
    let cmd := copyCapture s w
    let l := copyOperands cmd
    if ¬ l.any (·.empty) ∧ (l.any nullOperand ∨ ¬ l.all typed ∨ ¬ l.all ringFits ∨ ¬ copyChecks cmd) then .fault (stopWhy .shape 0) s
    else
      let hs := copyHandles w.fn (rd s.k w.a)
      let (id, s) := s.fresh
      let s := { s with free := s.free + count cmd.dst }
      let s := addOp s c (mkOp s id (rowEa cmd.dst 0) none (.copy cmd))
      let s := s.updCore c fun k => { k with copyQ := k.copyQ ++ [id] }
      .ret ((s.updK fun k => advanceAll k hs).pushOnce (.copyQueueRelease c))

/-- A word of format E. -/
def copyE (fn : CopyFn) (ch : BitVec 2) (b : Option Reg) (a d : Reg) (s : State) : State :=
  issue 4 (some d) (a :: b.toList) (fun s =>
    acceptCopy { fn := fn, ch := ch.toNat, a := a, d := d, p := match b with | some b => rd s.k b | none => 0 } s) s

/-- A word of format ECX (R94). -/
def copyX (fn : CopyFn) (e : Ecx) (s : State) : State :=
  issue (if e.lit.isSome then 20 else 12) (some e.d) (e.a :: (if e.lit.isSome ∨ fn = .flushr then [] else [e.b])) (fun s =>
    acceptCopy { fn := fn, ch := e.ch.toNat, a := e.a, d := e.d, p := e.lit.getD (rd s.k e.b), g := e.g, rel := e.rel,
                 acq := e.acq, scope := e.scope, gd := e.gd,
                 res := if e.imm.getLsbD 3 then some (e.imm.setWidth 3) else none } s) s

/-- COPY (R99). -/
def execCopy (c : BitVec 2) (b a d : Reg) (s : State) : Out := took (copyE .copy c (some b) a d s)
/-- GATHER (R99). -/
def execGather (c : BitVec 2) (b a d : Reg) (s : State) : Out := took (copyE .gather c (some b) a d s)
/-- SCATTER (R99). -/
def execScatter (c : BitVec 2) (b a d : Reg) (s : State) : Out := took (copyE .scatter c (some b) a d s)
/-- COMPACT (R100). -/
def execCompact (c : BitVec 2) (b a d : Reg) (s : State) : Out := took (copyE .compact c (some b) a d s)
/-- FILL (R99). -/
def execFill (c : BitVec 2) (b a d : Reg) (s : State) : Out := took (copyE .fill c (some b) a d s)
/-- FLUSHR (R101). -/
def execFlushr (c : BitVec 2) (a d : Reg) (s : State) : Out := took (copyE .flushr c none a d s)
/-- COPY in ECX form (R94, R95). -/
def execCopyEcx (e : Ecx) (s : State) : Out := took (copyX .copy e s)
/-- GATHER in ECX form (R94, R95). -/
def execGatherEcx (e : Ecx) (s : State) : Out := took (copyX .gather e s)
/-- SCATTER in ECX form (R94, R95). -/
def execScatterEcx (e : Ecx) (s : State) : Out := took (copyX .scatter e s)
/-- COMPACT in ECX form, with the guard that it resolves (R94, R100). -/
def execCompactEcx (e : Ecx) (s : State) : Out := took (copyX .compact e s)
/-- FILL in ECX form (R94, R99). -/
def execFillEcx (e : Ecx) (s : State) : Out := took (copyX .fill e s)
/-- FLUSHR in ECX form (R94, R101). -/
def execFlushrEcx (e : Ecx) (s : State) : Out := took (copyX .flushr e s)

/-- The status word of R102 for context `x`. -/
def cstatWord (s : State) (c x : Nat) : Nat :=
  let k := s.core c
  let run := fun (n : Nat) => match Tbl.find k.chans n with | some id => opById s c id | none => none
  let bit := fun (f : Nat → Bool) => (upFrom 0 4).foldr (fun n v => bitN (f n) + 2 * v) 0
  let head := match k.copyQ with
    | id :: _ => match opById s c id with | some o => (guardedOf o).taken == .waiting | none => false
    | [] => false
  bit (fun n => match run n with | some o => o.ctx == x | none => false) * 4096 + bitN head * 256
    + bit (fun n => (run n).isSome) * 16 + k.copyQ.length

/-- CSTAT (R102). -/
def execCstat (d : Reg) (s : State) : Out :=
  took (issue 4 (some d) [] (fun s => .ret (s.wrK d (BitVec.ofNat 64 (cstatWord s s.cur.1 s.cur.2)))) s)

/-! The end of a command. -/

/-- The reply of R93. -/
def copyReply (status cause n : Nat) : Word := BitVec.ofNat 64 (status * 2 ^ 56 + cause * 2 ^ 48 + n % 2 ^ 48)

/-- A group write that ends with negatives: its bytes were sent all the same (R256). -/
def groupNegative (p : Stop) : Bool := p.cause == .fabnack && p.einfo.toNat ≥ 4096

/-- A command ends: its reply, its event, the guard of a COMPACT (R93, R100, R103, R104). A failed one stays listed (R377), and the writes
it has delivered may still wait for acknowledgements (R96). DESIGN CHOICE (log 76): a COMPACT that its own guard discards leaves its result
guard as it was. -/
def finishCopy (s : State) (c : Nat) (o : Op) (k : CopyCmd) (status : Nat) (p : Stop) : State :=
  let n := if status = 1 then 0 else match k.fn with | .compact => k.kept | _ => k.bytes
  let v := copyReply status (if status = 2 then p.cause.code else 0) n
  let s := updOpCtx s c o fun q => wrReply q k.dest v
  let s := match k.res with
    | some q =>
      if status = 1 ∨ q = 0 ∨ o.ctx = orphan then s else
      let b := status == 0 && k.p.toNat ≤ n
      let s := updOpCtx s c o fun t => let t := setGuard t q (some b); { t with compacted := q.toNat :: t.compacted }
      takeGuards s c o.ctx q b
    | none => s
  let s := endEvent s c o
  let s := dropReplies s c o.id
  if status = 2 then
    let s := updOp s c o.id fun o => { o with
      status := 2, cause := p.cause, ended := true, reply := v, addr := p.eaddr
      done := if s.awaiting.any (fun a => a.core == c && a.op == o.id) then some .die else some .sys }
    if o.ctx = orphan then dropOp s c o.id
    else
      -- a group write with negatives gives the member counts (R256)
      let info := if groupNegative p then p.einfo else BitVec.ofNat 64 (p.cause.code + k.ch * 256)
      reportFail s c o .engine { cause := .engfault, eaddr := p.eaddr, einfo := info } true 0
  else endOp s c o.id v

/-- Earlier loads and AMOs of a command's context that have not bound: an acquire comes after them (R95, R211). -/
def loadsBefore (s : State) (c : Nat) (o : Op) : Bool :=
  (mates s c o).any fun q => q.id < o.id && live q && (isLoad q || isAmo q)

/-- COPY_QUEUE_RELEASE (R92, R95, R103, R211): the head goes to its idle channel, or is discarded by its guard; it waits behind an
unresolved guard, a busy channel or an earlier release of its context (R95). -/
def runCopyQueueRelease (c : Nat) (s : State) : State :=
  match (s.core c).copyQ with
  | [] => s
  | id :: rest =>
    let pop := fun (s : State) => (s.updCore c fun k => { k with copyQ := rest }).pushOnce (.copyQueueRelease c)
    match opById s c id with
    | none => pop s
    | some o =>
      match o.body with
      | .copy k =>
        match k.guarded.taken with
        | .waiting => s
        | .discard => finishCopy (pop s) c o k 1 {cause := .none}
        | .run =>
          if (Tbl.find (s.core c).chans k.ch).isSome then s
          else if releaseBefore s c o ∨ (k.acq = true ∧ loadsBefore s c o = true) then s.pushOnce (.copyQueueRelease c)
          else
            let s := if k.acq then
                updOpCtx (if k.scope = .sys then dropCachedPeers s c else s) c o region
              else s
            let s := (pop s).updCore c fun t => { t with chans := Tbl.put t.chans k.ch id }
            s.pushOnce (.copyBeat c k.ch)
      | _ => pop s
def execCopyQueueRelease (core : Nat) (s : State) : Out := took (runCopyQueueRelease core s)

/-! Beats. -/

/-- Bytes delivered once `pos` bits of a walk over destination rows are written (R92). -/
def deliveredBytes (o : Operand) (pos : Nat) (done : Bool) : Nat :=
  let r := pos % rowBits o
  pos / rowBits o * rowBytes o + (if done then (r + 7) / 8 else r / 8)

/-- Bits from a bit of a destination row up to the end of the sector, or of the run, that one beat fills (R92, R249, R253). -/
def runLeft (s : State) (w : Who) (ea : Word) (bit : Nat) : Nat :=
  let z := runSize s w ea
  8 * z - (((ea + BitVec.ofNat 64 (bit / 8)).toNat % z) * 8 + bit % 8)

/-- An index element: Zext, or Sext for s32 (R99). -/
def indexValue (o : Operand) (v : Nat) : Int := decodeI (opTy o) v

/-- What a beat comes to: nothing is left, or bytes to write and the command after it. -/
abbrev Beat := Option (List (Word × List Byte) × CopyCmd)

/-- Bits as read put at their destination, with the free choice of R99 by destination unit. -/
def putBits (s : State) (w : Who) (id : Nat) (k : CopyCmd) (v : Nat × Nat) (dst : Word × Nat) (unit first n : Nat) :
    Got (List (Word × List Byte)) :=
  match mergeBits s w id dst.1 dst.2 n (chooseRun k.seed first unit n v) with
  | .wait s => .wait s
  | .bad p s => .bad p s
  | .ok (ea, bs) s => .ok (cutRuns s w ea bs) s

/-- The offset at which a peer deposits source bytes that go, whole, into the command's own banks (R249). -/
def depositAt (s : State) (w : Who) (dst : Word × Nat) (bit n : Nat) : Option Nat :=
  if bit % 8 ≠ 0 ∨ dst.2 % 8 ≠ 0 ∨ n % 8 ≠ 0 then none else
  match accessBy s w (dst.1 + BitVec.ofNat 64 (dst.2 / 8)) false true with
  | (.ok { place := .loc h off, win := none, .. }, _) => if h = w.bank ∧ off < bankEnd then some off else none
  | _ => none

/-- `n` bits moved from one place to another. -/
def moveBits (s : State) (w : Who) (id : Nat) (k : CopyCmd) (src : Word × Nat) (dst : Word × Nat) (unit first n : Nat) :
    Got (List (Word × List Byte)) :=
  match readBits s w id k.undo true src.1 src.2 n (depositAt s w dst src.2 n) with
  | .wait s => .wait s
  | .bad p s => .bad p s
  | .ok v s => putBits s w id k v dst unit first n

/-- The next beat of COPY (R99): the bits of one destination row that lie in one sector, or in one run of 256 bytes at a peer, from as
many source sectors and rows as hold them (R210). DESIGN CHOICE of what one beat covers: log 70. -/
def beatCopy (s : State) (w : Who) (id : Nat) (k : CopyCmd) : Got Beat :=
  let u := unitBits k.dst
  let total := copyCount k * u
  if k.pos ≥ total then .ok none s else
  let dst := (rowEa k.dst (k.pos / rowBits k.dst), k.pos % rowBits k.dst)
  let n := min (total - k.pos) (min (rowBits k.dst - dst.2) (runLeft s w dst.1 dst.2))
  match readWalk s w id k.undo k.src k.pos n (depositAt s w dst (k.pos % rowBits k.src) n) (n / rowBits k.src + 2) with
  | .wait s => .wait s
  | .bad p s => .bad p s
  | .ok v s =>
    match putBits s w id k v dst u k.pos n with
    | .wait s => .wait s
    | .bad p s => .bad p s
    | .ok ps s =>
      let pos := k.pos + n
      .ok (some (ps, { k with pos := pos, bytes := deliveredBytes k.dst pos (pos == total || pos % rowBits k.dst == 0) })) s

/-- A bit pattern repeated: `n` bits of it from bit `pos`. -/
def fillBits (v w pos n : Nat) : Nat :=
  (upFrom 0 n).foldr (fun j acc => bitN (v.testBit ((pos + j) % w)) + 2 * acc) 0

/-- The next beat of FILL: every element takes the low bits of the parameter (R99). -/
def beatFill (s : State) (w : Who) (id : Nat) (k : CopyCmd) : Got Beat :=
  let total := elems k.dst * unitBits k.dst
  if k.pos ≥ total then .ok none s else
  let d := rowEa k.dst (k.pos / rowBits k.dst)
  let db := k.pos % rowBits k.dst
  let n := min (rowBits k.dst - db) (runLeft s w d db)
  match mergeBits s w id d db n (fillBits k.p.toNat (elemBits (opTy k.dst)) k.pos n) with
  | .wait s => .wait s
  | .bad p s => .bad p s
  | .ok (ea, bs) s =>
    let pos := k.pos + n
    .ok (some (cutRuns s w ea bs,
      { k with pos := pos, bytes := deliveredBytes k.dst pos (pos == total || pos % rowBits k.dst == 0) })) s

/-- The next beat of GATHER or SCATTER: rows by index (R99). A nibble that an odd q4 source row does not have is free. -/
def beatRows (s : State) (w : Who) (id : Nat) (k : CopyCmd) : Got Beat :=
  let rb := rowBits k.dst
  let total := copyCount k * rb
  if k.pos ≥ total then .ok none s else
  let i := k.pos / rb
  let b := k.pos % rb
  let index := match k.krow with
    | some r => Got.ok (r : Int) s
    | none =>
      let at' := elemAt k.idx i
      match readBits s w id [] true at'.1 at'.2 (elemBits (opTy k.idx)) with
      | .ok v s => .ok (indexValue k.idx v.1) s
      | .wait s => .wait s
      | .bad p s => .bad p s
  match index with
  | .wait s => .wait s
  | .bad p s => .bad p s
  | .ok r s =>
    let lim := match k.fn with | .gather => rows k.src | _ => rows k.dst
    if r < 0 ∨ r ≥ lim then .bad { cause := .shape } s else
    let sr := match k.fn with | .gather => r.toNat | _ => i
    let dr := match k.fn with | .gather => i | _ => r.toNat
    let d := rowEa k.dst dr
    let e := rowEa k.src sr
    let have' := rowBits k.src - b
    let n := min (rb - b) (runLeft s w d b)
    let move := if have' = 0 then
        match mergeBits s w id d b n ((Config.freeWord (k.seed + k.pos)).toNat % 2 ^ n) with
        | .ok (ea, bs) s => Got.ok (cutRuns s w ea bs, n) s
        | .wait s => .wait s
        | .bad p s => .bad p s
      else
        match moveBits s w id k (e, b) (d, b) (unitBits k.dst) (dr * rb + b) (min n have') with
        | .ok ps s => .ok (ps, min n have') s
        | .wait s => .wait s
        | .bad p s => .bad p s
    match move with
    | .wait s => .wait s
    | .bad p s => .bad p s
    | .ok (ps, n) s =>
      let pos := k.pos + n
      .ok (some (ps, { k with
        pos := pos
        krow := if pos % rb = 0 then none else some r.toNat
        bytes := deliveredBytes k.dst pos (pos % rb == 0) })) s

/-- The next source element of COMPACT (R100). -/
def beatCompact (s : State) (w : Who) (id : Nat) (k : CopyCmd) : Got Beat :=
  if k.pos ≥ elems k.src then .ok none s else
  let m := unitAt k.idx k.pos
  match readBits s w id [] true m.1 m.2 (unitBits k.idx) with
  | .wait s => .wait s
  | .bad p s => .bad p s
  | .ok v s =>
    if v.1 = 0 then .ok (some ([], { k with pos := k.pos + 1 })) s else
    let u := unitBits k.dst
    match moveBits s w id k (unitAt k.src k.pos) (unitAt k.dst k.kept) u (k.kept * u) u with
    | .wait s => .wait s
    | .bad p s => .bad p s
    | .ok ps s =>
      let n := k.kept + 1
      let bits := n * u
      .ok (some (ps, { k with pos := k.pos + 1, kept := n, bytes := deliveredBytes k.dst bits (bits % rowBits k.dst == 0) })) s

/-- What is left of a span once spans already counted are taken out. -/
def uncovered (seen : List (Nat × Nat)) (lo hi : Nat) : List (Nat × Nat) :=
  seen.foldl (fun l iv => l.flatMap fun p =>
    (if p.1 < min p.2 iv.1 then [(p.1, min p.2 iv.1)] else []) ++ (if max p.1 iv.2 < p.2 then [(max p.1 iv.2, p.2)] else [])) [(lo, hi)]

/-- Dirty copies of the sectors of a row written back, in the die's cache and in the core's stash under whatever address, for the command
`id`; the page of a dirty one grants WR (R54, R101). A store that the die has accepted there is granted first. -/
def flushPieces (s : State) (w : Who) (id : Nat) (ps : List (Word × Nat)) : Got Unit :=
  match ps with
  | [] => .ok () s
  | (ea, n) :: ps =>
    match accessBy s w ea false false with
    | (.error p, s) => .bad p s
    | (.ok t, s) =>
      let d := match t.place with | .dev a => (if t.chk then homeDie a else dieOf w.core) | _ => dieOf w.core
      let held := (s.core w.bank).stash.filter fun e => e.2.dirty && onPlace t.place e.2
      let there := match t.place with | .dev a => sectorAt s d (a / 64) | _ => none
      let waits := match t.place with
        | .dev a => (s.die d).accepted.any fun q => q.addr / 64 == a / 64
        | _ => false
      if waits then .wait s
      else if held.isEmpty && !(match there with | some x => x.dirty | none => false) then flushPieces s w id ps
      else
        match accessBy s w ea false true with
        | (.error p, s) => .bad p s
        | (.ok _, s) =>
          let s := s.updCore w.bank fun k =>
            { k with stash := held.foldl (fun t e => Tbl.put t e.1 { e.2 with dirty := false }) k.stash }
          let s := match t.place with
            | .dev a => writeBack s d (a / 64) (some (w.core, w.ctx, id))
            | _ => s
          flushPieces s w id ps

/-- The next row of FLUSHR (R101). -/
def beatFlush (s : State) (w : Who) (id : Nat) (k : CopyCmd) : Got Beat :=
  if k.pos ≥ rows k.dst then .ok none s else
  let ea := rowEa k.dst k.pos
  let n := rowBytes k.dst
  match flushPieces s w id (pieces ea n) with
  | .wait s => .wait s
  | .bad p s => .bad p s
  | .ok _ s =>
    let new := uncovered k.seen ea.toNat (ea.toNat + n)
    .ok (some ([], { k with
      pos := k.pos + 1
      seen := k.seen ++ new
      bytes := k.bytes + new.foldl (fun n p => n + (p.2 - p.1)) 0 })) s

def nextBeat (s : State) (w : Who) (id : Nat) (k : CopyCmd) : Got Beat :=
  match k.fn with
  | .copy => beatCopy s w id k
  | .fill => beatFill s w id k
  | .gather | .scatter => beatRows s w id k
  | .compact => beatCompact s w id k
  | .flushr => beatFlush s w id k

def setCopy (s : State) (c id : Nat) (k : CopyCmd) : State := updOp s c id fun o => { o with body := .copy k }

/-- COPY_BEAT (R92, R95, R99-R101, R104): the channel's command moves its next beat; a page that faults holds it (R58), any other
fault ends it. DESIGN CHOICE (log 77): the bytes that FLUSHR counts advance the write pointer of its channel too (R106). -/
def runCopyBeat (c ch : Nat) (s : State) : State :=
  match Tbl.find (s.core c).chans ch with
  | none => s
  | some id =>
    match opById s c id with
    | none => s
    | some o =>
      match o.body with
      | .copy k =>
        let again := fun (s : State) => s.pushOnce (.copyBeat c ch)
        let finish := fun (s : State) => s.pushOnce (.copyCommandEnd c ch)
        if o.held ∨ k.failed.isSome then s
        else if (copyOperands k).any (·.empty) then finish s
        else if storesBefore s c o ∨ vectorsBefore s c o then again s
        else
          let w := whoOp s c o
          let fails := fun (p : Stop) (t : State) =>
            if p.cause = .xlate then holdOp (keepReplies s c id { s with tlb := t.tlb }) c o p (.copyBeat c ch)
            else finish (setCopy { s with races := t.races, nextId := t.nextId } c id { k with failed := some p })
          match nextBeat s w id k with
          | .wait t => again (keepReplies s c id t)
          | .bad p t => fails p t
          | .ok none t => finish t
          | .ok (some (ps, k')) t =>
            match writeBeat t w id k.undo k.g ps with
            | .wait t => again (keepReplies s c id t)
            | .bad p t =>
              if groupNegative p then finish (setCopy t c id { k with failed := some p, bytes := k'.bytes }) else fails p t
            | .ok u t =>
              let t := setCopy (dropReplies t c id) c id { k' with undo := u }
              let t := updOpCtx t c o fun q =>
                { q with wp := Tbl.put q.wp ch (Tbl.read q.wp ch 0 + BitVec.ofNat 64 (k'.bytes - k.bytes)) }
              again (charge (countEv t c (o.ctx % 16) 9 1) o.dom 2 1)
      | _ => s
def execCopyBeat (core ch : Nat) (s : State) : Out := took (runCopyBeat core ch s)

/-- COPY_COMMAND_END (R93, R95, R100, R104): after its write-backs, its replies and its release. -/
def runCopyCommandEnd (c ch : Nat) (s : State) : State :=
  match Tbl.find (s.core c).chans ch with
  | none => s
  | some id =>
    let free := fun (s : State) =>
      (s.updCore c fun k => { k with chans := Tbl.del k.chans ch }).pushOnce (.copyQueueRelease c)
    match opById s c id with
    | none => free s
    | some o =>
      match o.body with
      | .copy k =>
        let again := fun (s : State) => s.pushOnce (.copyCommandEnd c ch)
        let ops := mates s c o
        let p : Option Stop := match k.failed with
          | some p => some p
          | none => if o.cause = .visfail then some (stopAt .visfail o.addr) else none
        match p with
        | some p => finishCopy (free s) c o k 2 p
        | none =>
          if k.fn = .flushr ∧ s.sent.any (fun r => r.core == wbCore (dieOf c)) then again s
          else if ¬ k.rel then finishCopy (free s) c o k 0 { cause := .none }
          else if ¬ releaseReady ops id k.scope ∨ (k.scope ≠ .core ∧ k.scope ≠ .cl ∧ k.scope ≠ .die ∧ writesOut s c id) then again s
          else if k.scope = .sys ∧ ¬ (peerDirty s (dieOf c)).isEmpty then again (sendPeerDirty s (dieOf c) (some (c, o.ctx, 0)))
          else if k.scope = .sys ∧ s.sent.any (fun r => r.core == wbCore (dieOf c)) then again s
          else finishCopy (updOpCtx (free s) c o region) c o k 0 { cause := .none }
      | _ => free s
def execCopyCommandEnd (core ch : Nat) (s : State) : Out := took (runCopyCommandEnd core ch s)

end Sys2Proof.Machine
end

