-- ==== Sys2Proof/Machine/Vector.lean ====
section
/-!
DEFINITION. The vector engine (R154-R175): acceptance, the value of one element under each function, reductions and scans in
the orders of R147, one beat, the stops of R163 and the end of a command.
-/
set_option linter.all false
namespace Sys2Proof.Machine
open Sys2Proof

/-! The value of an element. -/

/-- Condition of VCMP by code (R170). -/
def vcmpBits (t : ElemTy) (c p q : Nat) : Bool × Nat :=
  if isI t then
    let a := decodeI t p
    let b := decodeI t q
    (match c with
      | 0 => a == b | 1 => a != b | 2 => a < b | 3 => b ≤ a | 4 => a ≤ b | _ => b < a, 0)
  else
    let a := decodeF t p
    let b := decodeF t q
    let nan := isNan a || isNan b
    let o := numCmp a b
    let quiet := c == 0 || c == 1 || c == 6
    let fl := (if (if quiet then a == .nan true || b == .nan true else nan) then fIV else 0)
      + (if a == .nar || b == .nar then fNR else 0)
    (match c with
      | 0 => !nan && o == .eq
      | 1 => nan || o != .eq
      | 2 => !nan && o == .lt
      | 3 => !nan && o != .lt
      | 4 => !nan && o != .gt
      | 5 => !nan && o == .gt
      | _ => nan, fl)

/-- VMIN and VMAX (R168). -/
def vecSelect (t : ElemTy) (isMax : Bool) (p q : Nat) : Nat × Nat :=
  if isI t then (if (decodeI t p < decodeI t q) != isMax then p else q, 0) else selectF t isMax p q

/-- An exact float result delivered in TY (R167). -/
def vecFloat (t : ElemTy) (mode : Rm) (r : Num × Nat) : Nat × Nat := deliver t mode r

/-- VABS and VNEG (R168). -/
def vecSign (t : ElemTy) (sat neg : Bool) (p : Nat) : Nat × Nat :=
  if isI t then
    let a := decodeI t p
    if neg then deliverI t sat (-a) else if isSigned t then deliverI t sat a.natAbs else (p, 0)
  else if isTapered t then
    let n := taperBits t
    if neg ∨ (p.testBit (n - 1) ∧ p ≠ 2 ^ (n - 1)) then ((2 ^ n - p) % 2 ^ n, 0) else (p, 0)
  else
    let b := (ieeeOf t).signBit
    (if neg then p ^^^ b else p % b, 0)

/-- VSHL, VSHR and VSAR (R169): 0 left, 1 right, 2 arithmetic right. -/
def vecShift (t : ElemTy) (kind p q : Nat) : Nat :=
  let w := intBits t
  let n := q % w
  match kind with
  | 0 => p * 2 ^ n % 2 ^ w
  | 1 => p / 2 ^ n
  | _ => ((BitVec.ofNat w p).sshiftRight n).toNat

/-- Round(mode)(VTANH), which signs a rounded magnitude, and the other special functions (R172). -/
def vecSpecial (fn : VFn) (t : ElemTy) (mode : Rm) (p : Nat) : Nat × Nat :=
  let x := decodeF t p
  match fn with
  | .vexp2 => deliver t mode (fnExp2 x)
  | .vlog2 => deliver t mode (fnLog2 x)
  | .vsigm => deliver t mode (fnSigm x)
  | _ => deliverTanh t mode x

/-- Element `i` of d from the patterns of its sources: a pattern and the flags it raises (R167-R171, R175). -/
def vecElem (k : VecCmd) (i p q r : Nat) : Nat × Nat :=
  let t := k.v.ty
  let mode := modeOf k.v.rm k.fpc
  let f := decodeF t
  let arith := fun (x : Int) (y : Unit → Num × Nat) => if isI t then deliverI t k.v.sat x else deliver t mode (y ())
  let a := decodeI t p
  let b := decodeI t q
  let c := decodeI t r
  match k.fn with
  | .vadd => arith (a + b) fun _ => numAdd mode (f p) (f q)
  | .vsub => arith (a - b) fun _ => numAdd mode (f p) (numNeg (f q))
  | .vmul => arith (a * b) fun _ => numMul (f p) (f q)
  | .vfma => arith (a * b + c) fun _ => numFma mode (f p) (f q) (f r)
  | .vfms => arith (a * b - c) fun _ => numFma mode (f p) (f q) (numNeg (f r))
  | .vdiv => deliver t mode (numDiv (f p) (f q))
  | .vsqrt => deliver t mode (numSqrt (f p))
  | .vrcp => deliver t mode (numDiv numOne (f p))
  | .vrsq => deliver t mode (numRsqrt (f p))
  | .vlerp => deliver t mode (numLerp mode (f p) (f q) (f r))
  | .vexp2 | .vlog2 | .vtanh | .vsigm => vecSpecial k.fn t mode p
  | .vmin => vecSelect t false p q
  | .vmax => vecSelect t true p q
  | .vclamp =>
    let m := vecSelect t true p q
    let n := vecSelect t false m.1 r
    (n.1, m.2 ||| n.2)
  | .vabs => vecSign t k.v.sat false p
  | .vneg => vecSign t k.v.sat true p
  | .vand => (p &&& q, 0)
  | .vor => (p ||| q, 0)
  | .vxor => (p ^^^ q, 0)
  | .vnot => (2 ^ intBits t - 1 - p, 0)
  | .vshl => (vecShift t 0 p q, 0)
  | .vshr => (vecShift t 1 p q, 0)
  | .vsar => (vecShift t 2 p q, 0)
  | .vcmp => let z := vcmpBits t (k.v.imm.toNat % 8) p q; (bitN z.1, z.2)
  | .vsel => (if r ≠ 0 then p else q, 0)
  | .vcvt => convert t (cvtTarget k.v) k.v.sat mode (q4Value k.q) p
  | .vqexp => convert .q4 t k.v.sat mode (q4Value k.q) p
  | .vbcst => (if k.v.bs then q else p, 0)
  | .viota => deliverI t k.v.sat ((k.v.imm.signExtend 64).toInt + i)
  | .vred | .vscan | .vcount => (p, 0)

/-! Reductions (R147, R173). -/

/-- One combination under an op code: 0 add, 1 min, 2 max, 3 and, 4 or, 5 xor. -/
def combine (k : VecCmd) (x y : Nat × Nat) : Nat × Nat :=
  let t := k.v.ty
  let mode := modeOf k.v.rm k.fpc
  let r := match k.v.imm.toNat % 16 with
    | 0 => if isI t then deliverI t k.v.sat (decodeI t x.1 + decodeI t y.1)
      else deliver t mode (numAdd mode (decodeF t x.1) (decodeF t y.1))
    | 1 => vecSelect t false x.1 y.1
    | 2 => vecSelect t true x.1 y.1
    | 3 => (x.1 &&& y.1, 0)
    | 4 => (x.1 ||| y.1, 0)
    | _ => (x.1 ^^^ y.1, 0)
  (r.1, r.2 ||| x.2 ||| y.2)

/-- Adjacent results combined, an odd one passing up unchanged. -/
def pairUp (f : Nat × Nat → Nat × Nat → Nat × Nat) : List (Nat × Nat) → List (Nat × Nat)
  | x :: y :: r => f x y :: pairUp f r
  | l => l

/-- The pairwise tree of R147. -/
def treeOf (f : Nat × Nat → Nat × Nat → Nat × Nat) : Nat → List (Nat × Nat) → Nat × Nat
  | 0, l => l.headD (0, 0)
  | n + 1, l =>
    match l with
    | [x] => x
    | l => treeOf f n (pairUp f l)

def tree (f : Nat × Nat → Nat × Nat → Nat × Nat) (l : List (Nat × Nat)) : Nat × Nat := treeOf f (l.length + 1) l

/-- In order: r := first; then r := r op next. -/
def inOrder (f : Nat × Nat → Nat × Nat → Nat × Nat) (l : List (Nat × Nat)) : Nat × Nat :=
  match l with
  | [] => (0, 0)
  | x :: r => r.foldl f x

/-- Runs of eight. -/
def eights {α : Type} : Nat → List α → List (List α)
  | 0, _ => []
  | n + 1, l => if l.isEmpty then [] else l.take 8 :: eights n (l.drop 8)

/-- The groups of R173 combined in the order of the captured VER (R147). -/
def reduce (k : VecCmd) (groups : List (List (Nat × Nat))) : Nat × Nat :=
  let f := combine k
  match k.ver with
  | 1 => inOrder f groups.flatten
  | 2 => inOrder f ((eights groups.length (groups.map (tree f))).map (tree f))
  | _ => inOrder f (groups.map (tree f))

/-- Elements of a beat of a type (R157). -/
def beatEls (t : ElemTy) : Nat := match t with | .t6 => 64 | t => 512 / elemBits t

/-- Consecutive equal keys grouped. -/
def groupRuns (l : List (Nat × (Nat × Nat))) : List (List (Nat × Nat)) :=
  (l.foldr (fun (e : Nat × (Nat × Nat)) (acc : List (Nat × List (Nat × Nat))) =>
    match acc with
    | (key, g) :: r => if key = e.1 then (key, e.2 :: g) :: r else (e.1, [e.2]) :: acc
    | [] => [(e.1, [e.2])]) []).map (·.2)

/-- Extent of a dimension in elements. -/
def elExt (o : Operand) (d : Nat) : Nat := if d = 0 then rowEls o else ext o d

/-- Whether VRED's mask reduces a dimension. -/
def reduces (v : Vx) (d : Nat) : Bool := v.imm.toNat / 16 % 16 / 2 ^ d % 2 == 1

/-- Output elements of VRED: the product of the unreduced extents (R173). -/
def redOutputs (k : VecCmd) : Nat :=
  (upFrom 0 4).foldl (fun n d => if reduces k.v d then n else n * elExt k.a d) 1

/-- The elements of a that contribute to an output element, in walk order. -/
def contributors (k : VecCmd) (out : Nat) : List Nat :=
  let e := elExt k.a
  -- the unreduced index of each dimension, from the output's number
  let split := (upFrom 0 4).foldl (fun (acc : List (List Nat) × Nat) d =>
    if reduces k.v d then (acc.1 ++ [upFrom 0 (e d)], acc.2)
    else (acc.1 ++ [[acc.2 % e d]], acc.2 / e d)) ([], out)
  let ix := fun (d : Nat) => split.1.getD d [0]
  (ix 3).flatMap fun i3 => (ix 2).flatMap fun i2 => (ix 1).flatMap fun i1 => (ix 0).map fun i0 =>
    ((i3 * e 2 + i2) * e 1 + i1) * e 0 + i0

/-- The group of a contributor: its row, and the beat within the row (R173). -/
def groupKey (o : Operand) (i : Nat) : Nat := i / rowEls o * 65536 * 64 + i % rowEls o / beatEls (opTy o)

/-- The register form of a reduction's result (R173). -/
def redWord (t : ElemTy) (p : Nat) : Word := if isSigned t then sext (intBits t) (BitVec.ofNat 64 p) else BitVec.ofNat 64 p

/-- The identity of VRED's op in TY (R175). -/
def redIdentity (v : Vx) : Nat :=
  let t := v.ty
  let n := taperBits t
  match v.imm.toNat % 16 with
  | 1 => if isI t then wrapI t (intRange t).2 else if isTapered t then 2 ^ (n - 1) - 1 else (ieeeOf t).infBits
  | 2 => if isI t then wrapI t (intRange t).1 else if isTapered t then 2 ^ (n - 1) + 1
    else (ieeeOf t).signBit + (ieeeOf t).infBits
  | 3 => 2 ^ intBits t - 1
  | _ => 0

/-! Acceptance (R154, R158, R159, R161). -/

/-- The slots that a function uses, with the types that its handles must have. -/
def vecSlots (k : VecCmd) : List (Operand × (ElemTy → Bool)) :=
  let ty := fun (t : ElemTy) => t == k.v.ty
  let b := if k.v.bs then [] else [(k.b, ty)]
  match k.fn with
  | .vadd | .vsub | .vmul | .vmin | .vmax | .vdiv | .vand | .vor | .vxor | .vshl | .vshr | .vsar => [(k.d, ty), (k.a, ty)] ++ b
  | .vfma | .vfms | .vlerp | .vclamp => [(k.d, ty), (k.a, ty), (k.c, ty)] ++ b
  | .vcmp => [(k.d, isI), (k.a, ty)] ++ b
  | .vsel => [(k.d, ty), (k.a, ty), (k.c, isI)] ++ b
  | .vcvt => [(k.d, fun t => t == cvtTarget k.v), (k.a, ty)]
  | .vqexp => [(k.d, ty), (k.a, fun t => t == .q4)]
  | .vred => (if redToReg k.v then [] else [(k.d, ty)]) ++ [(k.a, ty)]
  | .vbcst => if k.v.bs then [(k.d, ty)] else [(k.d, ty), (k.a, ty)]
  | .viota => [(k.d, ty)]
  | .vcount => [(k.a, ty)]
  | .vabs | .vneg | .vsqrt | .vrcp | .vrsq | .vexp2 | .vlog2 | .vtanh | .vsigm | .vnot | .vscan => [(k.d, ty), (k.a, ty)]

/-- Whether a function uses the handle slots d, a, b and c; a slot that it does not use holds no operand (R156, R157). -/
def usesD (k : VecCmd) : Bool := match k.fn with | .vred => !redToReg k.v | .vcount => false | _ => true
def usesA (k : VecCmd) : Bool := match k.fn with | .viota => false | .vbcst => !k.v.bs | _ => true
def usesB (k : VecCmd) : Bool :=
  !k.v.bs && match k.fn with
    | .vadd | .vsub | .vmul | .vmin | .vmax | .vdiv | .vand | .vor | .vxor | .vshl | .vshr | .vsar
    | .vfma | .vfms | .vlerp | .vclamp | .vcmp | .vsel => true
    | _ => false
def usesC (k : VecCmd) : Bool := match k.fn with | .vfma | .vfms | .vlerp | .vclamp | .vsel => true | _ => false
def keepUsed (k : VecCmd) : VecCmd :=
  let keep := fun (b : Bool) (o : Operand) => if b then o else noOperand
  { k with d := keep (usesD k) k.d, a := keep (usesA k) k.a, b := keep (usesB k) k.b, c := keep (usesC k) k.c }

/-- The element counts of R155 and R173. -/
def vecCounts (k : VecCmd) : Bool :=
  match k.fn with
  | .vred => redToReg k.v || count k.d == redOutputs k
  | .vbcst | .viota | .vcount => true
  | _ => (vecSlots k).tail.all fun s => count s.1 == count k.d || count s.1 == 1

/-- The handles that last-read marks name. -/
def vecMarks (k : VecCmd) : List Operand :=
  (if k.v.la then [k.a] else []) ++ (if k.v.lb then [k.b] else []) ++ (if k.v.lc then [k.c] else [])

/-- The fault of a last-read mark at acceptance (R161). -/
def markFault (s : State) (o : Operand) : Option Stop :=
  match o.bind with
  | none => none
  | some b =>
    if b.producer then some (stopWhy .ring 2)
    else match ringOf s b with
      | none => none
      | some r => if availOf r b < o.marks then some (stopWhy .ring 4) else none

/-- A mark performed at completion (R161): the handle's pending advance, or its lines first to evict. -/
def doMark (s : State) (c : Nat) (o : Op) (p : Operand) : State :=
  match p.bind with
  | some b =>
    updOpCtx s c o fun k =>
      let h := Tbl.read k.handles p.hx {}
      match h.bind with
      | some q =>
        if q.core = b.core ∧ q.off = b.off ∧ q.producer = b.producer then
          { k with handles := Tbl.put k.handles p.hx { h with bind := some { q with pending := q.pending + p.marks } } }
        else k
      | none => k
  | none =>
    let w := whoOp s c o
    (upFrom 0 (rows p)).foldl (fun s r =>
      (pieces (rowEa p r) (rowBytes p)).foldl (fun s e =>
        match accessBy s w e.1 true false with
        | (.ok t, s) => match t.place with
          | .dev _ => lastUse s o.bank t
          | _ => s
        | (.error _, s) => s) s) s

/-- Whether kept commands of a kind have to rejoin first (R163, R195). -/
def mustRejoin (k : Ctx) (kind : Op → Bool) : Bool := k.kept.any kind

/-- t6 under VER 1 (R148). -/
def vecT6 (fn : VFn) (v : Vx) : Bool := v.ty == .t6 || (fn == .vcvt && cvtTarget v == .t6)

/-- Acceptance of a vector command. -/
def acceptVec (fn : VFn) (v : Vx) (s : State) : Res :=
  let (c, x) := s.cur
  let k := s.k
  let ops := opsOf s c x
  if acqPending ops ∨ rangePending ops ∨ (s.core c).vecQ.length ≥ 2 ∨ ¬ tableRoom s c 1 ∨ mustRejoin k isVec then .wait s
  else
    let cmd : VecCmd :=
      { fn := fn, v := v, d := capture s k v.hd, a := capture s k v.ha, b := capture s k v.hb, c := capture s k v.hc,
        scalar := v.lit.getD (rd k v.sb), fpc := k.fpc, ver := k.nbv,
        q := ((s.core (bankCore s c x)).qtlo, (s.core (bankCore s c x)).qthi), guarded := guardedAt k v.gd, seed := s.free }
    let slots := vecSlots cmd
    let used := slots.map (·.1)
    let marks := vecMarks cmd
    let empty := used.any (·.empty)
    if ¬ empty ∧ (used.any nullOperand ∨ ¬ used.all typed ∨ ¬ slots.all (fun e => e.2 (opTy e.1)) ∨ ¬ vecCounts cmd ∨ ¬ used.all ringFits) then
      .fault (stopWhy .shape 0) s
    else
      match (if empty then none else marks.findSome? (markFault s)) with
      | some p => .fault p s
      | none =>
        let cmd := keepUsed cmd
        let (id, s) := s.fresh
        let s := { s with free := s.free + 4 * (count cmd.d + count cmd.a + 1) }
        let s := addOp s c (mkOp s id (rowEa (used.headD noOperand) 0) none (.vec cmd))
        let s := s.updCore c fun q => { q with vecQ := q.vecQ ++ [id] }
        .ret ((s.updK fun q => advanceAll q (used.map fun o => BitVec.ofNat 4 o.hx)).pushOnce (.vectorBeat c))

/-- A VEC word (R154, R158). -/
def vecInstr (fn : VFn) (i : Instr) (v : Vx) (s : State) : State :=
  refusedBy i (if vecT6 fn v && s.k.nbv == 1 then some .ill else none)
    (issue (if v.lit.isSome then 20 else 12)
      (match fn with | .vcount => some v.sb | .vred => if redToReg v then some v.sb else none | _ => none)
      (if v.bs ∧ v.lit = none then [v.sb] else []) (acceptVec fn v)) s

/-- VADD (R167). -/
def execVadd (v : Vx) (s : State) : Out := took (vecInstr .vadd (.vadd v) v s)
/-- VSUB (R167). -/
def execVsub (v : Vx) (s : State) : Out := took (vecInstr .vsub (.vsub v) v s)
/-- VMUL (R167). -/
def execVmul (v : Vx) (s : State) : Out := took (vecInstr .vmul (.vmul v) v s)
/-- VFMA (R167). -/
def execVfma (v : Vx) (s : State) : Out := took (vecInstr .vfma (.vfma v) v s)
/-- VFMS (R167). -/
def execVfms (v : Vx) (s : State) : Out := took (vecInstr .vfms (.vfms v) v s)
/-- VMIN (R168). -/
def execVmin (v : Vx) (s : State) : Out := took (vecInstr .vmin (.vmin v) v s)
/-- VMAX (R168). -/
def execVmax (v : Vx) (s : State) : Out := took (vecInstr .vmax (.vmax v) v s)
/-- VABS (R168). -/
def execVabs (v : Vx) (s : State) : Out := took (vecInstr .vabs (.vabs v) v s)
/-- VNEG (R168). -/
def execVneg (v : Vx) (s : State) : Out := took (vecInstr .vneg (.vneg v) v s)
/-- VDIV (R167). -/
def execVdiv (v : Vx) (s : State) : Out := took (vecInstr .vdiv (.vdiv v) v s)
/-- VSQRT (R167). -/
def execVsqrt (v : Vx) (s : State) : Out := took (vecInstr .vsqrt (.vsqrt v) v s)
/-- VRCP (R167). -/
def execVrcp (v : Vx) (s : State) : Out := took (vecInstr .vrcp (.vrcp v) v s)
/-- VRSQ (R167). -/
def execVrsq (v : Vx) (s : State) : Out := took (vecInstr .vrsq (.vrsq v) v s)
/-- VEXP2 (R172). -/
def execVexp2 (v : Vx) (s : State) : Out := took (vecInstr .vexp2 (.vexp2 v) v s)
/-- VLOG2 (R172). -/
def execVlog2 (v : Vx) (s : State) : Out := took (vecInstr .vlog2 (.vlog2 v) v s)
/-- VTANH (R172). -/
def execVtanh (v : Vx) (s : State) : Out := took (vecInstr .vtanh (.vtanh v) v s)
/-- VSIGM (R172). -/
def execVsigm (v : Vx) (s : State) : Out := took (vecInstr .vsigm (.vsigm v) v s)
/-- VAND (R169). -/
def execVand (v : Vx) (s : State) : Out := took (vecInstr .vand (.vand v) v s)
/-- VOR (R169). -/
def execVor (v : Vx) (s : State) : Out := took (vecInstr .vor (.vor v) v s)
/-- VXOR (R169). -/
def execVxor (v : Vx) (s : State) : Out := took (vecInstr .vxor (.vxor v) v s)
/-- VNOT (R169). -/
def execVnot (v : Vx) (s : State) : Out := took (vecInstr .vnot (.vnot v) v s)
/-- VSHL (R169). -/
def execVshl (v : Vx) (s : State) : Out := took (vecInstr .vshl (.vshl v) v s)
/-- VSHR (R169). -/
def execVshr (v : Vx) (s : State) : Out := took (vecInstr .vshr (.vshr v) v s)
/-- VSAR (R169). -/
def execVsar (v : Vx) (s : State) : Out := took (vecInstr .vsar (.vsar v) v s)
/-- VCMP (R170). -/
def execVcmp (v : Vx) (s : State) : Out := took (vecInstr .vcmp (.vcmp v) v s)
/-- VSEL (R170). -/
def execVsel (v : Vx) (s : State) : Out := took (vecInstr .vsel (.vsel v) v s)
/-- VCVT (R171). -/
def execVcvt (v : Vx) (s : State) : Out := took (vecInstr .vcvt (.vcvt v) v s)
/-- VRED (R173). -/
def execVred (v : Vx) (s : State) : Out := took (vecInstr .vred (.vred v) v s)
/-- VSCAN (R174). -/
def execVscan (v : Vx) (s : State) : Out := took (vecInstr .vscan (.vscan v) v s)
/-- VBCST (R175). -/
def execVbcst (v : Vx) (s : State) : Out := took (vecInstr .vbcst (.vbcst v) v s)
/-- VLERP (R167). -/
def execVlerp (v : Vx) (s : State) : Out := took (vecInstr .vlerp (.vlerp v) v s)
/-- VQEXP (R171). -/
def execVqexp (v : Vx) (s : State) : Out := took (vecInstr .vqexp (.vqexp v) v s)
/-- VIOTA (R175). -/
def execViota (v : Vx) (s : State) : Out := took (vecInstr .viota (.viota v) v s)
/-- VCOUNT (R175). -/
def execVcount (v : Vx) (s : State) : Out := took (vecInstr .vcount (.vcount v) v s)
/-- VCLAMP (R168). -/
def execVclamp (v : Vx) (s : State) : Out := took (vecInstr .vclamp (.vclamp v) v s)
/-! The engine. -/

def setVec (s : State) (c id : Nat) (k : VecCmd) : State := updOp s c id fun o => { o with body := .vec k }

/-- Elements that a command works through: those of d, or one result. -/
def vecTotal (k : VecCmd) : Nat :=
  match k.fn with
  | .vcount => 1
  | .vred => if redToReg k.v then 1 else count k.d
  | _ => count k.d

def vecEmpty (k : VecCmd) : Bool := (vecSlots k).any fun e => e.1.empty

/-- Commands kept with their contexts rejoin the vector queue one by one as entries free (R163). -/
def rejoinVec (s : State) (c : Nat) : Nat → State
  | 0 => s
  | n + 1 =>
    let ready := fun (e : Nat × Ctx) => e.2.work.isSome && e.2.status != .parked && !e.2.p0halt && e.2.pend.isNone && e.2.kept.any isVec
    match (s.core c).ctxs.find? ready with
    | none => s
    | some (x, k) =>
      match k.kept.find? isVec with
      | none => s
      | some o =>
        if (s.core c).vecQ.length ≥ 2 ∨ ¬ tableRoom s c 1 then s
        else
          let s := s.updCtx c x fun k => { k with kept := k.kept.filter fun q => q.id != o.id }
          let s := addOp s c { o with ctx := x }
          let s := s.updCore c fun k => { k with vecQ := k.vecQ ++ [o.id] }
          rejoinVec (s.pushOnce (.vectorBeat c)) c n

/-- The head leaves the queue. -/
def popVec (s : State) (c : Nat) : State :=
  rejoinVec ((s.updCore c fun k => { k with vecQ := k.vecQ.drop 1 }).pushOnce (.vectorBeat c)) c 2

/-- The commands of a context that leave a queue with a stopped one, in order (R163, R195). -/
def keepLater (s : State) (c : Nat) (o : Op) (kind : Op → Bool) : State :=
  let later := (s.core c).ops.filter fun q => q.ctx == o.ctx && kind q && live q && q.id != o.id
  let ids := later.map (·.id)
  let s := s.updCore c fun k =>
    { k with
      ops := k.ops.filter fun q => !ids.contains q.id
      vecQ := k.vecQ.filter fun i => !ids.contains i
      matQ := k.matQ.filter fun i => !ids.contains i }
  updOpCtx s c o fun k => { k with kept := later ++ k.kept }

/-- A command stops (R163, R195): its completed elements' flags reach FPF, it and the context's later ones leave the queue, and the
firing parks; where another failure is already recorded it is kept, and stops again once it has rejoined. -/
def stopCommand (s : State) (c : Nat) (o : Op) (kind : Op → Bool) (flags reix : Nat) (p : Stop) : State :=
  let s := updOpCtx s c o fun k => raiseFlags k flags
  let s := dropReplies (dropOp s c o.id) c o.id
  if o.ctx = orphan then s else
  let s := keepLater s c o kind
  let k := opCtx s c o
  if k.pend.isSome ∨ k.status = .parked then updOpCtx s c o fun k => { k with kept := o :: k.kept }
  else reportFail s c o (.command o) p true reix

/-- Reads of one element of every source of element `i`, each with the free choice of R155. -/
def readSources (s : State) (w : Who) (id : Nat) (k : VecCmd) (i : Nat) : Got (Nat × Nat × Nat) :=
  let one := fun (s : State) (o : Operand) (slot : Nat) =>
    let n := count o
    if n = 0 then Got.ok 0 s else
    let j := match k.fn with | .vbcst => i % n | _ => if n = 1 then 0 else i
    let at' := elemAt o j
    match readBits s w id k.undo true at'.1 at'.2 (elemBits (opTy o)) with
    | .ok v s => .ok (choose (k.seed + 4 * i + slot) v) s
    | .wait s => .wait s
    | .bad p s => .bad p s
  match one s k.a 0 with
  | .wait s => .wait s
  | .bad p s => .bad p s
  | .ok p s =>
    match (if k.v.bs then Got.ok (k.scalar.toNat % 2 ^ elemBits k.v.ty) s else one s k.b 1) with
    | .wait s => .wait s
    | .bad p s => .bad p s
    | .ok q s =>
      match one s k.c 2 with
      | .wait s => .wait s
      | .bad p s => .bad p s
      | .ok r s => .ok (p, q, r) s

/-- The sources of a run of elements. -/
def readRun (s : State) (w : Who) (id : Nat) (k : VecCmd) (is : List Nat) : Got (List (Nat × Nat × Nat)) :=
  match is with
  | [] => .ok [] s
  | i :: is =>
    match readSources s w id k i with
    | .wait s => .wait s
    | .bad p s => .bad p s
    | .ok v s =>
      match readRun s w id k is with
      | .wait s => .wait s
      | .bad p s => .bad p s
      | .ok vs s => .ok (v :: vs) s

/-- What a run of elements of a comes to, for a reduction: numbered patterns. -/
def readInputs (s : State) (w : Who) (id : Nat) (k : VecCmd) (is : List Nat) : Got (List (Nat × (Nat × Nat))) :=
  match is with
  | [] => .ok [] s
  | i :: is =>
    let at' := elemAt k.a i
    match readBits s w id k.undo true at'.1 at'.2 (elemBits (opTy k.a)) with
    | .wait s => .wait s
    | .bad p s => .bad p s
    | .ok v s =>
      match readInputs s w id k is with
      | .wait s => .wait s
      | .bad p s => .bad p s
      | .ok vs s => .ok ((groupKey k.a i, (choose (k.seed + 4 * i) v, 0)) :: vs) s

/-- The results of VRED for a run of output elements. -/
def readOutputs (s : State) (w : Who) (id : Nat) (k : VecCmd) (outs : List Nat) : Got (List (Nat × Nat)) :=
  match outs with
  | [] => .ok [] s
  | i :: is =>
    match readInputs s w id k (contributors k i) with
    | .wait s => .wait s
    | .bad p s => .bad p s
    | .ok l s =>
      match readOutputs s w id k is with
      | .wait s => .wait s
      | .bad p s => .bad p s
      | .ok rs s => .ok (reduce k (groupRuns l) :: rs) s

/-- Non-zero elements among a run of a (VCOUNT). -/
def countRun (s : State) (w : Who) (id : Nat) (k : VecCmd) (is : List Nat) : Got Nat :=
  match readInputs s w id k is with
  | .wait s => .wait s
  | .bad p s => .bad p s
  | .ok l s => .ok (l.filter fun e => e.2.1 != 0).length s

/-- The scan of a run of elements of one row (R174), from the carried result of the beat before and the prefix within this beat:
results with their flags, and the state after each. -/
def scanRun (k : VecCmd) (carry pre : Option Nat) (xs : List Nat) : List ((Nat × Nat) × Option Nat × Option Nat) :=
  match xs with
  | [] => []
  | x :: xs =>
    let p := match pre with
      | none => (x, 0)
      | some p => combine k (p, 0) (x, 0)
    let d := match carry with
      | none => p
      | some c => combine k (c, 0) p
    (d, carry, some p.1) :: scanRun k carry (some p.1) xs

/-- The scan state that a command keeps: carry and prefix, each a mark that it is there and its value. -/
def scanState (k : VecCmd) : Option Nat × Option Nat :=
  let at' := fun (i : Nat) => if k.part.getD i 0 = 1 then some (k.part.getD (i + 1) 0).toNat else none
  (at' 0, at' 2)
def scanPart (c p : Option Nat) : List Word :=
  let f := fun (o : Option Nat) => match o with | some v => [1, BitVec.ofNat 64 v] | none => [0, 0]
  f c ++ f p

/-- The end of the beat of d that holds an element. -/
def beatEnd (o : Operand) (i : Nat) : Nat :=
  let j := i % rowEls o
  let b := beatEls (opTy o)
  i - j + min (rowEls o) ((j / b + 1) * b)

/-- Results of a beat's elements from `pos`: each with its flags and the scan state after it. -/
def beatValues (s : State) (w : Who) (id : Nat) (k : VecCmd) : Got (List ((Nat × Nat) × List Word)) :=
  let n := beatEnd k.d k.pos - k.pos
  match k.fn with
  | .vred =>
    match readOutputs s w id k (upFrom k.pos n) with
    | .wait s => .wait s
    | .bad p s => .bad p s
    | .ok l s => .ok (l.map fun r => (r, [])) s
  | .vscan =>
    match readRun s w id k (upFrom k.pos n) with
    | .wait s => .wait s
    | .bad p s => .bad p s
    | .ok l s =>
      let xs := l.map (·.1)
      let st := if k.pos % rowEls k.d = 0 then (none, none) else scanState k
      -- VER 1 carries every result as the prefix of the next, a substituted one included; otherwise a beat begins its own prefix
      let run := match k.subst, k.ver, scanRun k st.1 st.2 xs with
        | some v, 1, e :: _ => e :: scanRun k none (some (v.toNat % 2 ^ elemBits (opTy k.d))) (xs.drop 1)
        | _, _, l => l
      .ok (run.map fun e => (e.1, scanPart e.2.1 e.2.2)) s
  | _ =>
    match readRun s w id k (upFrom k.pos n) with
    | .wait s => .wait s
    | .bad p s => .bad p s
    | .ok l s => .ok (((upFrom k.pos n).zip l).map fun (i, v) => (vecElem k i v.1 v.2.1 v.2.2, [])) s

/-- The scan state with which the next beat of a row begins: the last result is carried (R174). -/
def nextScan (k : VecCmd) (last : Nat) (part : List Word) : List Word :=
  if k.ver = 1 then part else scanPart (some last) none

/-- The elements before the first enabled event, and that event's flags (R138). -/
def untilEvent (fpc : Word) (first : Bool) (l : List ((Nat × Nat) × List Word)) :
    List ((Nat × Nat) × List Word) × Option ((Nat × Nat) × List Word) :=
  match l with
  | [] => ([], none)
  | e :: l =>
    if enabled fpc e.1.2 ≠ 0 ∧ ¬ first then ([], some e)
    else
      let r := untilEvent fpc false l
      (e :: r.1, r.2)

/-- Patterns of a run of elements of d as whole bytes: their row's address, bit, length and value. -/
def packRun (o : Operand) (pos : Nat) (vs : List Nat) : Word × Nat × Nat × Nat :=
  let at' := elemAt o pos
  let w := elemBits (opTy o)
  (at'.1, at'.2, w * vs.length, vs.foldr (fun v acc => v % 2 ^ w + 2 ^ w * acc) 0)

/-- VECTOR_BEAT (R154, R157, R160, R163): the queue's head is discarded by its guard, or its next beat is computed and written;
it holds on a page that faults (R58) and stops at a memory fault or an enabled event. -/
def runVectorBeat (c : Nat) (s : State) : State :=
  match (s.core c).vecQ with
  | [] => s
  | id :: _ =>
    match opById s c id with
    | none => popVec s c
    | some o =>
      match o.body with
      | .vec k =>
        let again := fun (s : State) => s.pushOnce (.vectorBeat c)
        let finish := fun (s : State) => s.pushOnce (.vectorCommandEnd c)
        match k.guarded.taken with
        | .waiting => s
        | .discard => endEvent (popVec (dropOp s c id) c) c o
        | .run =>
          if o.held then s
          else if vecEmpty k ∨ k.pos ≥ vecTotal k then finish s
          else if storesBefore s c o ∨ releaseBefore s c o then again s
          else
            let w := whoOp s c o
            let s := charge (countEv s c (o.ctx % 16) 6 1) o.dom 3 1
            let fails := fun (p : Stop) (t : State) =>
              if p.cause = .xlate then holdOp (keepReplies s c id { s with tlb := t.tlb }) c o p (.vectorBeat c)
              else
                let s := { s with races := t.races, nextId := t.nextId }
                popVec (stopCommand s c o isVec k.flags k.pos p) c
            match k.fn, redToReg k.v with
            | .vcount, _ =>
              match countRun s w id k (upFrom 0 (count k.a)) with
              | .wait t => again (keepReplies s c id t)
              | .bad p t => fails p t
              | .ok n t => finish (setVec (dropReplies t c id) c id { k with pos := 1, part := [BitVec.ofNat 64 n] })
            | .vred, true =>
              match readOutputs s w id k [0] with
              | .wait t => again (keepReplies s c id t)
              | .bad p t => fails p t
              | .ok l t =>
                let r := l.headD (0, 0)
                if enabled k.fpc r.2 ≠ 0 ∧ ¬ k.skipEvent then
                  popVec (stopCommand (dropReplies t c id) c o isVec (k.flags ||| r.2) k.pos
                    { cause := .fpx, einfo := BitVec.ofNat 64 r.2 }) c
                else
                  -- a value that RESUME gives stands for the result (R138)
                  let v := match k.subst with | some v => v.toNat % 2 ^ elemBits k.v.ty | none => r.1
                  finish (setVec (dropReplies t c id) c id
                    { k with pos := 1, flags := k.flags ||| r.2, part := [redWord k.v.ty v] })
            | _, _ =>
              match beatValues s w id k with
              | .wait t => again (keepReplies s c id t)
              | .bad p t => fails p t
              | .ok l t =>
                let (done, stop) := untilEvent k.fpc k.skipEvent l
                -- a value that RESUME substituted stands for the first element (R138, R196)
                let patterns := done.map (·.1.1)
                let patterns := match k.subst, patterns with
                  | some v, _ :: r => v.toNat % 2 ^ elemBits (opTy k.d) :: r
                  | _, l => l
                let (ea, bit, n, v) := packRun k.d k.pos patterns
                let written := if n = 0 then Got.ok ([] : List (Word × List Byte)) t else
                  match mergeBits t w id ea bit n v with
                  | .wait t => .wait t
                  | .bad p t => .bad p t
                  | .ok (ea, bs) t => .ok (cutPieces ea bs) t
                match written with
                | .wait t => again (keepReplies s c id t)
                | .bad p t => fails p t
                | .ok ps t =>
                  match writeBeat t w id k.undo false ps with
                  | .wait t => again (keepReplies s c id t)
                  | .bad p t => fails p t
                  | .ok u t =>
                    let pos := k.pos + done.length
                    let part := (done.getLast?.map (·.2)).getD k.part
                    let part := match k.fn with
                      | .vscan => if pos = beatEnd k.d k.pos then nextScan k (patterns.getLastD 0) part else part
                      | _ => part
                    let k' := { k with
                      pos := pos
                      flags := done.foldl (fun f e => f ||| e.1.2) k.flags
                      part := part
                      skipEvent := k.skipEvent && done.isEmpty
                      subst := if done.isEmpty then k.subst else none
                      undo := u }
                    let t := setVec (dropReplies t c id) c id k'
                    match stop with
                    | none => if pos ≥ vecTotal k then finish t else again t
                    | some e =>
                      popVec (stopCommand t c { o with body := .vec k' } isVec (k'.flags ||| e.1.2) pos
                        { cause := .fpx, einfo := BitVec.ofNat 64 e.1.2 }) c
      | _ => popVec s c
def execVectorBeat (core : Nat) (s : State) : Out := took (runVectorBeat core s)

/-- VECTOR_COMMAND_END (R137, R161, R175): flags, last-read marks and a register's value; the next command begins. -/
def runVectorCommandEnd (c : Nat) (s : State) : State :=
  match (s.core c).vecQ with
  | [] => s
  | id :: _ =>
    match opById s c id with
    | none => popVec s c
    | some o =>
      match o.body with
      | .vec k =>
        if k.guarded.taken ≠ .run ∨ (¬ vecEmpty k ∧ k.pos < vecTotal k) then s else
        let s := updOpCtx s c o fun q => raiseFlags q k.flags
        let s := if vecEmpty k then s else (vecMarks k).foldl (fun s p => doMark s c o p) s
        let v := match k.part with
          | v :: _ => v
          | [] => match k.fn with | .vred => redWord k.v.ty (redIdentity k.v) | _ => 0
        let s := match vecReg k with
          | some r => updOpCtx s c o fun q => wr q r v
          | none => s
        endEvent (endOp (popVec (reportVisEngine s c o) c) c id 0) c o
      | _ => popVec s c
def execVectorCommandEnd (core : Nat) (s : State) : Out := took (runVectorCommandEnd core s)

end Sys2Proof.Machine
end

