-- ==== Sys2Proof/Machine/Matrix.lean ====
section
/-!
DEFINITION. The octet matrix unit (R176-R197): acceptance with the checks of R184 and R185, accumulator slots, the arbiter's
credits, k-steps and beats, stops, MPRI and MWAIT.
-/
set_option linter.all false
namespace Sys2Proof.Machine
open Sys2Proof

/-! Accumulator slots (R177). -/

/-- The slot that a context may bind: 3 only at class 0. -/
def freeAcc (s : State) (c : Nat) (cls0 : Bool) : Option Nat :=
  (upFrom 0 4).find? fun i => (Tbl.read (s.core c).accs i {}).owner.isNone && (i != 3 || cls0)

/-- The slot of a context zeroed and freed. -/
def freeSlot (s : State) (c x : Nat) : State :=
  match (s.ctx c x).acc with
  | none => s
  | some i => (s.updCore c fun k => { k with accs := Tbl.del k.accs i }).updCtx c x fun k => { k with acc := none }

/-- M and N of a MAT word. -/
def matM (m : Mx) : Nat := m.m.toNat + 1
def matN (m : Mx) : Nat := m.n.toNat + 1

/-! Checks (R180, R184, R185). -/

/-- Bytes of an operand about its base: how far it reaches below it and past it, through every dimension. -/
def spanOf (o : Operand) : Int × Int :=
  let lo := fun (d : Nat) => min 0 ((ext o d - 1 : Int) * stride o.shape d)
  let hi := fun (d : Nat) => max 0 ((ext o d - 1 : Int) * stride o.shape d)
  (lo 1 + lo 2 + lo 3, hi 1 + hi 2 + hi 3 + rowBytes o)

/-- Whether a handle's bytes lie in the context's local memory outside every stash window (R180). -/
def liesLocal (s : State) (c x : Nat) (o : Operand) : Bool :=
  let b := bankCore s c x
  match formOf s c b false false (rowEa o 0) with
  | .ok (.loc t off) =>
    let sp := spanOf o
    let lo : Int := off + sp.1
    let hi : Int := off + sp.2
    t == b && 0 ≤ lo && hi ≤ bankEnd && !(s.core b).windows.any fun w => (w.off : Int) < hi && lo < w.off + w.len
  | _ => false

/-- The slots of a MAT function with the types that R185 asks for. -/
def matSlots (k : MatCmd) : List (Operand × (ElemTy → Bool)) :=
  let ty := fun (u : ElemTy) (t : ElemTy) => t == u
  let index := fun (t : ElemTy) => t == .n8 || t == .n16 || t == .n32 || t == .s32
  match k.fn with
  | .mma => [(k.a, ty k.m.ta), (k.b, ty k.m.tb)]
  | .mmag => [(k.a, ty k.m.ta), (k.b, ty k.m.tb), (k.x, index)]
  | .mzero => []
  | .msca => [(k.x, ty k.m.ta), (k.s, ty .f32), (k.t, ty .f32)]
  | .mrd => [(k.x, ty k.m.ta)]

/-- The sizes of R185. -/
def matSizes (k : MatCmd) : Bool :=
  let m := matM k.m
  let n := matN k.m
  let kk := k.m.k.toNat
  let flat := fun (o : Operand) => ext o 2 == 1 && ext o 3 == 1
  let dst := fun (o : Operand) => n ≤ rowEls o && m ≤ ext o 1 && flat o
  match k.fn with
  | .mma | .mmag =>
    kk ≤ rowEls k.a && (k.fn == .mmag || m ≤ ext k.a 1) && flat k.a
      && n ≤ rowEls k.b && kk ≤ ext k.b 1 && flat k.b
      && (k.fn == .mma || m ≤ count k.x)
  | .mzero => true
  | .msca => dst k.x && (count k.s == m || count k.s == 1) && (count k.t == n || count k.t == 1)
  | .mrd => dst k.x

/-- A handle read through its record form (R121, R178): a ring-bound one is the slot that its view names. -/
def captureFlat (s : State) (k : Ctx) (h : HIx) : Operand :=
  let o := capture s k h
  { o with shape := recordForm s (handleOf k h) }

/-- The element types that MAT reads or writes as t6 (R148). -/
def matT6 (fn : MFn) (m : Mx) : Bool :=
  match fn with
  | .mma | .mmag => m.ta == .t6 || m.tb == .t6
  | _ => false

/-- Acceptance of a queued MAT function (R176, R177, R185). -/
def acceptMat (fn : MFn) (m : Mx) (s : State) : Res :=
  let (c, x) := s.cur
  let k := s.k
  let ops := opsOf s c x
  if k.away.any fun h => h.1 != c then
    -- a MAT command issues on the home core alone: the firing is halted before it and saved again (R366)
    .wait ((s.updK fun k => { k with homeOnly := true, p0halt := true }).pushOnce (.contextSave c x))
  else if acqPending ops ∨ rangePending ops ∨ (s.core c).matQ.length ≥ 2 ∨ ¬ tableRoom s c 1 ∨ mustRejoin k isMat then .wait s
  else
    let own := bankCore s c x
    let cmd : MatCmd :=
      { fn := fn, m := m, a := captureFlat s k m.ha, b := captureFlat s k m.hb, x := captureFlat s k m.hx,
        s := captureFlat s k m.hs, t := captureFlat s k m.ht, fpc := k.fpc, ver := k.nbv,
        q := ((s.core own).qtlo, (s.core own).qthi), cls := k.matCls, guarded := guardedAt k m.gd, seed := s.free }
    let slots := matSlots cmd
    let used := slots.map (·.1)
    let empty := used.any (·.empty)
    let marks := (if m.la then [cmd.a] else []) ++ (if m.lb then [cmd.b] else [])
    if ¬ empty ∧ (used.any nullOperand ∨ ¬ used.all typed ∨ ¬ slots.all (fun e => e.2 (opTy e.1)) ∨ ¬ matSizes cmd) then .fault (stopWhy .shape 0) s
    else
      match (if empty then none else used.find? fun o => !liesLocal s c x o) with
      | some o => .fault (stopAt .laddr (rowEa o 0)) s
      | none =>
        match (if empty then none else marks.findSome? (markFault s)) with
        | some p => .fault p s
        | none =>
          let slot := match k.acc with
            | some i => some i
            | none => freeAcc s c (runClass (s.dom (domOf k)) == 0)
          match slot with
          | none => .wait s
          | some i =>
            let s := if k.acc.isSome then s else
              (s.updCore c fun q => { q with accs := Tbl.put q.accs i { owner := some x } }).updK fun k => { k with acc := some i }
            let keep := fun (o : Operand) => if used.any (· == o) then o else noOperand
            let cmd := { cmd with slot := i, a := keep cmd.a, b := keep cmd.b, x := keep cmd.x, s := keep cmd.s, t := keep cmd.t }
            let (id, s) := s.fresh
            let s := { s with free := s.free + 2 * 64 * 64 }
            let s := addOp s c (mkOp s id (rowEa (used.headD noOperand) 0) none (.mat cmd))
            let s := s.updCore c fun q => { q with matQ := q.matQ ++ [id] }
            .ret ((s.updK fun q => advanceAll q (used.map fun o => BitVec.ofNat 4 o.hx)).pushOnce (.matrixSelect (octetOf c)))

/-- A queued MAT word (R184): t6 under VER 1 is ILL (R148). -/
def matInstr (fn : MFn) (i : Instr) (m : Mx) (s : State) : State :=
  refusedBy i (if matT6 fn m && s.k.nbv == 1 then some .ill else none) (issue 12 none [] (acceptMat fn m)) s

/-- MMA (R186). -/
def execMma (m : Mx) (s : State) : Out := took (matInstr .mma (.mma m) m s)
/-- MMAG (R186, R187). -/
def execMmag (m : Mx) (s : State) : Out := took (matInstr .mmag (.mmag m) m s)
/-- MZERO (R188). -/
def execMzero (m : Mx) (s : State) : Out := took (matInstr .mzero (.mzero m) m s)
/-- MSCA (R189). -/
def execMsca (m : Mx) (s : State) : Out := took (matInstr .msca (.msca m) m s)
/-- MRD (R190). -/
def execMrd (m : Mx) (s : State) : Out := took (matInstr .mrd (.mrd m) m s)

/-- MPRI (R191). -/
def execMpri (c : BitVec 3) (s : State) : Out :=
  took (issue 12 none [] (fun s => .ret (s.updK fun k => { k with matCls := max c.toNat (runClass (s.dom (domOf k))) })) s)

/-- MWAIT (R192): it waits until the context's MAT commands have ended, then acquires their writes. -/
def execMwait (s : State) : Out :=
  took (issue 12 none [] (fun s =>
    let (c, x) := s.cur
    if (opsOf s c x).any (fun o => live o && isMat o) then .wait s else .ret (acquireAt s c x .core)) s)

/-! The arbiter (R181, R182). -/

/-- The head of a core's matrix queue. -/
def matHead (s : State) (c : Nat) : Option (Op × MatCmd) :=
  match (s.core c).matQ with
  | [] => none
  | id :: _ =>
    match opById s c id with
    | none => none
    | some o => match o.body with
      | .mat k => some (o, k)
      | _ => none

/-- Whether a head is ready (R181): let run by its guard, after its context's earlier stores and vector commands (R193). -/
def matReady (s : State) (c : Nat) : Bool :=
  match matHead s c with
  | some (o, k) => k.guarded.taken == .run && !storesBefore s c o && !vectorsBefore s c o && !releaseBefore s c o
  | none => false

/-- Cycles that a command has been ready and waiting (R181). -/
def matAge (s : State) (k : MatCmd) : Nat := k.aged + (s.time - k.since.getD s.time)
/-- The effective class of a head (R181): it stands still while the command runs. -/
def effClass (s : State) (k : MatCmd) : Nat :=
  if k.cls = 0 then 0 else max 1 (k.cls - matAge s k / 2 ^ s.agesh)

def octet (s : State) (o : Nat) : Octet := Tbl.read s.octets o {}
def setOctet (s : State) (o : Nat) (k : Octet) : State := { s with octets := Tbl.put s.octets o k }

/-- Positions with a ready head. -/
def readyAt (s : State) (o : Nat) : List Nat := (upFrom 0 8).filter fun p => matReady s (octetCore o p)

def setMat (s : State) (c id : Nat) (k : MatCmd) : State := updOp s c id fun o => { o with body := .mat k }

/-- The contexts of a core's firings with their numbers, those of the firings saved from it among them: pre-emption does not stop MAT
commands (R197). -/
def matCtxs (s : State) (c : Nat) : List (Nat × Ctx) :=
  (s.core c).ctxs ++ ((s.die (dieOf c)).slots.filter fun v => v.2.homeCore == c).map fun v => ((v.1 + 1) * 256 + v.2.homeCtx, v.2.ctx)

/-- Kept commands rejoin the matrix queue (R195). -/
def rejoinMat (s : State) (c : Nat) : Nat → State
  | 0 => s
  | n + 1 =>
    let ready := fun (e : Nat × Ctx) => e.2.work.isSome && e.2.status != .parked && e.2.pend.isNone && e.2.kept.any isMat
    match (matCtxs s c).find? ready with
    | none => s
    | some (x, k) =>
      match k.kept.find? isMat with
      | none => s
      | some o =>
        if (s.core c).matQ.length ≥ 2 ∨ ¬ tableRoom s c 1 then s
        else
          let s := updCtxN s c x fun k => { k with kept := k.kept.filter fun q => q.id != o.id }
          let o := { o with ctx := x, body := match o.body with | .mat m => .mat { m with aged := matAge s m, since := none, overtaken := false } | b => b }
          let s := (addOp s c o).updCore c fun k => { k with matQ := k.matQ ++ [o.id] }
          rejoinMat (s.pushOnce (.matrixSelect (octetOf c))) c n

/-- The head leaves its core's queue. -/
def popMat (s : State) (c : Nat) : State :=
  rejoinMat ((s.updCore c fun k => { k with matQ := k.matQ.drop 1 }).pushOnce (.matrixSelect (octetOf c))) c 2

/-- Heads that their guards discard leave their queues: they end without a read, a write or a zeroing (R160, R185). -/
def discardHeads (s : State) (o : Nat) : State :=
  (upFrom 0 8).foldl (fun s p =>
    let c := octetCore o p
    match matHead s c with
    | some (q, k) => if k.guarded.taken = .discard then endEvent (popMat (dropOp s c q.id) c) c q else s
    | none => s) s

/-- Heads that have become ready count their wait from now (R181); the running one does not wait. -/
def noteReady (s : State) (o : Nat) : State :=
  (readyAt s o).foldl (fun s p =>
    let c := octetCore o p
    match matHead s c with
    | some (q, k) => if k.since.isNone ∧ (octet s o).running ≠ some (c, q.id) then setMat s c q.id { k with since := some s.time } else s
    | none => s) s

/-- Names of the heads of some positions. -/
def headIds (s : State) (o : Nat) (ps : List Nat) : List Nat :=
  ps.filterMap fun p => (matHead s (octetCore o p)).map fun h => h.1.id

/-- The unit begins or resumes a head. -/
def runHead (s : State) (o p : Nat) (u : Octet) : State :=
  let c := octetCore o p
  match matHead s c with
  | some (q, k) =>
    let rivals := headIds s o (readyAt s o)
    let s := setMat s c q.id { k with aged := matAge s k, since := none }
    (setOctet s o { u with running := some (c, q.id), rivals := rivals }).pushOnce (.matrixKstep o)
  | none => s

/-- Whether some head only waits for its context's stores and vector commands. -/
def matWaits (s : State) (o : Nat) : Bool :=
  (upFrom 0 8).any fun p => match matHead s (octetCore o p) with
    | some (_, k) => k.guarded.taken == .run
    | none => false

/-- MATRIX_SELECT (R181): the idle array selects a ready head by credits; a command that was overtaken spends none. -/
def runMatrixSelect (o : Nat) (s : State) : State :=
  let s := noteReady (discardHeads s o) o
  let u := octet s o
  let e := readyAt s o
  if u.running.isSome then s
  else if e.isEmpty then (if matWaits s o then s.pushOnce (.matrixSelect o) else s)
  else
    let u := if e.any (fun p => 0 < Tbl.read u.credit p 0) then u
      else { u with credit := e.foldl (fun t p => match matHead s (octetCore o p) with
        | some (_, k) => Tbl.put t p (8 - effClass s k)
        | none => t) u.credit }
    match ((upFrom (u.last + 1) 8).map (· % 8)).find? (fun p => e.any (· == p) && 0 < Tbl.read u.credit p 0) with
    | none => s
    | some p =>
      let spent : Nat := match matHead s (octetCore o p) with
        | some (_, k) => bitN !k.overtaken
        | none => 0
      runHead s o p { u with credit := Tbl.put u.credit p (Tbl.read u.credit p 0 - spent), last := p }
def execMatrixSelect (octet : Nat) (s : State) : Out := took (runMatrixSelect octet s)

/-- The running command of an octet. -/
def matRunning (s : State) (o : Nat) : Option (Nat × Op × MatCmd) :=
  match (octet s o).running with
  | none => none
  | some (c, id) =>
    match opById s c id with
    | none => none
    | some q => match q.body with
      | .mat k => some (c, q, k)
      | _ => none

/-- Whether the head at a position may overtake (R182). -/
def mayOvertake (s : State) (o p : Nat) (q : Op) (k : MatCmd) : Bool :=
  match matHead s (octetCore o p) with
  | some (r, l) => matReady s (octetCore o p) && r.id != q.id && !(octet s o).rivals.any (· == r.id) && effClass s l < effClass s k
  | none => false

/-- MATRIX_OVERTAKE (R182): at the end of a k-step a head of lower class that became ready later takes the array; where that head is
ready no more, the running command goes on. -/
def runMatrixOvertake (o p : Nat) (s : State) : State :=
  match matRunning s o, matHead s (octetCore o p) with
  | some (c, q, k), some (r, _) =>
    if (k.fn = .mma ∨ k.fn = .mmag) ∧ k.pos ≠ 0 ∧ mayOvertake s o p q k = true then
      let s := countEv (setMat s c q.id { k with overtaken := true, since := some s.time }) (octetCore o p) (r.ctx % 16) 8 1
      runHead { s with events := s.events.filter fun e => e != Event.matrixKstep o } o p (octet s o)
    else s.pushOnce (.matrixKstep o)
  | _, _ => if (octet s o).running.isSome then s.pushOnce (.matrixKstep o) else s
def execMatrixOvertake (octet pos : Nat) (s : State) : Out := took (runMatrixOvertake octet pos s)

/-! Work of the unit. -/

def accAt (s : State) (c slot i j : Nat) : Nat := (Tbl.read (Tbl.read (s.core c).accs slot {}).cells (i * 64 + j) 0).toNat
def putAcc (s : State) (c slot : Nat) (cells : Tbl (BitVec 32)) : State :=
  s.updCore c fun k => { k with accs := Tbl.put k.accs slot { Tbl.read k.accs slot {} with cells := cells } }

/-- Bits of a local operand's element, as they stand and as they stood before the command's own writes: DATALOST at a bad word (R69). -/
def localPair (s : State) (c lc : Nat) (u : Undo) (o : Operand) (row el : Nat) : Except Stop (Nat × Nat) :=
  let w := elemBits (opTy o)
  let bit := el * w
  let ea := rowEa o row + BitVec.ofNat 64 (bit / 8)
  let n := (bit % 8 + w + 7) / 8
  let cut := fun (l : List Byte) => leNat l / 2 ^ (bit % 8) % 2 ^ w
  match formOf s c lc false true ea with
  | .ok (.loc t off) =>
    match bankRead s t off n with
    | .ok bs _ => .ok (cut bs, cut (undoOver u (.loc t off) bs))
    | .bad p _ => .error p
    | .wait _ => .error (stopAt .datalost ea)
  | _ => .error (stopAt .laddr ea)

def localElem (s : State) (c lc : Nat) (o : Operand) (row el : Nat) : Except Stop Nat :=
  match localPair s c lc [] o row el with
  | .ok v => .ok v.1
  | .error p => .error p

/-- A list of elements of one operand. -/
def localElems (s : State) (c lc : Nat) (o : Operand) (at' : List (Nat × Nat)) : Except Stop (List Nat) :=
  at'.foldl (fun acc e => match acc with
    | .error p => .error p
    | .ok l => match localElem s c lc o e.1 e.2 with
      | .ok v => .ok (l ++ [v])
      | .error p => .error p) (.ok [])

/-- The rows of MMAG (R186): none is skipped; an index out of range stops with SHAPE. -/
def gatherRows (s : State) (c lc : Nat) (k : MatCmd) : Except Stop (List (Option Nat)) :=
  let m := matM k.m
  match k.fn with
  | .mmag =>
    match localElems s c lc k.x ((upFrom 0 m).map fun i => (i / rowEls k.x, i % rowEls k.x)) with
    | .error p => .error p
    | .ok vs =>
      let ones := 2 ^ elemBits (opTy k.x) - 1
      vs.foldl (fun acc v => match acc with
        | .error p => .error p
        | .ok l =>
          if v = ones then .ok (l ++ [none])
          else
            let x := decodeI (opTy k.x) v
            if x < 0 ∨ x ≥ ext k.a 1 then .error { cause := .shape } else .ok (l ++ [some x.toNat])) (.ok [])
  | _ => .ok ((upFrom 0 m).map some)

/-- A bf16 subnormal input is read as zero under VER 1 (R148). -/
def matInput (t : ElemTy) (ver p : Nat) : Num :=
  match decodeF t p with
  | .fin neg m e st => if t = .bf16 ∧ ver = 1 ∧ p / 2 ^ 7 % 2 ^ 8 = 0 then .fin neg 0 0 false else .fin neg m e st
  | v => v

/-- One group of R146: an accumulator and products, with one rounding. -/
def groupSum (acc : Nat) (ps : List (Num × Nat)) : Nat × Nat :=
  let a := f32Of acc
  let terms := a :: ps.map (·.1)
  let raised := ps.foldl (fun f p => f ||| p.2) (readFlags [a])
  let inf := fun (s : Bool) => terms.any (· == .inf s)
  let nan := (ieeeOf .f32).nanBits
  if terms.any isNan then (nan, raised)
  else if inf true && inf false then (nan, raised ||| fIV)
  else if inf true ∨ inf false then ((roundIeee (ieeeOf .f32) .rne (.inf (inf true))).1, raised)
  else
    let r := roundIeee (ieeeOf .f32) .rne (terms.tail.foldl (fun x y => (numAdd .rne x y).1) a)
    (r.1, r.2 ||| raised)

/-- The groups of a k-step by the captured VER (R146); a short f32 tail forms one shorter group (R186). -/
def stepSum (ver acc : Nat) (ps : List (Num × Nat)) : Nat × Nat :=
  let groups := match ver with
    | 1 => ps.map fun p => [p]
    | 2 => if ps.length < 32 then [ps] else [ps.take 16, ps.drop 16]
    | _ => [ps]
  groups.foldl (fun (r : Nat × Nat) g => let t := groupSum r.1 g; (t.1, t.2 ||| r.2)) (acc, 0)

/-- The s8 value of an integer input (R143). -/
def intInput (t : ElemTy) (q : Word × Word) (p : Nat) : Int := if t = .q4 then q4Value q p else decodeI .s8 p

/-- One k-step of MMA or MMAG over gathered rows (R186): new cells and, by cell, the flags raised. -/
def kstep (s : State) (c lc slot : Nat) (k : MatCmd) (rs : List (Option Nat)) :
    Except Stop (List (Nat × BitVec 32 × Nat)) :=
  let n := min 32 (k.m.k.toNat - k.pos)
  let ks := upFrom k.pos n
  let js := upFrom 0 (matN k.m)
  match localElems s c lc k.b (ks.flatMap fun kk => js.map fun j => (kk, j)) with
  | .error p => .error p
  | .ok bv =>
    let b := fun (t j : Nat) => bv.getD (t * matN k.m + j) 0
    ((upFrom 0 (matM k.m)).zip rs).foldl (fun acc (i, r) => match acc, r with
      | .error p, _ => .error p
      | .ok l, none => .ok l
      | .ok l, some r =>
        match localElems s c lc k.a (ks.map fun kk => (r, kk)) with
        | .error p => .error p
        | .ok av =>
          .ok (l ++ js.map fun j =>
            let old := accAt s c slot i j
            if isI k.m.ta ∨ k.m.ta = .q4 then
              let sum := ((upFrom 0 n).zip av).foldl (fun x (t, a) =>
                x + intInput k.m.ta k.q a * intInput k.m.tb k.q (b t j)) ((BitVec.ofNat 32 old).toInt)
              (i * 64 + j, BitVec.ofInt 32 sum, 0)
            else
              let ps := ((upFrom 0 n).zip av).map fun (t, a) =>
                numMul (matInput k.m.ta k.ver a) (matInput k.m.tb k.ver (b t j))
              let r := stepSum k.ver old ps
              (i * 64 + j, BitVec.ofNat 32 r.1, r.2))) (.ok [])

/-- Element `i` of a scale vector, or its single one, with the free choice of R189 under an overlap. -/
def scaleAt (s : State) (c lc : Nat) (k : MatCmd) (o : Operand) (number i : Nat) : Except Stop Nat :=
  let j := if count o = 1 then 0 else i
  match localPair s c lc k.undo o (j / rowEls o) (j % rowEls o) with
  | .ok v => .ok (choose (k.seed + number) v)
  | .error p => .error p

/-- One element of MSCA or MRD (R189, R190): the pattern and its flags. -/
def matElem (s : State) (c lc : Nat) (k : MatCmd) (i j : Nat) : Except Stop (Nat × Nat) :=
  let acc := accAt s c k.slot i j
  match k.fn with
  | .mrd =>
    match k.m.tb, k.m.ta with
    | .f32, .f32 | .s32, .s32 => .ok (acc, 0)
    | .s32, _ => .ok (roundIeee (ieeeOf .f32) .rne (ofInt (BitVec.ofNat 32 acc).toInt))
    | _, t => .ok (convertF .f32 t .rne acc)
  | _ =>
    match scaleAt s c lc k k.s (2 * (i * 64 + j)) i, scaleAt s c lc k k.t (2 * (i * 64 + j) + 1) j, localElem s c lc k.x i j with
    | .error p, _, _ | _, .error p, _ | _, _, .error p => .error p
    | .ok rs, .ok cs, .ok d =>
      let sc := deliver .f32 .rne (numMul (f32Of rs) (f32Of cs))
      let a := if k.m.tb = .s32 then ofInt (BitVec.ofNat 32 acc).toInt else f32Of acc
      let r := deliver k.m.ta .rne (numFma .rne (f32Of sc.1) a (decodeF k.m.ta d))
      .ok (r.1, r.2 ||| sc.2)

/-- The elements of a beat of MSCA or MRD: results before the first stop, and that stop with the flags it raised. -/
def matBeat (s : State) (c lc : Nat) (k : MatCmd) (first : Bool) : List Nat → List (Nat × Nat × Nat) × Option (Stop × Nat)
  | [] => ([], none)
  | e :: es =>
    let n := matN k.m
    match matElem s c lc k (e / n) (e % n) with
    | .error p => ([], some (p, 0))
    | .ok r =>
      let hit := enabled k.fpc r.2 != 0
      if hit && !(first && (k.skipEvent || k.subst.isSome)) then ([], some ({ cause := .fpx, einfo := BitVec.ofNat 64 r.2 }, r.2))
      else
        -- a value that RESUME gives stands for the element that stopped (R196)
        let v := match k.subst with
          | some v => if first then v.toNat % 2 ^ elemBits (opTy k.x) else r.1
          | none => r.1
        let rest := matBeat s c lc k false es
        ((e, v, r.2) :: rest.1, rest.2)

/-- Elements written to d in order, with what stood there noted: the command with those written, and how the next one ended. -/
def putBeat (s : State) (c lc : Nat) (k : MatCmd) : List (Nat × Nat × Nat) → MatCmd × Got Unit
  | [] => (k, .ok () s)
  | (e, v, fl) :: es =>
    let w := elemBits (opTy k.x)
    let n := matN k.m
    match formOf s c lc false true (rowEa k.x (e / n) + BitVec.ofNat 64 (e % n * w / 8)) with
    | .ok (.loc t off) =>
      match bankWrite s t off (natLE (w / 8) v) with
      | .ok _ s' =>
        putBeat s' c lc { k with pos := k.pos + 1, flags := k.flags ||| fl, skipEvent := false, subst := none,
                                 undo := undoNote k.undo (.loc t off) (peekBytes s (.loc t off) (w / 8)) } es
      | .wait s => (k, .wait s)
      | .bad p s => (k, .bad p s)
    | _ => (k, .ok () s)

/-- The running command gives up the array. -/
def freeArray (s : State) (o : Nat) : State :=
  { setOctet s o { octet s o with running := none } with events := s.events.filter fun e => e != Event.matrixKstep o }.pushOnce (.matrixSelect o)

/-- A MAT command stops (R195). -/
def stopMat (s : State) (o c : Nat) (q : Op) (k : MatCmd) (reix fl : Nat) (p : Stop) : State :=
  let s := popMat (freeArray s o) c
  let s := if q.ctx = orphan then s.updCore c fun t => { t with accs := Tbl.del t.accs k.slot } else s
  stopCommand s c { q with body := .mat k } isMat (k.flags ||| fl) reix p

/-- The overtaking head, if any: the first of lowest effective class (R182). -/
def overtaker (s : State) (o : Nat) (q : Op) (k : MatCmd) : Option Nat :=
  let cls := fun (p : Nat) => match matHead s (octetCore o p) with
    | some (_, l) => effClass s l
    | none => 8
  ((upFrom 0 8).filter fun p => mayOvertake s o p q k).foldl (fun best p => match best with
    | none => some p
    | some b => if cls p < cls b then some p else some b) none

/-- A k-step of the running MMA or MMAG (R186, R187, R195). -/
def stepProduct (s : State) (o c : Nat) (q : Op) (k : MatCmd) : State :=
  let lc := q.bank
  match (match k.rows with | some r => Except.ok r | none => gatherRows s c lc k) with
  | .error p => stopMat s o c q k 0 0 p
  | .ok rs =>
    let k := { k with rows := some rs }
    -- Z takes effect once k-step 0 has begun
    let s := if k.m.z ∧ k.pos = 0 then putAcc s c k.slot [] else s
    match kstep s c lc k.slot k rs with
    | .error p => stopMat s o c q k k.pos 0 p
    | .ok new =>
      let hit := (new.filter fun e => enabled k.fpc e.2.2 != 0).map (·.1)
      let fl := new.foldl (fun f e => f ||| e.2.2) 0
      if !hit.isEmpty && !k.skipEvent then
        stopMat s o c q { k with raised := hit } k.pos fl { cause := .fpx, einfo := BitVec.ofNat 64 fl }
      else
        -- a value that RESUME gives stands in every entry whose rounding raised the event (R196)
        let value := fun (e : Nat × BitVec 32 × Nat) => match k.subst with
          | some v => if k.raised.any (· == e.1) ∨ enabled k.fpc e.2.2 ≠ 0 then v.setWidth 32 else e.2.1
          | none => e.2.1
        let cells := new.foldl (fun t e => Tbl.put t e.1 (value e)) (Tbl.read (s.core c).accs k.slot {}).cells
        let k' := { k with pos := k.pos + min 32 (k.m.k.toNat - k.pos), flags := k.flags ||| fl, skipEvent := false, subst := none, raised := [] }
        let s := countEv (noteReady (setMat (putAcc s c k.slot cells) c q.id k') o) c (q.ctx % 16) 7 1
        if k'.pos ≥ k.m.k.toNat then s.pushOnce (.matrixCommandEnd o)
        else match overtaker s o q k' with
          | some p => s.pushOnce (.matrixOvertake o p)
          | none => s.pushOnce (.matrixKstep o)

/-- A beat of the running MSCA or MRD (R189, R190, R195). -/
def stepRead (s : State) (o c : Nat) (q : Op) (k : MatCmd) : State :=
  let lc := q.bank
  let n := matN k.m
  let b := beatEls (opTy k.x)
  let j := k.pos % n
  let r := matBeat s c lc k true (upFrom k.pos (min (n - j) (b - j % b)))
  match putBeat s c lc k r.1 with
  | (k', .wait s) => (setMat s c q.id k').pushOnce (.matrixKstep o)
  | (k', .bad p s) => stopMat s o c q k' k'.pos 0 p
  | (k', .ok _ s) =>
    let s := setMat s c q.id k'
    match r.2 with
    | some (p, fl) => stopMat s o c q k' k'.pos fl p
    | none => s.pushOnce (if k'.pos ≥ matM k.m * n then Event.matrixCommandEnd o else .matrixKstep o)

/-- MATRIX_KSTEP (R186-R190, R195): the running command's next k-step or beat. -/
def runMatrixKstep (o : Nat) (s : State) : State :=
  match matRunning s o with
  | none => if (octet s o).running.isSome then freeArray s o else s
  | some (c, q, k) =>
    if (matSlots k).any (fun e => e.1.empty) then (setMat s c q.id { k with pos := 2 ^ 32 }).pushOnce (.matrixCommandEnd o)
    else
      match k.fn with
      | .mzero =>
        let cells := (Tbl.read (s.core c).accs k.slot {}).cells.filter fun e => !(e.1 / 64 < matM k.m && e.1 % 64 < matN k.m)
        (setMat (putAcc s c k.slot cells) c q.id { k with pos := 2 ^ 32 }).pushOnce (.matrixCommandEnd o)
      | .mma | .mmag =>
        stepProduct (charge s q.dom (match k.m.ta with | .f32 => 6 | .bf16 | .f16 => 5 | _ => 4) 1) o c q k
      | .msca | .mrd => stepRead s o c q k
def execMatrixKstep (octet : Nat) (s : State) : Out := took (runMatrixKstep octet s)

/-- What is left of a MAT command. -/
def matDone (k : MatCmd) : Bool :=
  k.pos ≥ match k.fn with
    | .mma | .mmag => k.m.k.toNat
    | .mzero => 1
    | _ => matM k.m * matN k.m

/-- MATRIX_COMMAND_END (R137, R161, R176): flags and last-read marks of a completed command; the array falls idle. -/
def runMatrixCommandEnd (o : Nat) (s : State) : State :=
  match matRunning s o with
  | none => s
  | some (c, q, k) =>
    if ¬ matDone k then s else
    let s := reportVisEngine (updOpCtx s c q fun x => raiseFlags x k.flags) c q
    let s := if (matSlots k).any (fun e => e.1.empty) then s
      else ((if k.m.la then [k.a] else []) ++ (if k.m.lb then [k.b] else [])).foldl (fun s p => doMark s c q p) s
    let s := if q.ctx = orphan then s.updCore c fun t => { t with accs := Tbl.del t.accs k.slot } else s
    endEvent (popMat (freeArray (dropOp s c q.id) o) c) c q
def execMatrixCommandEnd (octet : Nat) (s : State) : Out := took (runMatrixCommandEnd octet s)

end Sys2Proof.Machine
end

