-- ==== Sys2Proof/Machine/Exchange.lean ====
section
/-!
DEFINITION. Precession exchanges (R268-R286): the map, acceptance, the walk and its runs, delivery, acknowledgement, notices and
abandonments, the end of a party's part; and MCWR and ACLWR in the exchange port (R258-R260).
-/
set_option linter.all false
namespace Sys2Proof.Machine
open Sys2Proof

/-! The record and the map (R269, R271, R272). -/

/-- A field of the record. -/
def xf (r : List Byte) (at' n : Nat) : Nat := leNat ((r.drop at').take n)
def xEs (r : List Byte) : Nat := 2 ^ (xf r 0 1 % 8)
def xIndexed (r : List Byte) : Bool := xf r 39 1 == 3

/-- A distribution of one dimension: kind, extent, grid extent, block. -/
structure Dist where
  kind : Nat
  n : Nat
  p : Nat
  b : Nat

def srcDist (r : List Byte) (d : Nat) : Dist := ⟨xf r (32 + d) 1, xf r (8 + 2 * d) 2, xf r (16 + 2 * d) 2, xf r (40 + 2 * d) 2⟩
def dstDist (r : List Byte) (d : Nat) : Dist := ⟨xf r (36 + d) 1, xf r (8 + 2 * d) 2, xf r (24 + 2 * d) 2, xf r (48 + 2 * d) 2⟩

/-- The block of BLOCKCYC; CYCLIC is BLOCKCYC with 1. -/
def cycBlock (x : Dist) : Nat := if x.kind = 2 then x.b else 1
def ownerOf (x : Dist) (g : Nat) : Nat := if x.kind = 0 then ((g + 1) * x.p - 1) / x.n else g / cycBlock x % x.p
def localOf (x : Dist) (g : Nat) : Nat :=
  if x.kind = 0 then g - ownerOf x g * x.n / x.p else g / (cycBlock x * x.p) * cycBlock x + g % cycBlock x
def globalOf (x : Dist) (c l : Nat) : Nat :=
  if x.kind = 0 then c * x.n / x.p + l else l / cycBlock x * cycBlock x * x.p + c * cycBlock x + l % cycBlock x
def localExt (x : Dist) (c : Nat) : Nat :=
  if x.kind = 0 then (c + 1) * x.n / x.p - c * x.n / x.p
  else x.n / (cycBlock x * x.p) * cycBlock x + min (x.n % (cycBlock x * x.p) - c * cycBlock x) (cycBlock x)

/-- A grid coordinate of party `p`: dimension 0 fastest. -/
def gridCoord (ps : List Nat) (p d : Nat) : Nat :=
  let below := (ps.take d).foldl (· * ·) 1
  if d = 3 then p / below else p / below % ps.getD d 1
def srcGrid (r : List Byte) : List Nat := (upFrom 0 4).map fun d => (srcDist r d).p
def dstGrid (r : List Byte) : List Nat := (upFrom 0 4).map fun d => (dstDist r d).p

/-- Local extents of a party's pieces. -/
def srcExts (r : List Byte) (p : Nat) : List Nat := (upFrom 0 4).map fun d => localExt (srcDist r d) (gridCoord (srcGrid r) p d)
def dstExts (r : List Byte) (p : Nat) : List Nat :=
  (upFrom 0 4).map fun d => if d = 3 ∧ xIndexed r = true then xf r 54 2 else localExt (dstDist r d) (gridCoord (dstGrid r) p d)
def product (l : List Nat) : Nat := l.foldl (· * ·) 1

/-- Dimensions from the innermost, by an order byte. -/
def orderOf (b : Nat) : List Nat := (upFrom 0 4).map fun k => b / 4 ^ k % 4
/-- Local indices of the element that stands `n`-th in storage. -/
def storedAt (ord ls : List Nat) (n : Nat) : List Nat :=
  (upFrom 0 4).map fun d =>
    let k := ord.idxOf d
    n / product ((ord.take k).map fun o => ls.getD o 1) % ls.getD d 1
/-- Place in storage of an element with local indices `m`. -/
def placeIn (ord ls m : List Nat) : Nat :=
  (ord.reverse).foldl (fun acc o => acc * ls.getD o 1 + m.getD o 0) 0

/-- Global elements of a dimension with owner `cs` in the source and `cd` in the destination. -/
def shared (r : List Byte) (d cs cd : Nat) : Nat :=
  ((upFrom 0 (srcDist r d).n).filter fun g => ownerOf (srcDist r d) g == cs && ownerOf (dstDist r d) g == cd).length
/-- Bytes that the map assigns from party `p`'s piece to party `q`'s (R276). -/
def assigned (r : List Byte) (p q : Nat) : Nat :=
  xEs r * product ((upFrom 0 4).map fun d => shared r d (gridCoord (srcGrid r) p d) (gridCoord (dstGrid r) q d))

def xNp (r : List Byte) : Nat := xf r 4 2
def xXid (r : List Byte) : Nat := xf r 2 2
def xBase (r : List Byte) (dst : Bool) : Word := leWord ((r.drop (if dst then 72 else 64)).take 8)
def xAcq (r : List Byte) : Bool := xf r 1 1 % 2 == 1
def xRel (r : List Byte) : Bool := xf r 1 1 / 2 % 2 == 1
def xScope (r : List Byte) : Scope := (scopeOf (xf r 1 1 / 4 % 8)).getD .core
def xG (r : List Byte) : Bool := xf r 1 1 / 32 % 2 == 1
/-- The map: bytes 0-63 and the party list, the same at every party (R269). -/
def mapOf (e : Exch) : List Byte × List Nat := (e.record.take 64, e.list)
def digestOf (e : Exch) : Word := Config.mapDigest (e.record.take 64) e.list
/-- A run's digest is of the party's own map (R275). Digests of different maps differ inside the package: log 25. -/
def sameMap (m : XMsg) (e : Exch) : Bool :=
  match m.map with
  | some p => p == mapOf e
  | none => m.digest == digestOf e

/-! Acceptance (R270, R283). -/

/-- The first offending field of a record, by byte offset. -/
def badField (r : List Byte) : Option Nat :=
  let ndm := xf r 0 1 / 8 % 4
  let flags := xf r 1 1
  let np := xNp r
  let dims := upFrom 0 4
  let size := fun (at' : Nat) (top : Nat) (d : Nat) =>
    let v := xf r (at' + 2 * d) 2
    if v = 0 ∨ v > top ∨ (d > ndm ∧ v ≠ 1) then some (at' + 2 * d) else none
  let block := fun (at' kind top : Nat) (d : Nat) =>
    let v := xf r (at' + 2 * d) 2
    if (if kind = 2 ∨ kind = 3 then v = 0 else v ≠ 0) then some (at' + 2 * d) else none
  let perm := fun (b : Nat) => [0, 1, 2, 3].all fun d => (orderOf b).contains d
  let first := fun (c : Bool) (n : Nat) => if c then some n else none
  ([first (xf r 0 1 / 32 != 0 || xf r 0 1 % 8 > 4) 0,
    first (flags / 64 != 0 || flags / 4 % 8 > 4 || (flags % 4 == 0 && flags / 4 % 8 != 0)) 1,
    first (np == 0 || np > 4096 || product (srcGrid r) != np || product (dstGrid r) != np) 4,
    first (xf r 6 2 != 0) 6]
    ++ dims.map (size 8 65535) ++ dims.map (size 16 4096) ++ dims.map (size 24 4096)
    ++ dims.map (fun d => first (xf r (32 + d) 1 > 2) (32 + d))
    ++ dims.map (fun d => first (xf r (36 + d) 1 > (if d = 3 then 3 else 2)) (36 + d))
    ++ dims.map (fun d => block 40 (xf r (32 + d) 1) 0 d) ++ dims.map (fun d => block 48 (xf r (36 + d) 1) 0 d)
    ++ [first (!perm (xf r 56 1)) 56, first (!perm (xf r 57 1)) 57, first (xf r 58 6 != 0) 58,
        first (!xIndexed r && xf r 88 8 != 0) 88]).findSome? id

/-- A party list entry as a core: peer * 8192 + y * 128 + x, from its coordinates relative to the grid's origin (R269). One that lies
outside the mesh is a name of its own; at a peer it wraps, as FADDR holds it. -/
def partyCore (s : State) (k : Ctx) (v : Nat) : Nat :=
  let p := v / 8192 % 4096
  let x := v % 128 + k.dox
  let y := v / 128 % 64 + k.doy
  if p ≠ 0 ∧ p ≠ s.pkid then p * 8192 + y % 64 * 128 + x % 128
  else if x < 128 ∧ y < 64 then y * 128 + x else 2 ^ 26 + y * 256 + x

/-- Whether an entry of this package names no core. -/
def partyAbsent (s : State) (k : Ctx) (v : Nat) : Bool :=
  (v / 8192 % 4096 == 0 || v / 8192 % 4096 == s.pkid) && !s.coreExists (v % 128 + k.dox) (v / 128 % 64 + k.doy)

/-- Whether a piece's base has an allowed form, and a local piece lies in the banks outside every window (R270). -/
def pieceOk (s : State) (c b : Nat) (base : Word) (size : Nat) : Bool :=
  if field base 63 62 = 0 then true else
  match formOf s c b true false base with
  | .ok (.loc t off) => t == b && off + size ≤ bankEnd && !(s.core b).windows.any fun w => w.off < off + size && off < w.off + w.len
  | _ => false

/-- 4-byte words read as plain loads. -/
def readList (s : State) (ea : Word) : Nat → Got (List Nat)
  | 0 => .ok [] s
  | n + 1 =>
    match readNow s ea 4 with
    | .wait s => .wait s
    | .bad p s => .bad p s
    | .ok bs s =>
      match readList s (ea + 4) n with
      | .wait s => .wait s
      | .bad p s => .bad p s
      | .ok l s => .ok (leNat bs :: l) s

/-- The exchange of a context whose record lies at an offset, with its operation. -/
def exchAt (s : State) (c x off : Nat) : Option Exch :=
  ((opsOf s c x).find? fun o => live o && match o.body with | .exch r _ _ _ => r == off | _ => false).bind fun o =>
    s.exchs.find? fun e => e.core == c && e.op == o.id && !e.ended

/-- The checks on the party list, in order. -/
def partyStop (s : State) (c b : Nat) (k : Ctx) (ea : Word) (r : List Byte) (vs ps : List Nat) : Option Stop :=
  let es := xEs r
  let mine := ps.filter (· == b)
  let local' := fun (dst : Bool) => pieceOk s c b (xBase r dst) (es * product (if dst then dstExts r (ps.idxOf b) else srcExts r (ps.idxOf b)))
  if mine.length ≠ 1 then some (stopWhy .shape 0x81)
  else if ps.eraseDups.length ≠ ps.length then some (stopWhy .shape 0x82)
  else if s.exchs.any fun e => e.active && e.core == c && xXid e.record == xXid r then some (stopWhy .shape 2)
  else if vs.any (partyAbsent s k) then some (stopAt .laddr (leWord ((r.drop 80).take 8)))
  else if ¬ local' false then some (stopAt .laddr (xBase r false))
  else if ¬ local' true then some (stopAt .laddr (xBase r true))
  else if s.pkid = 0 ∧ ps.any (· ≥ 8192) then some (nackStop ea 3)
  else none

/-- Acceptance of XSTART (R270, R283). -/
def acceptExch (g : Gd) (a d : Reg) (s : State) : Res :=
  let (c, x) := s.cur
  let ops := opsOf s c x
  let ea := rd s.k a
  if acqPending ops ∨ rangePending ops ∨ (s.core c).portQ.length ≥ 2 ∨ ¬ tableRoom s c 1 then .wait s else
  match localSpan s ea 128 with
  | .error p => .fault p s
  | .ok off =>
    let b := bankCore s c x
    match readWords s ea 12 with
    | .wait s => .wait s
    | .bad p s => .fault p s
    | .ok ws s =>
      let r := ws.flatMap wordLE
      match badField r with
      | some n => .fault (stopWhy .shape n) s
      | none =>
        let es := xEs r
        let pl := leWord ((r.drop 80).take 8)
        let ix := leWord ((r.drop 88).take 8)
        let al := fun (v : Word) => v.toNat % min es 8 != 0
        if pl.toNat % 4 ≠ 0 then .fault (stopAt .align pl) s
        else if ix.toNat % 4 ≠ 0 then .fault (stopAt .align ix) s
        else if al (xBase r false) then .fault (stopAt .align (xBase r false)) s
        else if al (xBase r true) then .fault (stopAt .align (xBase r true)) s
        else if (exchAt s c x off).isSome then .fault (stopWhy .shape 0x80) s
        else
          match readList s pl (xNp r) with
          | .wait s => .wait s
          | .bad p s => .fault p s
          | .ok vs s =>
            let ps := vs.map (partyCore s s.k)
            match partyStop s c b s.k ea r vs ps with
            | some p => .fault p s
            | none =>
              let (id, s) := s.fresh
              let s := addOp s c (mkOp s id ea none (.exch off d (guardedAt s.k g) (xRel r)))
              let e : Exch := { id := id, core := c, op := id, off := off, record := r, parties := ps, me := ps.idxOf b, list := vs }
              let s := { s with exchs := s.exchs ++ [e] }
              .ret ((s.updCore c fun k => { k with portQ := k.portQ ++ [id] }).pushOnce (.exchangeStart c))

/-- XSTART (R283). -/
def execXstart (a d : Reg) (s : State) : Out :=
  took (issue 4 (some d) [a] (acceptExch ⟨false, false, 0⟩ a d) s)
/-- XSTART in ECX form, with its guard (R282, R283). -/
def execXstartEcx (gd : Gd) (a d : Reg) (s : State) : Out := took (issue 12 (some d) [a] (acceptExch gd a d) s)

/-! Ends. -/

/-- The layout of R277. -/
def exchReply (status cause n : Nat) : Word := BitVec.ofNat 64 (status * 2 ^ 56 + cause * 2 ^ 48 + n % 2 ^ 48)

/-- Bytes 96-127 of the record as the port writes them (R269). -/
def writeRecord (s : State) (b : Nat) (e : Exch) (expr : Word) (result : Word) : State :=
  let bs := wordLE expr ++ natLE 8 e.rcvd ++ natLE 8 e.sent ++ wordLE result
  s.updCore b fun k => { k with mem := writeBytes k.mem (e.off + 96) bs }

/-- EXPR (R276): none while closing notices are missing. -/
def exprOf (e : Exch) : Option Nat :=
  if product (dstExts e.record e.me) = 0 then some 0
  else if xIndexed e.record then
    (if (upFrom 0 (xNp e.record)).all fun p => (Tbl.find e.debt p).isSome then some (e.debt.foldl (fun n d => n + d.2) 0) else none)
  else some (xEs e.record * product (dstExts e.record e.me))
def exprWord (e : Exch) : Word := match exprOf e with | some n => BitVec.ofNat 64 n | none => BitVec.allOnes 64

def updExch (s : State) (id : Nat) (f : Exch → Exch) : State :=
  { s with exchs := s.exchs.map fun e => if e.id = id then f e else e }
def exchById (s : State) (id : Nat) : Option Exch := s.exchs.find? fun e => e.id == id && e.active

/-- The part of a party ends: record, reply, event; a failed or cancelled one refuses what still arrives (R277, R280, R285). -/
def endExch (s : State) (e : Exch) (status cause : Nat) (p : Stop) : State :=
  match opById s e.core e.op with
  | none => { s with exchs := s.exchs.filter fun q => q.id != e.id }
  | some o =>
    let n := if status = 1 then 0 else e.rcvd
    let v := exchReply status cause n
    let s := writeRecord s o.bank e (if status = 1 then 0 else exprWord e) v
    let s := match o.body with
      | .exch _ d _ _ => updOpCtx s e.core o fun k =>
          { wrReply k d v with xwait := if k.xwait = some (e.off, none) then some (e.off, some v) else k.xwait }
      | _ => s
    -- what a read of the reply acquires at system scope is gone from the die's cache before it can be read (R278)
    let s := if (status = 0 ∨ status = 3) ∧ xRel e.record = true ∧ xScope e.record = .sys then dropCachedPeers s e.core else s
    let s := s.updCore o.bank fun k => { k with xlast := Tbl.put k.xlast e.off (if xRel e.record then xScope e.record else .core) }
    let s := endEvent s e.core o
    let stays := fun (q : Exch) => if q.id = e.id then { q with active := false, ended := true } else q
    let s := { s with exchs := if status = 2 ∨ status = 4 then s.exchs.map stays else s.exchs.filter fun q => q.id != e.id }
    let s := s.updCore e.core fun k => { k with portQ := k.portQ.filter (· != e.op) }
    let s := s.pushOnce (.exchangeStart e.core)
    if status = 2 then
      let s := updOp s e.core o.id fun o => { o with status := 2, cause := p.cause, ended := true, reply := v }
      reportFail s e.core o .engine { p with cause := .engfault } true 0
    else endOp s e.core o.id v

/-- A message from party `e` to party `q`. -/
def partyMsg (s : State) (e : Exch) (q : Nat) : XMsg :=
  { id := s.nextId, xid := xXid e.record, src := e.parties.getD e.me 0, dst := e.parties.getD q 0, fromP := e.me, toP := q,
    map := some (mapOf e), digest := digestOf e, sop := e.op }

/-- What an XRUN packet carries beside a run's bytes: XID, parties, cause, digest, count, the sender's exchange and the offset in the piece.
DESIGN CHOICE: log 25. -/
def xrunHead (m : XMsg) : List Byte :=
  natLE 2 m.xid ++ natLE 2 m.fromP ++ natLE 2 m.toP ++ natLE 2 m.cause ++ wordLE m.digest ++ natLE 8 m.n ++ natLE 8 m.sop ++ natLE 8 m.doff

/-- A message handed to the crossbar, or to Callyn as an XRUN packet: subcode 0 a run, 1 a closing notice, 2 an abandonment, 3 the notice of
a performed release (R273, R278). -/
def sendParty (s : State) (e : Exch) (m : XMsg) (sub : Nat) (ev : Event) : State :=
  if m.dst / 8192 = 0 then State.push { s with nextId := s.nextId + 1, xmsgs := s.xmsgs ++ [m] } ev
  else
    request s 0x05 0x82 (m.dst / 8192) (coreFaddr (m.dst % 128) (m.dst / 128 % 64) 0) m.bytes.length (4 + 16 * sub) 0 0 m.bytes
      e.core e.op none (xrunHead m)

/-- Every other party learns that this one sends no more (R280). -/
def abandonAll (s : State) (e : Exch) (cause : Nat) : State :=
  ((upFrom 0 (xNp e.record)).filter (· != e.me)).foldl (fun s q =>
    sendParty s e { partyMsg s e q with cause := cause } 2 (.abandonment s.nextId)) s

/-- A party fails (R280): its walk stops and it ends. -/
def failExch (s : State) (e : Exch) (p : Stop) (detail : Nat) : State :=
  if e.failed.isSome then s else
  let stop : Stop := { p with einfo := BitVec.ofNat 64 (p.cause.code + 1024 + detail * 65536) }
  let s := updExch s e.id fun e => { e with failed := some (stop, detail), walked := true }
  (abandonAll s e p.cause.code).pushOnce (.exchangeEnd e.id)

/-- A party's part cancelled (R281, R285): a queued one is discarded, an active one abandons the others. -/
def cancelExch (s : State) (e : Exch) : State :=
  if e.active then endExch (abandonAll s e 0) e 4 0 {cause := .none} else endExch s e 1 0 {cause := .none}

/-! The port (R258, R283). -/

/-- The cause with which the hub abandons a party that can take no part: its die is isolated, or its package is unreachable (R281). -/
def partyGone (s : State) (core : Nat) : Option Nat :=
  if core / 8192 = 0 then (if (s.die (dieOf core)).isolated then some Cause.visfail.code else none)
  else if unreachable s = some 2 then some Cause.fabnack.code else none

/-- A record once its exchange starts. -/
def startExch (s : State) (c : Nat) (o : Op) (e : Exch) : State :=
  let debt := if xIndexed e.record then [] else
    ((upFrom 0 (xNp e.record)).map fun p => (p, assigned e.record p e.me)).filter fun d => d.2 != 0
  let gone := ((upFrom 0 (xNp e.record)).zip e.parties).filterMap fun p => (partyGone s p.2).map fun n => (p.1, n)
  let e := { e with active := true, debt := debt, abandoned := e.abandoned ++ gone.filter fun g => !e.abandoned.any fun a => a.1 == g.1 }
  let s := { s with exchs := (s.exchs.filter fun q => !(q.ended && q.core == c && xXid q.record == xXid e.record)).map fun q =>
    if q.id = e.id then e else q }
  let s := writeRecord s o.bank e (exprWord e) (exchReply 5 0 0)
  let s := if xAcq e.record then
      updOpCtx (if xScope e.record = .sys then dropCachedPeers s c else s) c o region
    else s
  s.pushOnce (.exchangeRun e.id)

/-- Whether everything that a configuration write waits for has ended (R258). -/
def configReady (s : State) (c : Nat) (o : Op) : Bool :=
  (mates s c o).all fun q => q.id ≥ o.id || q.status != 0 ||
    match q.body with
    | .store .. => false
    | .copy _ | .vec _ | .mat _ => q.ended
    | _ => true

/-- Digits of a fabric number that a tier's switch is named by (R244, R259): board, rack, spine. -/
def tierDigits (tier pkid : Nat) : Nat := if tier = 0 then pkid / 16 else if tier = 1 then pkid / 256 else 0

/-- A configuration write ends with its reply. -/
def endConfig (s : State) (c : Nat) (o : Op) (d : Reg) (v : Word) : State :=
  let s := updOpCtx (dropReplies s c o.id) c o fun k => wrReply k d v
  let s := s.updCore c fun k => { k with portQ := k.portQ.drop 1 }
  (endEvent (dropOp s c o.id) c o).pushOnce (.exchangeStart c)

/-- The CFG packet of a configuration write: FLG subcode 0 MCWR and 1 ACLWR, the operands in its payload. DESIGN CHOICE: log 25. -/
def sendConfig (s : State) (c : Nat) (o : Op) (acl : Bool) (a b : Word) (dat : List Word) : State :=
  let t := request s 0x0B 0x80 s.pkid 0 (16 + 8 * dat.length) (4 + 16 * bitN acl) 0 0
    (wordLE a ++ wordLE b ++ dat.flatMap wordLE) c o.id
  match t.sent.getLast? with
  | some r => t.push (.cfg r.pkt)
  | none => t

/-- The head of the exchange port: a configuration write. -/
def runConfig (s : State) (c : Nat) (o : Op) (acl : Bool) (a b : Word) (dat : List Word) (d : Reg) : State :=
  let refused := exchReply 2 Cause.fabnack.code 0
  match s.sent.find? fun r => r.core == c && r.op == o.id with
  | some r =>
    match r.got, r.nack with
    | some bs, _ => endConfig s c o d (exchReply 0 0 (leNat bs))
    | none, some _ => endConfig s c o d refused
    | none, none => s.pushOnce (.exchangeStart c)
  | none =>
    if ¬ configReady s c o then s.pushOnce (.exchangeStart c)
    else if (unreachable s).isSome then endConfig s c o d refused
    else if ¬ acl ∧ tierDigits (field a 9 8) (field a 23 12) ≠ tierDigits (field a 9 8) s.pkid then endConfig s c o d refused
    else (sendConfig s c o acl a b dat).pushOnce (.exchangeStart c)

/-- EXCHANGE_START (R268, R283): the port's head takes its guard and goes to the hub while the core has fewer than four active
exchanges, behind its context's earlier releases and vector commands and, with ACQ, its earlier loads (R162, R200, R278); an MCWR or ACLWR there is sent (R258). -/
def runExchangeStart (c : Nat) (s : State) : State :=
  match (s.core c).portQ with
  | [] => s
  | id :: rest =>
    let pop := fun (s : State) => (s.updCore c fun k => { k with portQ := rest }).pushOnce (.exchangeStart c)
    match opById s c id with
    | none => pop s
    | some o =>
      match o.body with
      | .config acl a b dat d => runConfig s c o acl a b dat d
      | .exch _ _ g _ =>
        match s.exchs.find? fun e => e.core == c && e.op == id && !e.ended with
        | none => pop s
        | some e =>
          match g.taken with
          | .waiting => s
          | .discard => endExch s e 1 0 {cause := .none}
          | .run =>
            if (s.exchs.filter fun q => q.active && q.core == c).length ≥ 4 then s
            else if vectorsBefore s c o ∨ releaseBefore s c o ∨ (xAcq e.record = true ∧ loadsBefore s c o = true) then
              s.pushOnce (.exchangeStart c)
            else startExch (pop s) c o e
      | _ => pop s
def execExchangeStart (core : Nat) (s : State) : Out := took (runExchangeStart core s)

/-! The walk (R273, R274). -/

/-- Where an element goes: party and offset there, or nowhere (an index entry of all ones). -/
def elemTarget (s : State) (w : Who) (e : Exch) (n : Nat) : Got (Option (Nat × Nat)) :=
  let r := e.record
  let m := storedAt (orderOf (xf r 56 1)) (srcExts r e.me) n
  let entry := leWord ((r.drop 88).take 8) + BitVec.ofNat 64 (4 * m.getD 3 0)
  let row := if xIndexed r then
      match readPieces s w e.op [] true (pieces entry 4) with
      | .ok (bs, _) s => Got.ok (some (leNat bs)) s
      | .wait s => .wait s
      | .bad p s => .bad p s
    else .ok none s
  match row with
  | .wait s => .wait s
  | .bad p s => .bad p s
  | .ok v s =>
    let ends := (upFrom 0 4).map fun d =>
      match (if d = 3 then v else none) with
      | some v => (v % 65536, v / 65536)
      | none =>
        let g := globalOf (srcDist r d) (gridCoord (srcGrid r) e.me d) (m.getD d 0)
        (ownerOf (dstDist r d) g, localOf (dstDist r d) g)
    match v with
    | some v =>
      if v = 0xFFFFFFFF then .ok none s
      else if v % 65536 ≥ (dstDist r 3).p ∨ v / 65536 ≥ xf r 54 2 then .bad (stopAt .shape entry) s
      else
        let q := ((upFrom 0 4).zip ends).foldr (fun (d, z) acc => z.1 + (dstDist r d).p * acc) 0
        .ok (some (q, xEs r * placeIn (orderOf (xf r 57 1)) (dstExts r q) (ends.map (·.2)))) s
    | none =>
      let q := ((upFrom 0 4).zip ends).foldr (fun (d, z) acc => z.1 + (dstDist r d).p * acc) 0
      .ok (some (q, xEs r * placeIn (orderOf (xf r 57 1)) (dstExts r q) (ends.map (·.2)))) s

/-- A run in formation: party, destination offset, first source element and elements. -/
abbrev Run := Option (Nat × Nat × Nat × Nat)

/-- The walk from element `n` until a run closes: the run, and the next element. -/
def formRun (s : State) (w : Who) (e : Exch) (run : Run) (n : Nat) : Nat → Got (Run × Nat)
  | 0 => .ok (run, n) s
  | fuel + 1 =>
    match elemTarget s w e n with
    | .wait s => .wait s
    | .bad p s => .bad p s
    | .ok t s =>
      let es := xEs e.record
      match t, run with
      | none, none => formRun s w e none (n + 1) fuel
      | none, some r => .ok (some r, n + 1) s
      | some (q, doff), none => formRun s w e (some (q, doff, n, 1)) (n + 1) fuel
      | some (q, doff), some (rq, rd', r0, k) =>
        if q = rq ∧ doff = rd' + k * es ∧ (k + 1) * es ≤ 256 then formRun s w e (some (rq, rd', r0, k + 1)) (n + 1) fuel
        else .ok (some (rq, rd', r0, k), n) s

/-- EXCHANGE_RUN (R273, R278, R280): the sending party's next run is formed, read and sent, or its walk ends. -/
def runExchangeRun (id : Nat) (s : State) : State :=
  match exchById s id with
  | none => s
  | some e =>
    match opById s e.core e.op with
    | none => s
    | some o =>
      let again := fun (s : State) => s.pushOnce (.exchangeRun id)
      let total := product (srcExts e.record e.me)
      let ends := fun (s : State) (e : Exch) =>
        let s := updExch s id fun e => { e with walked := true }
        let s := if xIndexed e.record then
            (upFrom 0 (xNp e.record)).foldl (fun s q =>
              sendParty s e { partyMsg s e q with n := Tbl.read e.sentTo q 0 } 1 (.closingNotice s.nextId)) s
          else s
        s.pushOnce (.exchangeEnd id)
      if e.walked ∨ o.held then s
      else if storesBefore s e.core o ∨ vectorsBefore s e.core o then again s
      else
        let w := whoOp s e.core o
        let fails := fun (p : Stop) (t : State) =>
          if p.cause = .xlate then holdOp (keepReplies s e.core e.op { s with tlb := t.tlb }) e.core o p (.exchangeRun id)
          else failExch s e p 0
        match formRun s w e none e.pos (total - e.pos) with
        | .wait t => again (keepReplies s e.core e.op t)
        | .bad p t => fails p t
        | .ok (none, _) t => ends t e
        | .ok (some (q, doff, n0, k), n) t =>
          let es := xEs e.record
          match readPieces t w e.op [] true (pieces (xBase e.record false + BitVec.ofNat 64 (n0 * es)) (k * es)) with
          | .wait t => again (keepReplies s e.core e.op t)
          | .bad p t => fails p t
          | .ok (bs, _) t =>
            let e := { e with pos := n, sent := e.sent + k * es, sentTo := Tbl.put e.sentTo q (Tbl.read e.sentTo q 0 + k * es) }
            let t := updExch t id fun _ => e
            let t := sendParty t e { partyMsg t e q with doff := doff, bytes := bs, n := k * es } 0 (.exchangeRunDeliver t.nextId)
            if n ≥ total then ends t e else again t
def execExchangeRun (id : Nat) (s : State) : Out := took (runExchangeRun id s)

/-! Delivery (R275, R276). -/

/-- Whether a message belongs to a party's exchange: one that a later exchange of its sender under the same XID sends does not (R275). -/
def belongs (e : Exch) (m : XMsg) : Bool :=
  match Tbl.find e.bound m.fromP with
  | some o => o == m.sop
  | none => e.ended || m.n == 0 || xIndexed e.record || (Tbl.find e.debt m.fromP).isSome || !sameMap m e

/-- The receiving part of a message: none while its party has not started. -/
def receiver (s : State) (m : XMsg) : Option Exch :=
  s.exchs.find? fun e => (e.active || e.ended) && e.parties.getD e.me 0 == m.dst && xXid e.record == m.xid && belongs e m
/-- A party's first message names its exchange. -/
def bindSender (s : State) (e : Exch) (m : XMsg) : State := updExch s e.id fun e => { e with bound := Tbl.put e.bound m.fromP m.sop }
def dropXmsg (s : State) (id : Nat) : State := { s with xmsgs := s.xmsgs.filter fun m => m.id != id }
def xmsgById (s : State) (id : Nat) : Option XMsg := s.xmsgs.find? fun m => m.id == id

/-- An acknowledgement on its way to the sender of a run. -/
def ackRun (s : State) (m : XMsg) : State :=
  let f := fun (q : XMsg) => if q.id = m.id then { q with bytes := [] } else q
  State.pushOnce { s with xmsgs := s.xmsgs.map f } (.exchangeAck m.id)

/-- EXCHANGE_RUN_DELIVER (R275, R280): a run is written at its destination, waits for its party to start, or is refused. -/
def runExchangeRunDeliver (id : Nat) (s : State) : State :=
  match xmsgById s id with
  | none => s
  | some m =>
    let again := fun (s : State) => s.pushOnce (.exchangeRunDeliver id)
    match receiver s m with
    | none => again s
    | some e =>
      let s := bindSender s e m
      if e.ended ∨ e.failed.isSome then ackRun s m
      else if ¬ sameMap m e ∨ m.doff + m.n > xEs e.record * product (dstExts e.record e.me) then
        ackRun (failExch s e (stopAt .shape (xBase e.record true + BitVec.ofNat 64 m.doff)) 0xFF) m
      else
        match opById s e.core e.op with
        | none => ackRun s m
        | some o =>
          if o.held then again s else
          let w := whoOp s e.core o
          let ps := cutPieces (xBase e.record true + BitVec.ofNat 64 m.doff) m.bytes
          match writeBeat s w e.op [] (xG e.record) ps with
          | .wait t => again (keepReplies s e.core e.op t)
          | .bad p t =>
            if p.cause = .xlate then again (holdOp { s with tlb := t.tlb } e.core o p (.exchangeRunDeliver id))
            else ackRun (failExch { s with races := t.races, nextId := t.nextId } e p 0) m
          | .ok _ t =>
            ackRun (updExch t e.id fun e =>
              { e with rcvd := e.rcvd + m.n, got := Tbl.put e.got m.fromP (Tbl.read e.got m.fromP 0 + m.n) }) m
def execExchangeRunDeliver (id : Nat) (s : State) : Out := took (runExchangeRunDeliver id s)

/-- A peer's request that stands here as admitted, and its end with its reply. -/
def inboundOf (s : State) (src tag : Nat) : Option Inbound := s.inbound.find? fun i => i.src == src && i.tag == tag
def dropInbound (s : State) (src tag : Nat) : State := { s with inbound := s.inbound.filter fun i => !(i.src == src && i.tag == tag) }

/-- A reply packet to a peer's request. -/
def replyTo (s0 : State) (op dst tag len : Nat) (payload : List Byte) : State :=
  let s := dropInbound s0 dst tag
  State.emit { s with seqOut := s.seqOut + 1 } (.packet ⟨op, 0, s.pkid, dst, s.seqOut % 65536, 0, len, 0, 0, tag, 0, payload, []⟩)

/-- A NACK with its reason (R252). -/
def refuse (s : State) (p : Packet) (reason : Nat) : State := replyTo s 0x90 p.src p.tag 1 [BitVec.ofNat 8 reason]

/-- The port of the last hop by which a request arrives: its sender's link group (R245, R250). DESIGN CHOICE of the hash: log 24. -/
def inPort (p : Packet) : Nat := (p.dst + p.faddr / 256) % 8

/-- The last-hop check (R250): some valid entry of the port's table has the source, every byte and the right. -/
def admitted (s : State) (p : Packet) (right : Nat) : Bool :=
  (upFrom 0 64).any fun i =>
    let e := Tbl.read s.acl (inPort p * 64 + i) {}
    e.v && e.srclo ≤ p.src && p.src ≤ e.srchi && e.lo.toNat ≤ p.faddr && p.faddr + max p.len 1 - 1 ≤ e.hi.toNat
      && e.rights / 2 ^ right % 2 == 1

/-- A request that a peer's packet brings to this package: checked once, when it comes to the last hop, then executed, where it may have to
wait; one of another opcode, or one that no entry passes, is answered in the target's place (R247, R250, R257). A package outside a fabric
has no port. -/
def arrive (op right : Nat) (p : Packet) (run : State → State) (s : State) : State :=
  if s.pkid = 0 ∨ p.dst ≠ s.pkid then s
  else if (inboundOf s p.src p.tag).isSome ∧ p.op = op then run s
  else if ¬ admitted s p right then refuse s p 1
  else if p.op ≠ op then refuse s p 5
  else run { s with inbound := s.inbound ++ [{ src := p.src, tag := p.tag, op := op }] }

/-- EXCHANGE_ACK (R275, R276): the bytes of a run are performed, and count as acknowledged at its sender. -/
def runExchangeAck (id : Nat) (s : State) : State :=
  match xmsgById s id with
  | none => s
  | some m =>
    let pending := match receiver s m with
      | some e => s.awaiting.any fun a => a.core == e.core && a.op == e.op
      | none => false
    if pending then s.pushOnce (.exchangeAck id) else
    let wake := match receiver s m with
      | some e => fun (s : State) => s.pushOnce (.exchangeEnd e.id)
      | none => fun s => s
    let s := wake (dropXmsg s id)
    if m.src / 8192 ≠ 0 then replyTo s 0x82 (m.src / 8192) m.tag m.n []
    else
      match s.exchs.find? fun e => (e.active || e.ended) && e.op == m.sop with
      | none => s
      | some e => (updExch s e.id fun e => { e with acked := e.acked + m.n }).pushOnce (.exchangeEnd e.id)
def execExchangeAck (id : Nat) (s : State) : Out := took (runExchangeAck id s)

/-- A notice or an abandonment goes behind what its sender has sent before to the same party (R274, R280). -/
def behindRuns (s : State) (m : XMsg) : Bool :=
  s.xmsgs.any fun q => q.id < m.id && q.src == m.src && q.dst == m.dst && q.xid == m.xid && q.sop == m.sop && !(q.n > 0 && q.bytes.isEmpty)

/-- CLOSING_NOTICE (R274, R276): what a sending party owes; a sender with REL tells in the same way, to each party that it has sent bytes to,
that its release is performed, so that what the receiver's end acquires is that release (R201, R278). DESIGN CHOICE: log 80. -/
def runClosingNotice (id : Nat) (s : State) : State :=
  match xmsgById s id with
  | none => s
  | some m =>
    match receiver s m with
    | none => s.pushOnce (.closingNotice id)
    | some e =>
      if behindRuns s m then s.pushOnce (.closingNotice id) else
      let s := if m.src / 8192 = 0 then s else replyTo s 0x82 (m.src / 8192) m.tag 0 []
      let s := dropXmsg (bindSender s e m) id
      let told := fun (e : Exch) => if m.rel then { e with released := m.fromP :: e.released } else { e with debt := Tbl.put e.debt m.fromP m.n }
      if e.ended then s else (updExch s e.id told).pushOnce (.exchangeEnd e.id)
def execClosingNotice (id : Nat) (s : State) : Out := took (runClosingNotice id s)

/-- ABANDONMENT (R276, R280). -/
def runAbandonment (id : Nat) (s : State) : State :=
  match xmsgById s id with
  | none => s
  | some m =>
    match receiver s m with
    | none => s.pushOnce (.abandonment id)
    | some e =>
      if behindRuns s m then s.pushOnce (.abandonment id) else
      let s := if m.src / 8192 = 0 ∨ m.born = true then s else replyTo s 0x82 (m.src / 8192) m.tag 0 []
      let s := dropXmsg (bindSender s e m) id
      if e.ended then s else (updExch s e.id fun e => { e with abandoned := e.abandoned ++ [(m.fromP, m.cause)] }).pushOnce (.exchangeEnd e.id)
def execAbandonment (id : Nat) (s : State) : Out := took (runAbandonment id s)

/-- The hub's abandonment of party `p` towards party `q` of an exchange that stands here. -/
def hubMsg (s : State) (e : Exch) (p q cause : Nat) : XMsg :=
  let c := e.parties.getD p 0
  { id := s.nextId, xid := xXid e.record, src := if c / 8192 = 0 then c else c / 8192 * 8192, dst := e.parties.getD q 0, fromP := p,
    toP := q, sop := (Tbl.find e.bound p).getD 0, cause := cause, born := true }

/-- Whether a party of an exchange has an exchange of its own here: queued, active or just ended. -/
def startedHere (s : State) (e : Exch) (p : Nat) : Bool :=
  s.exchs.any fun q => xXid q.record == xXid e.record && q.parties.getD q.me 0 == e.parties.getD p 0

/-- A party that owed bytes here and has sent them all. -/
def hasPaid (e : Exch) (p : Nat) : Bool :=
  match Tbl.find e.debt p with
  | some n => 0 < n && n ≤ Tbl.read e.got p 0
  | none => false

/-- R281: the hub abandons every party whose core `gone` holds of, and that has sent no abandonment itself, towards the parties that have an
exchange here, and, one of this package, towards those of other packages. -/
def abandonParties (s : State) (gone : Nat → Bool) (cause : Nat) : State :=
  (s.exchs.filter fun e => !e.ended && !gone (e.parties.getD e.me 0)).foldl (fun s e =>
    ((upFrom 0 (xNp e.record)).zip e.parties).foldl (fun s (p, c) =>
      if ¬ gone c ∨ e.abandoned.any (fun a => a.1 == p) = true ∨ (c / 8192 = 0 ∧ (startedHere s e p || hasPaid e p) = true) then s
      else
        let m := hubMsg s e p e.me cause
        let s := State.push { s with nextId := s.nextId + 1, xmsgs := s.xmsgs ++ [m] } (.abandonment m.id)
        let first := (s.exchs.find? fun q => !q.ended && xXid q.record == xXid e.record && !gone (q.parties.getD q.me 0)).map (·.id)
        if c / 8192 ≠ 0 ∨ first ≠ some e.id then s
        else ((upFrom 0 (xNp e.record)).zip e.parties).foldl (fun s (q, t) =>
          if t / 8192 = 0 then s
          else request s 0x05 0x82 (t / 8192) (coreFaddr (t % 128) (t / 128 % 64) 0) 0 (4 + 16 * 2) 0 0 [] 0 (2 ^ 42) none
            (xrunHead { hubMsg s e p q cause with digest := digestOf e })) s) s) s

/-- Whether every sending party has paid its debt or been abandoned; a party whose pieces are both empty owes and expects nothing (R276). -/
def paidUp (e : Exch) : Bool :=
  (product (dstExts e.record e.me) == 0 && product (srcExts e.record e.me) == 0) ||
  (upFrom 0 (xNp e.record)).all fun p =>
    e.abandoned.any (fun a => a.1 == p) ||
    match Tbl.find e.debt p with
    | some n => n ≤ Tbl.read e.got p 0
    | none => !xIndexed e.record

/-- The release of an operation at a scope over its context's earlier accesses: whether it is performed. -/
def releaseOp (s : State) (c : Nat) (o : Op) (sc : Scope) : Bool × State :=
  if ¬ releaseReady (mates s c o) o.id sc then (false, s)
  else if sc ≠ .sys then (true, updOpCtx s c o region)
  else
    match peerDirty s (dieOf c) with
    | [] => if s.sent.any (fun r => r.core == wbCore (dieOf c)) then (false, s) else (true, updOpCtx s c o region)
    | l => (false, l.foldl (fun s sec => writeBack s (dieOf c) sec) s)

/-- Whether the release of every party that sent bytes here is performed, where the record has REL (R201, R278). -/
def releasedBy (e : Exch) : Bool :=
  !xRel e.record || (upFrom 0 (xNp e.record)).all fun p =>
    Tbl.read e.debt p 0 == 0 || e.abandoned.any (fun a => a.1 == p) || e.released.contains p

/-- The release of a party whose runs are all acknowledged, told to the parties that it sent bytes to: performed or not needed, and the
context's later work goes on (R278). -/
def exchRelease (s : State) (e : Exch) (o : Op) : Bool × State :=
  match o.body with
  | .exch off d g true =>
    let (ok, s) := releaseOp s e.core o (xScope e.record)
    if ¬ ok then (false, s)
    else
      let s := updOp s e.core o.id fun o => { o with body := .exch off d g false }
      (true, ((upFrom 0 (xNp e.record)).filter fun q => Tbl.read e.sentTo q 0 != 0).foldl (fun s q =>
        sendParty s e { partyMsg s e q with rel := true } 3 (.closingNotice s.nextId)) (wakeEngines s e.core))
  | _ => (true, s)

/-- EXCHANGE_END (R276-R278, R280): a party whose part is complete, or that has failed, ends. -/
def runExchangeEnd (id : Nat) (s : State) : State :=
  match exchById s id with
  | none => s
  | some e =>
    match e.failed with
    | some (p, _) => endExch s e 2 p.cause.code p
    | none =>
      -- a write with G=1 whose acknowledgement was lost is performed; then the party fails (R228)
      let lost := match opById s e.core e.op with | some o => o.cause == .visfail | none => false
      if lost && !(s.awaiting.any fun a => a.g && a.core == e.core && a.op == e.op) then failExch s e (stopAt .visfail 0) 0
      else if ¬ (e.walked ∧ e.acked = e.sent) then s else
      match opById s e.core e.op with
      | none => s
      | some o =>
        let (ok, s) := exchRelease s e o
        if ¬ ok then s.pushOnce (.exchangeEnd id)
        else if ¬ (paidUp e ∧ releasedBy e) then s
        else match e.abandoned with
          | [] => endExch s e 0 0 {cause := .none}
          | a :: _ => endExch s e 3 a.2 {cause := .none}
def execExchangeEnd (id : Nat) (s : State) : Out := took (runExchangeEnd id s)

/-! XWAIT, XSTAT and XCANCEL (R284, R285). -/

/-- The offset of a record that these name. -/
def recordAt (s : State) (ea : Word) : Except Stop Nat :=
  let (c, x) := s.cur
  if ea.toNat % 128 ≠ 0 then .error (stopAt .align ea) else
  match formOf s c (bankCore s c x) (!isSuper s s.k) true ea with
  | .error _ => .error (stopAt .laddr ea)
  | .ok (.loc t off) => if t = bankCore s c x ∧ off < bankEnd then .ok off else .error (stopAt .laddr ea)
  | .ok _ => .error (stopAt .laddr ea)

/-- XWAIT (R284): the reply of the context's exchange there once it has ended, or the result that the record holds; a successful one is
acquired at the scope of the exchange that ended there last (R278). -/
def execXwait (a d : Reg) (s : State) : Out :=
  took (issue 4 (some d) [a] (fun s =>
    let (c, x) := s.cur
    match recordAt s (rd s.k a) with
    | .error p => .fault p s
    | .ok off =>
      let give := fun (s : State) (v : Word) =>
        let t := s.wrK d v
        let sc := Tbl.read (s.core (bankCore s c x)).xlast off .core
        Res.ret (if field v 63 56 = 0 ∨ field v 63 56 = 3 then acquireAt t c x sc else t)
      if (exchAt s c x off).isSome then .wait (s.updK fun k => { k with xwait := some (off, none) })
      else match (s.k.xwait.filter fun q => q.1 == off).bind (·.2) with
        | some v => give s v
        | none =>
          match readNow s (localAddr (off + 120)) 8 with
          | .wait s => .wait s
          | .bad p s => .fault p s
          | .ok bs s => give s (leWord bs)) s)

/-- XSTAT (R284). -/
def execXstat (a d : Reg) (s : State) : Out :=
  took (issue 4 (some d) [a] (fun s =>
    let (c, x) := s.cur
    match recordAt s (rd s.k a) with
    | .error p => .fault p s
    | .ok off =>
      match exchAt s c x off with
      | some e => .ret (s.wrK d (if e.active then exchReply 5 0 e.rcvd else exchReply 6 0 0))
      | none =>
        match readNow s (localAddr (off + 120)) 8 with
        | .wait s => .wait s
        | .bad p s => .fault p s
        | .ok bs s => .ret (s.wrK d (leWord bs))) s)

/-- XCANCEL (R285). -/
def execXcancel (a : Reg) (s : State) : Out :=
  took (issue 4 none [a] (fun s =>
    let (c, x) := s.cur
    match recordAt s (rd s.k a) with
    | .error p => .fault p s
    | .ok off =>
      match exchAt s c x off with
      | some e => .ret (cancelExch s e)
      | none => .ret s) s)

/-! MCWR and ACLWR (R258-R260). -/

/-- A configuration write enters the exchange port. -/
def acceptConfig (acl : Bool) (a b : Word) (dat : List Word) (d : Reg) (s : State) : Res :=
  let c := s.cur.1
  let (id, s) := s.fresh
  let s := addOp s c (mkOp s id a none (.config acl a b dat d))
  .ret ((s.updCore c fun k => { k with portQ := k.portQ ++ [id] }).pushOnce (.exchangeStart c))

/-- What a configuration write waits for at acceptance. -/
def configStalls (s : State) : Bool :=
  let (c, x) := s.cur
  let ops := opsOf s c x
  acqPending ops || (s.core c).portQ.length ≥ 2 || !tableRoom s c 1 || configPending ops

/-- MCWR (R259). -/
def execMcwr (b a d : Reg) (s : State) : Out :=
  took (privileged (.mcwr b a d) (some d) [a, b] (fun s =>
    let va := rd s.k a
    let vb := rd s.k b
    if configStalls s then .wait s
    else if field va 9 8 = 3 ∨ field va 11 10 ≠ 0 ∨ field va 63 24 ≠ 0 ∨ field vb 63 18 ≠ 0 then .fault (nackStop 0 6) s
    else acceptConfig false va vb [] d s) s)

/-- ACLWR (R260). -/
def execAclwr (b a d : Reg) (s : State) : Out :=
  took (privileged (.aclwr b a d) (some d) [a, b] (fun s =>
    let ea := rd s.k a
    let vb := rd s.k b
    if configStalls s then .wait s
    else if field vb 63 14 ≠ 0 ∨ field vb 7 0 = 0 then .fault (nackStop 0 6) s
    else
      match readWords s ea 4 with
      | .wait s => .wait s
      | .bad p s => .fault p s
      | .ok ws s =>
        let w2 := ws.getD 2 0
        let lo := (ws.getD 0 0).toNat
        let hi := (ws.getD 1 0).toNat
        if field w2 15 12 ≠ 0 ∨ field w2 31 28 ≠ 0 ∨ field w2 38 37 ≠ 0 ∨ field w2 63 40 ≠ 0 ∨ ws.getD 3 0 ≠ 0
            ∨ field w2 11 0 > field w2 27 16 ∨ (lo > hi ∧ w2.getLsbD 39 = true) then .fault (nackStop 0 6) s
        else acceptConfig true ea vb ws d s) s)

end Sys2Proof.Machine
end

