-- ==== Sys2Proof/Machine/Firing.lean ====
section
/-!
DEFINITION. Firings (R308-R326, R341-R345, R384): when one is runnable, how it begins and what its end leaves, gates and level
notifications, the nadir, quiescence, the energy reservoir and the trace records of tasks.
-/
set_option linter.all false
namespace Sys2Proof.Machine
open Sys2Proof

/-! Trace records (R384). -/

/-- A trace record of work on core `c`: written, or dropped when the ring is full and does not wrap. -/
def traceRec (s : State) (c : Nat) (gtid : Word) (kind srch : Nat) (value : Word) : State :=
  let d := dieOf c
  let t := s.die d
  if ¬ t.ten ∨ t.tsize = 0 ∨ ¬ (t.alld ∨ t.tgtb = field gtid 63 48) then s
  else if t.widx ≥ t.tsize ∧ ¬ t.wrap then s.updDie d fun t => { t with drops := min (t.drops + 1) 0xFFFFFFFF }
  else
    let r := natLE 8 s.time ++ wordLE gtid ++ natLE 1 kind ++ natLE 3 c ++ natLE 4 srch ++ wordLE value
    (hubWrite s (t.tbase + 32 * (t.widx % t.tsize)) r).updDie d fun t => { t with widx := (t.widx + 1) % 2 ^ 32 }

/-! The energy reservoir (R343, R344). -/

/-- The debit of an estimate before a firing or task of a launch: none when classes 1-7 find too little, or a debt that the window's fill
has not repaid. DEDUCED (log 83): what class 0 draws in this window is owed to the next one. -/
def drawEstimate (s : State) (d : Dom) (est : Nat) : Option State :=
  if runClass d = 0 then some { s with debt := s.debt + est }
  else if s.carried = 0 ∧ est ≤ s.reservoir then some { s with reservoir := s.reservoir - est }
  else none

/-- The settlement at the end of a firing or task: the launch's energy metered since the last settlement against the estimate.
DESIGN CHOICE: log 30. -/
def settle (s : State) (g est : Nat) : State :=
  match s.dom? g with
  | none => s
  | some d =>
    let used := euOf d.meter - d.settled
    let s := s.updDom g fun d => { d with settled := euOf d.meter }
    if used ≤ est then
      (if runClass d = 0 then { s with debt := s.debt - (est - used), carried := min s.carried (s.debt - (est - used)) } else { s with reservoir := s.reservoir + (est - used) })
    else
      let extra := used - est
      if runClass d = 0 then { s with debt := s.debt + extra }
      else { s with reservoir := s.reservoir - extra, debt := s.debt + (extra - s.reservoir) }

/-! Gates (R314-R317, R320, R321). -/

/-- R316 for one edge. -/
def edgeHolds (b : Block) (e : Edge) : Bool :=
  decide (e.a ≤ wrapdiff e.lvl (b.t + (if e.s then BitVec.ofNat 32 b.d else 0)))
def gateHolds (b : Block) : Bool := b.edges.all (edgeHolds b)

/-- The spread hold of R320. -/
def spreadHolds (d : Dom) (b : Block) : Bool := decide ((2 ^ 30 : Int) ≤ wrapdiff (b.t + BitVec.ofNat 32 b.d) d.nadir)

/-- The index of this package among a launch's (R336). -/
def myPkg (s : State) (d : Dom) : Nat := d.pkgs.idxOf s.pkid
def isMine (s : State) (d : Dom) (w : Actor) : Bool := d.pkgs.isEmpty || w.pkg == myPkg s d

/-- A notification at an edge: counted, and a later level taken (R317). -/
def hear (e : Edge) (lvl : BitVec 32) (step : Nat) (fin : Bool) : Edge :=
  if 0 < wrapdiff lvl e.lvl then { e with count := e.count + 1, lvl := lvl, step := step, fin := fin } else { e with count := e.count + 1 }

/-- An edge of a block changed. -/
def updEdge (s : State) (g b i : Nat) (f : Edge → Edge) : State :=
  s.updDom g fun d =>
    let k := Tbl.read d.blocks b {}
    match k.edges[i]? with
    | some e => { d with blocks := Tbl.put d.blocks b { k with edges := k.edges.set i (f e) } }
    | none => d

/-- The other packages of a launch. -/
def otherPkgs (s : State) (d : Dom) : List Nat := d.pkgs.filter (· != s.pkid)
/-- A NADIR packet to every other package of a domain: subcode 0 its least value, 1 a block's commit, 2 that its part rests. DESIGN
CHOICE: log 25. -/
def tellOthers (s : State) (g sub : Nat) (bytes : List Byte) : State :=
  (otherPkgs s (s.dom g)).foldl (fun s p => request s 0x0A 0x83 p 0 bytes.length (4 + 16 * sub) 0 0 bytes 0 (2 ^ 42) none (gtbInfo g)) s

/-- A level notification along every enabled edge out of block `j` (R317); to a block of another package it goes as an MSG
packet of subcode 4, and every other package is told the commit. DESIGN CHOICE of their layouts: log 25. -/
def notifyEdges (s : State) (g j : Nat) (t : BitVec 32) (step : Nat) (fin : Bool) : State :=
  let d := s.dom g
  let s := tellOthers s g 1 (natLE 4 j ++ natLE 4 t.toNat ++ natLE 2 step ++ natLE 1 (bitN fin))
  d.blocks.foldl (fun s b =>
    ((upFrom 0 b.2.edges.length).zip b.2.edges).foldl (fun s (i, e) =>
      if e.j ≠ j then s else
      let w := Tbl.read d.actors b.2.actor {}
      if isMine s d w then s.push (.levelNotification g b.1 i t step fin)
      else request (updEdge s g b.1 i fun e => hear e t step fin) 0x06 0x83 (d.pkgs.getD w.pkg 0) (coreFaddr w.x w.y 0) 14 (4 + 16 * 4) 0 0
        (natLE 4 b.1 ++ natLE 1 i ++ natLE 4 t.toNat ++ natLE 2 step ++ natLE 1 (bitN fin) ++ natLE 2 0) 0 (2 ^ 42) none (gtbInfo g)) s) s

def isPow2 (n : Nat) : Bool := n != 0 && (upFrom 0 17).any fun k => n == 2 ^ k

/-- Whether the S = 1 edges between blocks of equal step have no directed cycle (R321): blocks without such an edge from a block
that still stands are taken away until none is left. -/
def acyclic (bs : Tbl Block) : Nat → List Nat → Bool
  | 0, l => l.isEmpty
  | n + 1, l =>
    let held := l.filter fun i =>
      let b := Tbl.read bs i {}
      b.edges.any fun e => e.s && l.contains e.j && (Tbl.read bs e.j {}).d == b.d
    if held.length = l.length then l.isEmpty else acyclic bs n held

/-- R321. -/
def isNested (bs : Tbl Block) : Bool :=
  (bs.all fun b => isPow2 b.2.d && b.2.t.toNat % b.2.d == 0 && b.2.edges.all fun e =>
    decide (e.a ≤ 0) && (!e.s || decide (b.2.d ≤ (Tbl.read bs e.j {}).d))) && acyclic bs (bs.length + 1) (Tbl.keys bs)

/-! Runnable (R312, R359). -/

/-- The ring behind an actor's port. -/
def portRing (s : State) (d : Dom) (ring : Nat) : Option LiveRing :=
  (Tbl.find d.rings ring).bind fun k => Tbl.find (s.core (k / 2 ^ 18)).rings (k % 2 ^ 18)

def portsAllow (s : State) (d : Dom) (w : Actor) : Bool :=
  w.ports.all fun p => match portRing s d p.1 with
    | some r => p.2.1 ≤ (if p.2.2 then r.seenFree else r.seenFill)
    | none => p.2.1 == 0

/-- The dispatcher's start firing (R312). -/
def isStarter (w : Actor) : Bool := w.block.isNone && w.ports.all fun p => p.2.2

/-- The oldest message that stands in its entries for a domain's supervisor (R359). -/
def inboxMsg (s : State) (d : Dom) (g : Nat) : Option SMsg :=
  let w := Tbl.read d.actors d.super {}
  ((s.core w.core).smsgs.find? fun m => m.1 == g).map (·.2)

/-- A firing that R312 gives to any actor is due: by its block and ports, or as its start firing. -/
def firingDue (s : State) (d : Dom) (w : Actor) : Bool :=
  (w.again.isSome || !isStarter w || !w.begun) && portsAllow s d w &&
    match w.block with
    | none => true
    | some b =>
      let k := Tbl.read d.blocks b {}
      !k.fin && gateHolds k && !spreadHolds d k

/-- Runnable but for energy (R312, R359, R367). -/
def runnable (s : State) (g a : Nat) : Bool :=
  match s.dom? g with
  | none => false
  | some d =>
    match Tbl.find d.actors a with
    | none => false
    | some w =>
      let k := s.ctx w.core w.ctx
      let die := s.die (dieOf w.core)
      let sup := a == d.super
      isMine s d w && d.started && !d.ended && !w.ended && !w.running && k.home == some (g, some a) && k.work.isNone
        && die.reset.isNone && !die.isolated && (sup || !(d.frozen || d.draining))
        && ((sup && (match w.again with | some (_, m, _) => m.isSome | none => (inboxMsg s d g).isSome)) || firingDue s d w)

/-! Quiescence and completion (R325, R326). -/

/-- Tasks of a domain that are queued. -/
def tasksQueued (s : State) (g : Nat) : Bool :=
  (s.cores.any fun c => c.2.deque.any (·.dom == g) || c.2.overflow.any (·.2.2.dom == g))
    || s.dies.any fun d => d.2.queue.any (·.dom == g)

/-- A context, resident or saved, that runs work of a domain. -/
def working (s : State) (g : Nat) : Bool :=
  let mine := fun (k : Ctx) => match k.work with | some w => w.dom == g | none => false
  (s.cores.any fun c => c.2.ctxs.any fun k => mine k.2) || s.dies.any fun d => d.2.slots.any fun v => mine v.2.ctx

/-- What a domain has told other packages and what they have not answered: notifications, ring updates, commits. -/
def untold (s : State) (g : Nat) : Bool :=
  s.sent.any fun r => r.op == 2 ^ 42 && packetGtb r.pkt == g && !r.pkt.info.isEmpty
    && ((r.pkt.op == 6 && (r.pkt.flg / 16 == 4 || r.pkt.flg / 16 == 5)) || (r.pkt.op == 0x0A && r.pkt.flg / 16 == 1))

/-- A level notification, LVSEND message or ring update of a domain on its way. -/
def inFlight (s : State) (g : Nat) : Bool :=
  let ours := (s.dom g).rings.map (·.2)
  (s.events.any fun e => match e with
    | .levelNotification d .. => d == g
    | .ringNotification c r _ => ours.any (· == c * 2 ^ 18 + r)
    | _ => false) || s.lmsgs.any (fun m => m.2.dom == g) || untold s g

/-- The conditions of R325 but that the domain is not frozen. -/
def calm (s : State) (g : Nat) : Bool :=
  !working s g && !tasksQueued s g && !inFlight s g && (Tbl.keys (s.dom g).actors).all fun a => !runnable s g a
def quiescent (s : State) (g : Nat) : Bool := calm s g && !(s.dom g).frozen && !(s.dom g).ended && (s.dom g).started

/-- Every block of a domain is finished, those of other packages as they have told it. -/
def blocksDone (d : Dom) : Bool := d.blocks.all fun b => b.2.fin

/-- A domain's part stirs from its rest. -/
def stir (d : Dom) : Dom := { d with quiet := none, heard := none, stirs := d.stirs + bitN d.quiet.isSome }

/-- What each happening that may leave a domain quiescent or complete begins (R325, R326). A part that comes to rest tells the other
packages, and whether a firing or task has run in it since. -/
def domCheck (s : State) (g : Nat) : State :=
  match s.dom? g with
  | none => s
  | some d =>
    if ¬ quiescent s g then s.updDom g stir
    else
      let s := if blocksDone d then s.pushOnce (.domainComplete g) else s
      match d.quiet with
      | some _ => s
      | none =>
        let s := tellOthers s g 2 (natLE 1 (bitN d.lvArmed))
        let armed := d.lvArmed && isMine s d (Tbl.read d.actors d.super {})
        (s.updDom g fun d => { d with quiet := some s.time, heard := none, lvArmed := armed }).pushOnce (.lvstall g)

/-- 10 µs (R325). -/
def stallCycles : Nat := 13000

/-- Every actor of a domain that may run is dispatched (R312). -/
def wakeActors (s : State) (g : Nat) : State :=
  (Tbl.keys (s.dom g).actors).foldl (fun s a => if runnable s g a then s.pushOnce (.firingDispatch g a) else s) s

/-! The nadir (R318-R320). -/

/-- The values that the nadir covers in this package. -/
def nadirValues (s : State) (g : Nat) : List (BitVec 32) :=
  let d := s.dom g
  ((d.blocks.filter fun b => isMine s d (Tbl.read d.actors b.2.actor {})).map fun b => b.2.t)
    ++ (s.lmsgs.filter fun m => m.2.dom == g).map (fun m => m.2.stamp)
    ++ s.cores.flatMap (fun c => (c.2.inbox.filter fun m => m.dom == g).map (·.stamp))
    ++ (d.rings.flatMap fun r => match Tbl.find (s.core (r.2 / 2 ^ 18)).rings (r.2 % 2 ^ 18) with | some r => r.stamps | none => [])

/-- N + min wrapdiff(v, N), never below N. -/
def leastOf (n : BitVec 32) (vs : List (BitVec 32)) : BitVec 32 :=
  match vs with
  | [] => n
  | v :: vs =>
    let m := vs.foldl (fun m v => min m (wrapdiff v n)) (wrapdiff v n)
    n + BitVec.ofInt 32 (max 0 m)

/-- The minimum over this package's values and every other's, published once every other has been heard. -/
def nadirPublish (s : State) (g : Nat) : State :=
  let d := s.dom g
  let others := otherPkgs s d
  if others.any fun p => (Tbl.find d.peerMin p).isNone then s
  else
    let heard := others.filterMap fun p => match Tbl.find d.peerMin p with
      | some v => if v / 2 ^ 32 = 1 then some (BitVec.ofNat 32 v) else none
      | none => none
    domCheck (wakeActors (s.updDom g fun d => { d with nadir := leastOf d.nadir (nadirValues s g ++ heard) }) g) g

/-- NADIR_REFRESH (R318): the minimum published, and every firing whose spread hold it ends made runnable. Over Callyn each package
sends its own least value and waits until it has heard every other's. DESIGN CHOICE of the packet: log 25. -/
def runNadirRefresh (g : Nat) (s : State) : State :=
  match s.dom? g with
  | none => s
  | some d =>
    let own := nadirValues s g
    nadirPublish (tellOthers s g 0 (natLE 4 (leastOf d.nadir own).toNat ++ natLE 1 (bitN !own.isEmpty))) g
def execNadirRefresh (dom : Nat) (s : State) : Out := took (runNadirRefresh dom s)

/-- GATE_EVALUATE (R317): a block whose gate holds, with no firing running, has its firing dispatched. -/
def runGateEvaluate (g b : Nat) (s : State) : State :=
  let k := Tbl.read (s.dom g).blocks b {}
  if runnable s g k.actor then s.pushOnce (.firingDispatch g k.actor) else domCheck s g
def execGateEvaluate (dom blk : Nat) (s : State) : Out := took (runGateEvaluate dom blk s)

/-- LEVEL_NOTIFICATION (R295, R317): counted in the edge, whose register takes a later level; the block's context has an event. -/
def runLevelNotification (g b i : Nat) (lvl : BitVec 32) (step : Nat) (fin : Bool) (s : State) : State :=
  match s.dom? g with
  | none => s
  | some d =>
    match Tbl.find d.blocks b with
    | none => s
    | some k =>
      match k.edges[i]? with
      | none => s
      | some _ =>
        let s := updEdge s g b i fun e => hear e lvl step fin
        let w := Tbl.read d.actors k.actor {}
        (bumpHome s w.core w.ctx fun h => h == some (g, some k.actor)).pushOnce (.gateEvaluate g b)
def execLevelNotification (dom blk edge : Nat) (lvl : BitVec 32) (step : Nat) (fin : Bool) (s : State) : Out :=
  took (runLevelNotification dom blk edge lvl step fin s)

/-! The beginning of a firing (R112, R119, R313). -/

/-- The record of a port's handle (R119). -/
def portShape (slot : Nat) : Shape :=
  let e1 := min (slot / 64) 65535
  { d0 := 0, d1 := BitVec.ofNat 64 (64 + e1 * 2 ^ 16 + 2 ^ 32 + 2 ^ 48), d2 := BitVec.ofNat 64 (64 + 64 * e1 * 2 ^ 32),
    d3 := BitVec.ofNat 64 (ElemTy.n8.code * 2 ^ 48 + 2 ^ 52) }

/-- Handles of a firing: ports, and the block's buffers. -/
def entryHandles (s : State) (d : Dom) (w : Actor) : Tbl Handle :=
  let ports := ((upFrom 0 w.ports.length).zip w.ports).filterMap fun (i, p) =>
    match Tbl.find d.rings p.1, portRing s d p.1 with
    | some k, some r => some (i, ({ shape := portShape r.slot, bind := some ⟨k / 2 ^ 18, k % 2 ^ 18, p.2.2, 0, false⟩ } : Handle))
    | _, _ => none
  match w.block with
  | none => ports
  | some b =>
    let k := Tbl.read d.blocks b {}
    ports ++ [(14, { shape := k.x }), (15, { shape := k.y })]

/-- A context at the entry of a firing or task: window at depth 0 with the given a-set and o-set, everything of the last one gone. -/
def entryCtx (k : Ctx) (w : Work) (pc : Nat) (as os : List Word) (hs : Tbl Handle) (cls : Nat) : Ctx :=
  let globals := (upFrom 1 7).map fun r => (r, Tbl.read k.regs r 0)
  { k with
    status := .ready, work := some { w with ptr0 := field k.wins 17 0 }, pc := pc
    regs := globals ++ (upFrom 8 8).zip as ++ (upFrom 16 8).map (fun r => (r, 0)) ++ (upFrom 24 8).zip os
    frames := [], depth := 0, replies := [], guards := [], compacted := [], handles := hs, region := 0, wp := [], matCls := cls
    lvstep := none, park := none, parkPage := none, pend := none, later := [], oneDefault := false, loop := none, back := [], xwait := none, arrival := none, departed := false
    joinLine := none, waited := 0, first := true, pass := false, kept := [], sending := false }

/-- The messages of every domain that wait for entries 28-31 are looked at again: one has been freed (R359). -/
def smsgsFreed (s : State) : State :=
  (s.doms.filter fun e => !e.2.waitMsgs.isEmpty).foldl (fun s e => s.pushOnce (.supervisorMessage e.1)) s

/-- GTID of a firing (R311). -/
def firingGtid (g a n : Nat) : Word := BitVec.ofNat 64 (g * 2 ^ 48 + a % 2 ^ 17 * 2 ^ 31 + n % 2 ^ 30)

/-- A firing begins in its home context, its estimate debited: an acquire at the level scope (R313, R317, R344, R359). -/
def beginFiring (s : State) (g a : Nat) (d : Dom) (w : Actor) : State :=
  let msg := match w.again with
    | some (_, m, _) => m
    | none => if a = d.super then inboxMsg s d g else none
  let gtid := match w.again with | some (t, _, _) => t | none => firingGtid g a w.fired
  let s := if w.again.isNone ∧ msg.isSome then
      smsgsFreed ((s.updCore w.core fun c => { c with smsgs := c.smsgs.eraseP fun m => m.1 == g }).pushOnce (.supervisorMessage g))
    else s
  let b := w.block.map fun b => Tbl.read d.blocks b {}
  let t := match b with | some b => b.t | none => 0
  let step := match b with | some b => b.d | none => 0
  let as := [w.wid, match w.block with | some b => BitVec.ofNat 64 b | none => BitVec.allOnes 64, t.setWidth 64,
    BitVec.ofNat 64 step, zext 32 gtid, w.args.getD 0 0, w.args.getD 1 0, w.args.getD 2 0]
  let os := match msg with
    | some m => [m.d0, m.d1, m.d2, m.d3, 0, 0, 0, 0]
    | none => List.replicate 8 0
  let work : Work := { dom := g, actor := some a, gtid := gtid, msg := msg, t := t, d := step, start := s.time }
  let s := s.updCtx w.core w.ctx fun k => entryCtx k work w.entry as os (entryHandles s d w) (runClass d)
  let s := s.updDom g fun d =>
    { stir d with
      actors := Tbl.put d.actors a { w with running := true, again := none, begun := w.begun || msg.isNone, fired := if w.again.isSome then w.fired else w.fired + 1 }
      lvArmed := d.lvArmed || a != d.super }
  let s := dropFetch (if d.scope = .sys then dropCachedPeers s w.core else s) w.core
  if runClass d = 0 then s.pushOnce (.p0Request w.core) else s

/-- FIRING_DISPATCH (R312, R344): a runnable firing begins, when the reservoir admits it. -/
def runFiringDispatch (g a : Nat) (s : State) : State :=
  match s.dom? g with
  | none => s
  | some d =>
    if ¬ runnable s g a then domCheck s g else
    let w := Tbl.read d.actors a {}
    match drawEstimate s d w.est with
    | none => s
    | some s => beginFiring s g a d w
def execFiringDispatch (dom actor : Nat) (s : State) : Out := took (runFiringDispatch dom actor s)

/-! The end of a firing or task (R112, R115, R327). -/

/-- What a context keeps once its firing or task has ended: its globals and its CSRs. -/
def leaveFiring (k : Ctx) : Ctx :=
  let ptr := match k.work with | some w => w.ptr0 | none => 0
  { k with
    status := .idle, work := none, pc := 0, regs := k.regs.filter fun r => r.1 < 8, frames := [], depth := 0, replies := []
    guards := [], compacted := [], handles := [], loop := none, back := [], xwait := none, wp := [], lvstep := none, park := none, parkPage := none, pend := none, later := []
    oneDefault := false, arrival := none, departed := false, joinLine := none, waited := 0, dhalt := false, haltReq := false
    stepping := false, first := false, pass := false, p0halt := false, frozenHalt := false, homeOnly := false, kept := [], sending := false
    wins := setField k.wins 17 0 ptr, estat := setField (setField k.estat 1 1 0) 23 23 0 }

/-- The first number that a table does not list. -/
def freeKey {α : Type} (t : Tbl α) : Nat := ((upFrom 0 (t.length + 1)).find? fun n => (Tbl.find t n).isNone).getD t.length

/-- Saved firings of a die try to resume, and pending launches to be placed: contexts have been released (R339, R366). -/
def contextsFreed (s : State) (d : Nat) : State :=
  let s := (Tbl.keys (s.die d).slots).foldl (fun s i => s.pushOnce (.contextResume d i)) s
  if s.pendingLaunch.isEmpty then s else s.pushOnce .launchRetry

/-- A context left by its firing: idle at home, or, away from home, an idle actor that waits in a save slot for its home context
(R366). -/
def vacate (s : State) (c x : Nat) (k : Ctx) : State :=
  match k.away with
  | none => s.setCtx c x k
  | some h =>
    let d := dieOf c
    let s := s.setCtx c x {}
    let i := freeKey (s.die d).slots
    contextsFreed (s.updDie d fun t => { t with slots := Tbl.put t.slots i ⟨{ k with away := none }, h.1, h.2⟩ }) d

/-- Operations of an ended firing that stay listed as failed leave the table (R377). -/
def dropFailed (s : State) (c n : Nat) : State :=
  s.updCore c fun k => { k with ops := k.ops.filter fun o => !(o.ctx == n && o.status != 0) }

/-- What is still on its way of an ended firing's operations belongs to no context any more. -/
def orphanOps (s : State) (c n : Nat) : State :=
  s.updCore c fun k => { k with ops := k.ops.map fun o => if o.ctx = n then { o with ctx := orphan } else o }

/-- A binding that RBIND made ends with the firing (R109). -/
def unbindOwn (s : State) (k : Ctx) : State :=
  k.handles.foldl (fun s h => match h.2.bind with
    | some b => if b.own then unbindRing s b else s
    | none => s) s

/-- One item of a launch ended (R346): 0 completed, 1 failed, 2 aborted. -/
def itemEnds (s : State) (g : Nat) (i : Item) : State :=
  s.updDom g fun d => if i.state = 0 then { d with ndone := d.ndone + 1 } else { d with items := d.items ++ [i] }

/-- The actor of an ended firing: it may fire again unless it is over. -/
def actorIdle (s : State) (g a : Nat) (ended : Bool) : State :=
  s.updDom g fun d => match Tbl.find d.actors a with
    | some w => { d with actors := Tbl.put d.actors a { w with running := false, ended := w.ended || ended } }
    | none => d

/-- What follows the end of a firing or task of a domain: other firings that it made runnable, the nadir, quiescence. -/
def afterEnd (s : State) (g : Nat) : State :=
  let s := domCheck (wakeActors s g) g
  if (s.dom g).blocks.isEmpty then s else s.pushOnce (.nadirRefresh g)

end Sys2Proof.Machine
end

