-- ==== Sys2Proof/Machine/Branch.lean ====
section
/-!
DEFINITION. Branches, jumps, calls and LOOP (R287-R294), with the register window and its spill area (R113-R116) and the
in-core traps that a transfer takes (R354).
-/
set_option linter.all false
namespace Sys2Proof.Machine
open Sys2Proof

/-! Targets (R8, R12, R287). -/

/-- A target offset checked: ALIGN, then LADDR outside local memory. -/
def checkTarget (t : Int) : Except Stop Nat :=
  let ea := BitVec.ofInt 64 t
  if t % 4 ≠ 0 then .error (stopAt .align ea)
  else if t < 0 ∨ t > 0x2FFFC then .error (stopAt .laddr ea) else .ok t.toNat

/-- PC + 4 times the offset. -/
def relTarget {n : Nat} (pc : Nat) (o : BitVec n) : Except Stop Nat := checkTarget (pc + 4 * o.toInt)

/-- A target in a register: a plain offset or a local-form address. -/
def regTarget (v : Word) : Except Stop Nat :=
  if field v 63 18 = 0 ∨ (field v 63 62 = 3 ∧ field v 61 18 = 0) then
    match checkTarget (field v 17 0) with
    | .ok t => .ok t
    | .error p => .error { p with eaddr := v }
  else .error (stopAt .laddr v)

/-- A transfer to a checked target. -/
def transfer (t : Except Stop Nat) (s : State) : Res :=
  match t with
  | .ok t => .goto s t
  | .error p => .fault p s

/-! The window (R113-R115). -/

/-- The current a-set and l-set, registers 8 to 23. -/
def frameOf (k : Ctx) : List Word := (upFrom 8 16).map fun r => Tbl.read k.regs r 0

/-- Registers written from a number up; replies marked on the a-set and l-set end with the frame. DEDUCED: log 15. -/
def setRegs (k : Ctx) (r : Nat) (vs : List Word) : Ctx :=
  match vs with
  | [] => k
  | v :: vs => setRegs { k with regs := Tbl.put k.regs r v, replies := k.replies.filter (· != r) } (r + 1) vs

/-- The window after a call: the new a-set is the o-set, the new l-set is zero but l7 (R113). -/
def pushFrame (k : Ctx) (ret : Nat) : Ctx :=
  let o := (upFrom 24 8).map fun r => Tbl.read k.regs r 0
  setRegs { k with frames := frameOf k :: k.frames, depth := k.depth + 1 } 8
    (o ++ List.replicate 7 0 ++ [BitVec.ofNat 64 ret])

/-- The window after a return to a frame (R113). -/
def popFrame (k : Ctx) (frame : List Word) (rest : List (List Word)) : Ctx :=
  setRegs { k with frames := rest, depth := k.depth - 1 } 8 frame

/-- PTR and END of WINS (R116). -/
def winsPtr (k : Ctx) : Nat := field k.wins 17 0
def winsEnd (k : Ctx) : Nat := field k.wins 35 18
def setPtr (k : Ctx) (p : Nat) : Ctx := { k with wins := setField k.wins 17 0 p }

/-- Whether 128 bytes from an offset lie in the banks and outside every stash window (R115). -/
def spillRange (s : State) (c off : Nat) : Bool :=
  off + 128 ≤ bankEnd && !(s.core c).windows.any fun w => w.off < off + 128 && off < w.off + w.len

/-- A transfer waits for the context's earlier stores and engine commands to the record's bytes: a FILL reads what the program wrote there,
and a SPILL comes after it (R114, R162). -/
def recordBusy (s : State) (off : Nat) : Bool :=
  let (c, x) := s.cur
  let b := bankCore s c x
  let ops := opsOf s c x
  coveredBy s c x ops (localAddr off) 128 || ops.any fun o => isStore o && o.status == 0 && o.done.isNone &&
    match o.target with
    | some t => overlaps t.place 8 (.loc b off) 128
    | none => false

/-- Enter the handler after a SPILL or FILL transfer, when WINS.NOTE and TVEC ask for it (R114, R354). -/
def noteHandler (cause : Cause) (rec : Nat) (tgt : Nat) (s : State) : Res :=
  if field s.k.wins 36 36 = 1 ∧ handlerReady s.k then
    let s := enterHandler s s.cur.1 s.cur.2 cause tgt (BitVec.ofNat 64 rec)
    .goto s s.k.pc
  else .goto s tgt

/-- A call to a checked target, with its SPILL when a fourth frame would be resident (R113-R115, R290). -/
def callTo (t : Except Stop Nat) (s : State) : Res :=
  match t with
  | .error p => .fault p s
  | .ok tgt =>
    let k := s.k
    let c := bankCore s s.cur.1 s.cur.2
    if k.frames.length < 3 then .goto (s.updK fun k => pushFrame k (k.pc + 4)) tgt
    else
      let rec' := winsPtr k
      if rec' + 128 > winsEnd k then .fault (stopAt .limit (localAddr rec')) s
      else if ¬ spillRange s c rec' then .fault (stopAt .laddr (localAddr rec')) s
      else if recordBusy s rec' then .wait s
      else
        match bankWrite s c rec' ((k.frames.getLastD []).flatMap wordLE) with
        | .wait s => .wait s
        | .bad p s => .fault p s
        | .ok _ s =>
          let s := s.updK fun k =>
            pushFrame (setPtr { k with frames := k.frames.dropLast } (rec' + 128)) (k.pc + 4)
          noteHandler .spill rec' tgt s

/-- RET: the caller's frame back, with its FILL when that is not resident (R113-R115, R290). -/
def retFrom (s : State) : Res :=
  let k := s.k
  let c := bankCore s s.cur.1 s.cur.2
  match regTarget (rd k 23) with
  | .error p => .fault p s
  | .ok tgt =>
    match k.frames with
    | f :: fs => .goto (s.updK fun k => popFrame k f fs) tgt
    | [] =>
      let ptr := winsPtr k
      if ptr < 128 ∨ ¬ spillRange s c (ptr - 128) then .fault (stopAt .laddr (localAddr (ptr - 128))) s
      else if recordBusy s (ptr - 128) then .wait s
      else
        match bankRead s c (ptr - 128) 128 with
        | .wait s => .wait s
        | .bad p s => .fault p s
        | .ok bs s =>
          let frame := (upFrom 0 16).map fun i => leWord ((bs.drop (8 * i)).take 8)
          noteHandler .fill (ptr - 128) tgt (s.updK fun k => setPtr (popFrame k frame []) (ptr - 128))

/-- Calls and returns wait for replies into the sets they save and restore. DEDUCED: log 15. -/
def windowed (srcs : List Reg) (body : State → Res) (s : State) : State :=
  issue 4 none srcs (fun s => if busyWindow (opsOf s s.cur.1 s.cur.2) then .wait s else body s) s

/-! Branches. -/

/-- The conditions of BZ (R288). -/
def bzTaken (c : Cond) (v : Word) : Bool :=
  match c with
  | .eq0 => v == 0
  | .ne0 => v != 0
  | .lt0 => v.slt 0
  | .ge0 => !v.slt 0
  | .gt0 => !v.slt 0 && v != 0
  | .le0 => v.slt 0 || v == 0
  | .b0c => !v.getLsbD 0
  | .b0s => v.getLsbD 0

/-- What a conditional branch leaves beside its transfer: a wrong direction counted (R291, R380), its direction in the replay digest
(R385). -/
def noteBranch (s : State) (taken wrong : Bool) : State :=
  let (c, x) := s.cur
  digest (if wrong then countEv s c x 0x0C 1 else s) (domOf s.k) (homeKey s c x) (if taken then 1 else 0)

/-- BZ (R288): a branch that is not taken never checks its target (R287). H only predicts (R291). -/
def execBz (o : BitVec 15) (h : Bool) (c : Cond) (a : Reg) (s : State) : Out :=
  took (issue 4 none [a] (fun s =>
    let taken := bzTaken c (rd s.k a)
    let t := noteBranch s taken (taken != h)
    if taken then
      match relTarget s.k.pc o with
      | .ok p => .goto t p
      | .error p => .fault p s
    else .ret t) s)

/-- BG (R289): it waits while the guard is unresolved, and reading a COMPACT's guard is an acquire (R129). -/
def execBg (o : BitVec 15) (h n : Bool) (q : QIx) (s : State) : Out :=
  took (issue 4 none [] (fun s =>
    match guardOf s.k q with
    | none => .wait (s.updK fun k => { k with guardWait := true })
    | some g =>
      let taken := g != n
      let t := noteBranch (s.updK fun k => observe k [q]) taken (taken != h && !s.k.guardWait)
      if taken then
        match relTarget s.k.pc o with
        | .ok p => .goto t p
        | .error p => .fault p s
      else .ret t) s)

/-- J (R290). -/
def execJ (o : BitVec 24) (s : State) : Out := took (issue 4 none [] (fun s => transfer (relTarget s.k.pc o) s) s)
/-- JR (R290). -/
def execJr (a : Reg) (s : State) : Out := took (issue 4 none [a] (fun s => transfer (regTarget (rd s.k a)) s) s)
/-- CALL (R290). -/
def execCall (o : BitVec 24) (s : State) : Out := took (windowed [] (fun s => callTo (relTarget s.k.pc o) s) s)
/-- CALLR (R290): the target is read before the frame is saved. -/
def execCallr (a : Reg) (s : State) : Out := took (windowed [a] (fun s => callTo (regTarget (rd s.k a)) s) s)
/-- RET (R290): ILL at depth 0 (R113); it returns through l7 (log 14). -/
def execRet (s : State) : Out :=
  took (windowed [23] (fun s => if s.k.depth = 0 then illegal .ill (word0 .ret) s else retFrom s) s)

/-! LOOP (R292-R294). -/

/-- What a delay slot must not hold (R293). -/
def slotForbidden (i : Instr) : Bool :=
  match i with
  | .bz .. | .bg .. | .j _ | .loop .. | .call _ | .jr _ | .callr _ | .ret | .fend | .tend | .trap _ | .svc .. | .hret
  | .brk _ => true
  | _ => false

/-- Whether the instruction at an offset may stand in a slot, and where the next one is. A slot whose words cannot be fetched
reports its own fault when it is reached. DEDUCED: log 23. -/
def slotOk (s : State) (c b a : Nat) : Bool × Nat :=
  match fetchInstr s c b a with
  | .error _ => (true, a + 4)
  | .ok (ws, _) =>
    match decode ws with
    | .error _ => (false, a + 4)
    | .ok i => (!slotForbidden i, a + 4 * ws.length)

/-- LOOP (R292): the target first, then both slots, then A - 1. -/
def execLoop (o : BitVec 15) (a : Reg) (s : State) : Out :=
  took (issue 4 (some a) [a] (fun s =>
    match relTarget s.k.pc o with
    | .error p => .fault p s
    | .ok tgt =>
      let b := bankCore s s.cur.1 s.cur.2
      let one := slotOk s s.cur.1 b (s.k.pc + 4)
      let two := slotOk s s.cur.1 b one.2
      if ¬ one.1 ∨ ¬ two.1 then illegal .ill (word0 (.loop o a)) s
      else
        let v := rd s.k a - 1
        .ret (((noteBranch s (v != 0) false).wrK a v).updK fun k => { k with loop := some ⟨0, v != 0, tgt⟩ })) s)

end Sys2Proof.Machine
end

