-- ==== Sys2Proof/Machine/System.lean ====
section
/-!
DEFINITION. The SYS functions: traps and breaks (R354-R356), messages of SVC (R360), the event count (R295-R297), SYNCI
(R71), FENCE (R213), barriers (R298, R299) and HALT (R371).
-/
set_option linter.all false
namespace Sys2Proof.Machine
open Sys2Proof

/-- NOP (R355). -/
def execNop (s : State) : Out := took (issue 4 none [] (fun s => .ret s) s)

/-- An in-core trap of an instruction that retires, or its park when no handler can run (R354). -/
def trapTo (cause : Cause) (n : Nat) (s : State) : Res :=
  if handlerReady s.k then
    let s := finish 4 none (.ret s)
    .raw (enterHandler s s.cur.1 s.cur.2 cause s.k.pc (BitVec.ofNat 64 n))
  else .fault (stopWhy cause n) s

/-- TRAP (R355). -/
def execTrap (n : BitVec 5) (s : State) : Out := took (issue 4 none [] (trapTo .trap n.toNat) s)

/-- Whether a stop entry watches a GTID (R378). -/
def watches (e : StopEntry) (gtid : Word) : Bool :=
  e.w2.getLsbD 31 && (gtid ^^^ e.gtid) &&& e.gmask == 0
def watched (s : State) (gtid : Word) : Bool := s.stops.any fun e => watches e.2 gtid

/-- BRK (R355): a watched firing halts to the debugger instead of trapping. DEDUCED that it retires: log 27. -/
def execBrk (n : BitVec 5) (s : State) : Out :=
  took (issue 4 none [] (fun s =>
    if watched s (gtidOf s.k) then
      .raw ((finish 4 none (.ret (s.updK fun k => { k with einfo := BitVec.ofNat 64 n.toNat }))).updK fun k => { k with dhalt := true })
    else trapTo .brk n.toNat s) s)

/-- HRET (R356): ILL outside a handler. -/
def execHret (s : State) : Out :=
  took (issue 4 none [] (fun s =>
    if field s.k.estat 0 0 = 0 then illegal .ill (word0 .hret) s
    else
      let t := finish 4 none (.ret s)
      .raw (leaveHandler t t.cur.1 t.cur.2)) s)

/-- Whether no debugger watches anything: HALT then tells the host. DESIGN CHOICE: log 27. -/
def noDebugger (s : State) : Bool := !s.stops.any fun e => e.2.w2.getLsbD 31

/-- HALT (R371): the context stops for the debugger after it retires. -/
def execHalt (s : State) : Out :=
  took (privileged .halt none [] (fun s =>
    let (c, x) := s.cur
    let pc := s.k.pc
    let g := domOf s.k
    let m : SMsg := ⟨smsgHead c x pc 1 0, gtidOf s.k, 0, 0⟩
    let t := (finish 4 none (.ret s)).updK fun k => { k with dhalt := true }
    .raw (if noDebugger s then notify t 5 g 0 (some m) else t)) s)

/-! The event count. -/

/-- EVWAIT (R296): the count taken, or a wait while it is zero. -/
def execEvwait (d : Reg) (s : State) : Out :=
  took (issue 4 (some d) [] (fun s =>
    let n := s.k.events
    if n = 0 then .wait s
    else .ret ((s.updK fun k => { k with events := 0 }).wrK d (BitVec.ofNat 64 n))) s)

/-- Whether a context is one of a domain's. -/
def inDom (k : Ctx) (g : Nat) : Bool := match k.home with | some h => h.1 == g | none => false

/-- The contexts of the package that a domain's actors hold and whose home a core is, wherever they run (R366). -/
def homedAt (s : State) (g c : Nat) : List (Nat × Nat) :=
  (s.cores.flatMap fun e => e.2.ctxs.map fun k => (e.1, k.1)).eraseDups.filter fun p =>
    inDom (s.ctx p.1 p.2) g && ((s.ctx p.1 p.2).away.map (·.1)).getD p.1 == c

/-- One event for every context of a domain on a core, saved ones included (R297). DEDUCED (log 38): a firing that runs away from home counts
at its home core. -/
def postEvents (s : State) (g c : Nat) : State :=
  let s := (homedAt s g c).foldl (fun s p => bump s p.1 p.2) s
  s.updDie (dieOf c) fun d => { d with slots := d.slots.map fun e =>
    (e.1, if e.2.homeCore = c ∧ inDom e.2.ctx g = true then
      { e.2 with ctx := { e.2.ctx with events := min 255 (e.2.ctx.events + 1) } } else e.2) }

/-- A core-space fabric address of a peer's core. -/
def peerCore (x y : Nat) : Nat := coreFaddr x y 0

/-- A message for a peer's core (R247): subcode 0 EVPOST, 1 LVSEND, 2 SVC, with the GTB. DESIGN CHOICE: log 25. -/
def sendMsg (s : State) (p f sub gtb : Nat) (bytes : List Byte) : State :=
  request s 0x06 0x83 p f bytes.length (4 + 16 * sub) 0 0 bytes s.cur.1 (msgId s.cur.2) none (gtbInfo gtb)

/-- EVPOST (R297). -/
def execEvpost (a : Reg) (s : State) : Out :=
  took (issue 4 none [a] (fun s =>
    let ea := rd s.k a
    match coreNamed s ea with
    | none => .fault (stopAt .laddr ea) s
    | some (p, x, y) =>
      if p = 0 then
        if s.coreExists x y then .ret (postEvents s (domOf s.k) (y * 128 + x)) else .fault (stopAt .laddr ea) s
      else if p ≥ 0xF00 then .fault (stopAt .laddr ea) s
      else
        match unreachable s with
        | some n => .fault (nackStop ea n) s
        | none => .ret (sendMsg s p (peerCore x y) 0 (domOf s.k) [])) s)

/-! SYNCI and FENCE. -/

/-- SYNCI (R71). -/
def execSynci (s : State) : Out :=
  took (issue 4 none [] (fun s =>
    let (c, x) := s.cur
    let own := fun (o : Op) => o.status == 0 && isStore o && match o.target with
      | some t => (placeKey t.place).1 == 3 * bankCore s c x
      | none => false
    if (opsOf s c x).any own then .wait s
    else
      let t := finish 4 none (.ret s)
      .raw (dropFetch t c)) s)

/-- FENCE (R213): the release part waits until everything earlier is performed at the scope, the acquire part until every
earlier load has bound. -/
def execFence (scope : Scope) (rel acq : Bool) (s : State) : Out :=
  took (issue 4 none [] (fun s =>
    let (c, x) := s.cur
    if acq ∧ (opsOf s c x).any (fun o => live o && (isLoad o || isAmo o)) then .wait s
    else
      let (ok, s) := if rel then releaseAt s c x scope s.nextId else (true, s)
      if ¬ ok then .wait s
      else .ret (if acq then acquireAt s c x scope else s)) s)

/-! Questions to other packages of a domain. -/

/-- A question: the package, the fabric address and the bytes of its MSG packet. -/
abbrev Ask := Nat × Nat × List Byte

/-- A question that has been sent under a name. -/
def askedBy (core id sub : Nat) (q : Ask) (r : Sent) : Bool :=
  r.core == core && r.op == id && r.pkt.op == 6 && r.pkt.flg / 16 == sub && r.pkt.dst == q.1 && r.pkt.payload == q.2.2
def dropAsked (s : State) (core id sub : Nat) (qs : List Ask) : State :=
  { s with sent := s.sent.filter fun r => !qs.any fun q => askedBy core id sub q r }

/-- Questions of one subcode that are sent and waited for: their answers in order, or the first refusal. The answers stand until `dropAsked`
takes them. DESIGN CHOICE: log 25. -/
def askAll (s : State) (core id sub g : Nat) (qs : List Ask) : Got (List (List Byte)) :=
  let sent := fun (q : Ask) => s.sent.find? (askedBy core id sub q)
  let fresh := qs.filter fun q => (sent q).isNone
  if ¬ fresh.isEmpty then
    .wait (fresh.foldl (fun s q => request s 0x06 0x80 q.1 q.2.1 q.2.2.length (4 + 16 * sub) 0 0 q.2.2 core id none (gtbInfo g)) s)
  else match qs.findSome? fun q => (sent q).bind (·.nack) with
    | some e => .bad (nackStop 0 e) (dropAsked s core id sub qs)
    | none =>
      let got := qs.filterMap fun q => (sent q).bind (·.got)
      if got.length < qs.length then .wait s else .ok got s

/-! Barriers (R298, R299). -/

/-- The scope instance of a core. -/
def instanceOf (sc : Scope) (c : Nat) : Nat :=
  match sc with
  | .core => c
  | .cl => clusterOf c
  | .die => dieOf c
  | .pkg | .sys => 0

/-- The package that counts a barrier's arrivals: the first of its launch at system scope. DESIGN CHOICE: log 25. -/
def barrierHome (s : State) (g : Nat) (sc : Scope) : Nat := if sc = .sys then (s.dom g).pkgs.headD s.pkid else s.pkid

/-- Two barriers of one name (R298). -/
def sameBarrier (a b : Barrier) : Bool := a.dom == b.dom && a.scope == b.scope && a.inst == b.inst && a.num == b.num

/-- Whether an arrival's count differs from that of the episode under way. -/
def countDiffers (s : State) (k : Barrier) : Bool :=
  match s.barriers.find? (sameBarrier k) with
  | some b => b.count != k.count
  | none => false

/-- A barrier's message to a hub: subcode 6 an arrival, 7 a departure, 8 an arrival withdrawn. -/
def barrierMsg (s : State) (p sub g : Nat) (bytes : List Byte) : State :=
  request s 0x06 0x83 p (coreFaddr 0 0 0) bytes.length (4 + 16 * sub) 0 0 bytes 0 (2 ^ 42) none (gtbInfo g)

/-- An arrival counted, `far` where it is another package's: the episode, whose contexts depart with its last arrival. -/
def countArrival (s : State) (k : Barrier) (far : List (Nat × Nat)) : Nat × State :=
  let (b, s) := match s.barriers.find? (sameBarrier k) with
    | some b => (b, s)
    | none => let (id, s) := s.fresh; ({ k with id := id }, s)
  let b := { b with arrived := b.arrived + 1, far := b.far ++ far }
  let rest := s.barriers.filter fun q => !sameBarrier k q
  (b.id, if b.arrived ≥ b.count then
      b.far.foldl (fun s f => barrierMsg s f.1 7 b.dom (natLE 8 f.2)) ({ s with barriers := rest }.push (.barrierDepart b.id))
    else { s with barriers := rest ++ [b] })

/-- An arrival taken back: the episode's own, or one of another package (R299). -/
def withdrawArrival (s : State) (mine : Barrier → Bool) (f : Barrier → Barrier) : State :=
  let less := s.barriers.map fun b => if mine b then f { b with arrived := b.arrived - 1 } else b
  { s with barriers := less.filter fun b => b.arrived != 0 }

/-- The bytes of an arrival: number, count and the sender's name for it. -/
def arrivalBytes (num n id : Nat) : List Byte := natLE 1 num ++ natLE 2 n ++ natLE 8 id

/-- What has become of an arrival that was sent to another package: counted, or refused for its count. -/
def arrivalAnswer (s : State) : Got Unit :=
  let (c, x) := s.cur
  match s.sent.find? fun r => r.core == c && r.op == msgId x && r.pkt.op == 6 && r.pkt.flg / 16 == 6 with
  | none => .ok () s
  | some r =>
    match r.got, r.nack with
    | some b, _ => if rf b 0 1 = 0 then .ok () (dropSent s r.tag) else .bad (stopWhy .shape 0x91) (dropSent s r.tag)
    | none, some e => .bad (nackStop 0 e) (dropSent s r.tag)
    | none, none => .wait s

/-- BAR (R298): an arrival, then a wait for the departure. -/
def execBar (scope : Scope) (a : Reg) (s : State) : Out :=
  took (issue 4 none [a] (fun s =>
    let (c, x) := s.cur
    match s.k.arrival with
    | some _ =>
      let leave := fun (s : State) => s.updK fun k => { k with arrival := none, departed := false }
      match arrivalAnswer s with
      | .wait s => .wait s
      | .bad p s => .fault p (leave s)
      | .ok _ s => if s.k.departed then .ret (acquireAt (leave s) c x scope) else .wait s
    | none =>
      let v := rd s.k a
      let n := field v 31 16
      if field v 15 8 ≠ 0 ∨ field v 63 32 ≠ 0 ∨ n = 0 then .fault (stopWhy .shape 0x90) s
      else
        let g := domOf s.k
        let b : Barrier := { id := 0, dom := g, inst := instanceOf scope c, scope := scope, num := field v 7 0, count := n }
        if countDiffers s b then .fault (stopWhy .shape 0x91) s
        else
          let (ok, s) := releaseAt s c x scope s.nextId
          if ¬ ok then .wait s
          else
            let arrived := fun (id : Nat) (s : State) => s.updK fun k => { k with arrival := some id, departed := false }
            let home := barrierHome s g scope
            if home = s.pkid then
              let (id, s) := countArrival s b []
              waitOn (arrived id s)
            else
              let (id, s) := s.fresh
              let bs := arrivalBytes (field v 7 0) n id
              waitOn (request (arrived id s) 0x06 0x80 home (coreFaddr 0 0 0) bs.length (4 + 16 * 6) 0 0 bs c (msgId x) none (gtbInfo g))) s)

/-- BARRIER_DEPART (R298): every waiting context of the episode may go on. -/
def runBarrierDepart (id : Nat) (s : State) : State :=
  let go := fun (k : Ctx) => if k.arrival = some id then { k with departed := true } else k
  { s with
    cores := s.cores.map fun e => (e.1, { e.2 with ctxs := e.2.ctxs.map fun f => (f.1, go f.2) })
    dies := s.dies.map fun e => (e.1, { e.2 with slots := e.2.slots.map fun f => (f.1, { f.2 with ctx := go f.2.ctx }) }) }
def execBarrierDepart (id : Nat) (s : State) : Out := took (runBarrierDepart id s)

/-! SVC (R360). -/

/-- A message sent to a peer's core and its reply: sent and waited for; true once it was accepted, a NACK's EINFO where it was
refused. -/
def peerMsg (s : State) (p f sub g : Nat) (bytes : List Byte) : Got Unit :=
  let (c, x) := s.cur
  match s.sent.find? fun r => r.core == c && r.op == msgId x && r.pkt.op == 6 && r.pkt.flg / 16 == sub with
  | some r =>
    match r.got, r.nack with
    | some _, _ => .ok () (dropSent s r.tag)
    | none, some e => .bad (if e = 4 then stopWhy .laddr 0xA3 else nackStop 0 e) (dropSent s r.tag)
    | none, none => .wait s
  | none => .wait (sendMsg s p f sub g bytes)

/-- A supervisor's command as it stands in a message (R360, R361): the move that applies it at the core, or the report of a
malformed one or of one that names no firing of the domain. -/
def applyCommand (s : State) (g c : Nat) (m : SMsg) : State :=
  let op := field m.d0 7 0
  if field m.d0 63 8 ≠ 0 ∨ m.d3 ≠ 0 ∨ op = 0 ∨ op > 4 ∨ (op ≠ 2 ∧ m.d2 ≠ 0) then
    toSuper s g ⟨smsgHead c 0 0 4 1, m.d1, m.d0, 0⟩
  else if field m.d1 63 48 ≠ g then toSuper s g ⟨smsgHead c 0 0 4 0, m.d1, m.d0, 0⟩
  else
    s.push (match op with
      | 1 => .resume c m.d1
      | 2 => .resumeValue c m.d1 m.d2
      | 3 => .restart c m.d1
      | _ => .abort c m.d1)

/-- Whether a core holds a context of a domain. -/
def holdsDom (s : State) (g c : Nat) : Bool :=
  (s.core c).ctxs.any fun e => inDom e.2 g

/-- SVC (R360): captured after the context's earlier stores, with a release; a user's message goes to its supervisor, a
supervisor's is a command for the core it names. -/
def execSvc (b a : Reg) (s : State) : Out :=
  took (issue 4 none [b, a] (fun s =>
    let (c, x) := s.cur
    let ea := rd s.k a
    let dst := rd s.k b
    match localSpan s ea 32 with
    | .error p => .fault p s
    | .ok off =>
      match coreNamed s dst with
      | none => .fault (stopAt .laddr dst) s
      | some (p, cx, cy) =>
        if p ≥ 0xF00 ∨ (p = 0 ∧ ¬ s.coreExists cx cy) then .fault (stopAt .laddr dst) s
        else
          let sup := isSuper s s.k
          let g := domOf s.k
          let tgt := cy * 128 + cx
          if ¬ sup ∧ field s.k.supv 24 0 ≠ tgt + p * 8192 then .fault { stopWhy .laddr 0xB0 with eaddr := dst } s
          else if ¬ sup ∧ p = 0 ∧ (s.dom g).waitMsgs.length ≥ 256 then .wait s
          else if sup ∧ p = 0 ∧ ¬ holdsDom s g tgt then .fault { stopWhy .laddr 0xA3 with eaddr := dst } s
          else
            let go := fun (s : State) (bs : List Byte) =>
              match peerMsg s p (peerCore cx cy) (if sup then 3 else 2) g bs with
              | .ok _ s => Res.ret s
              | .wait s => waitOn s
              | .bad q s => .fault { q with eaddr := dst } s
            -- a message that is on its way is waited for
            if p ≠ 0 ∧ s.sent.any (fun r => r.core == c && r.op == msgId x && (r.pkt.flg / 16 == 2 || r.pkt.flg / 16 == 3)) then go s []
            else
            match (if p = 0 then none else unreachable s) with
            | some n => .fault (nackStop dst n) s
            | none =>
              let (ok, s) := releaseAt s c x (if p = 0 then .pkg else .sys) s.nextId
              if ¬ ok then .wait s
              else
                let bs := localBytes s off 32
                let w := fun i => leWord ((bs.drop (8 * i)).take 8)
                if p ≠ 0 then
                  go s (if sup then bs else wordLE (smsgHead c x s.k.pc 3 0) ++ wordLE (gtidOf s.k) ++ bs.drop 16)
                else if sup then .ret (applyCommand s g tgt ⟨w 0, w 1, w 2, w 3⟩)
                else .ret (toSuper s g ⟨smsgHead c x s.k.pc 3 0, gtidOf s.k, w 2, w 3⟩)) s)

end Sys2Proof.Machine
end

