-- ==== Sys2Proof/Machine/Levels.lean ====
section
/-!
DEFINITION. FEND and its commit (R111, R323, R327), the level instructions (R328-R330), LVSEND and LVRECV with the inbox
(R324, R331, R332), and supervisor messages on their way (R359).
-/
set_option linter.all false
namespace Sys2Proof.Machine
open Sys2Proof

/-! FEND (R327). -/

/-- The bindings of a context that have a pending advance. -/
def advances (k : Ctx) : List Binding :=
  k.handles.filterMap fun h => match h.2.bind with
    | some b => if b.pending = 0 then none else some b
    | none => none

/-- The level that a firing's commit gives its block: 0 without a block. -/
def targetLevel (w : Work) : BitVec 32 := w.t + BitVec.ofNat 32 w.d

/-- The block of an actor's firing, with its number. -/
def ownBlock (s : State) (w : Work) : Option (Nat × Block) :=
  match w.actor with
  | none => none
  | some a => match (Tbl.read (s.dom w.dom).actors a {}).block with
    | some b => some (b, Tbl.read (s.dom w.dom).blocks b {})
    | none => none

/-- Comparison of two steps: <, = or >. -/
def stepOrd (m n : Nat) : Nat := if m < n then 0 else if m = n then 1 else 2

/-- Whether an S = 1 edge of the table would change its comparison (R323). -/
def edgeChanges (d : Dom) (j : Nat) (b : Block) (was new : Nat) : Bool :=
  (b.edges.any fun e => e.s && stepOrd new e.step != stepOrd was e.step)
    || d.blocks.any fun k => k.2.edges.any fun e => e.s && e.j == j && stepOrd k.2.d new != stepOrd k.2.d e.step

/-- R323: the reason of a STEPALIGN at FEND. -/
def stepFault (d : Dom) (j : Nat) (b : Block) (w : Work) (new : Nat) : Option Nat :=
  if new = 0 then none
  else if (targetLevel w).toNat % new ≠ 0 then some 2
  else if d.nested ∧ (¬ isPow2 new ∨ edgeChanges d j b w.d new = true) then some 3
  else none

/-- The stamp writes of a firing's slots to be published (R111). -/
def stampWrites (s : State) (k : Ctx) (level : BitVec 32) : List (Word × List Byte) :=
  (advances k).flatMap fun b =>
    match ringOf s b with
    | some r => if b.producer && r.stamp then
        (upFrom r.pidx b.pending).map fun i =>
          (r.base + BitVec.ofNat 64 (r.count * r.slot + 8 * (i % r.count)), natLE 8 level.toNat)
      else []
    | none => []

/-- The widest of a scope and the scopes of rings with pending advances. -/
def advScope (s : State) (k : Ctx) (start : Scope) : Scope :=
  (advances k).foldl (fun sc b => match ringOf s b with
    | some r => if scopeNum sc < scopeNum r.scope then r.scope else sc
    | none => sc) start
/-- The scope of FEND's release: the level scope and those of its rings (R327). -/
def fendScope (s : State) (g : Nat) (k : Ctx) : Scope := advScope s k (s.dom g).scope

/-- A ring update for the side of a ring that another package holds: an MSG packet of subcode 5. DESIGN CHOICE: log 25. -/
def tellPeerRing (s : State) (p core cons off n : Nat) (producer : Bool) (g : Nat) : State :=
  request s 0x06 0x83 p (coreFaddr (core % 128) (core / 128 % 64) 0) 16 (4 + 16 * 5) 0 0
    (natLE 4 (cons % 8192) ++ natLE 4 off ++ natLE 4 n ++ natLE 4 (bitN producer)) 0 (2 ^ 42) none (gtbInfo g)

/-- One pending advance committed at its ring unit (R111). A consumer core of another package stands as 8192 times its package
above its number; its ring here holds what this package has been told. -/
def commitRing (s : State) (g : Nat) (level : BitVec 32) (b : Binding) : State :=
  let n := b.pending
  let s := updRing s b.core b.off fun r =>
    if b.producer then
      { r with fillc := r.fillc + n, freec := r.freec - n, pidx := (r.pidx + n) % 2 ^ 32, seenFree := r.seenFree - n,
               stamps := if r.stamp then r.stamps ++ List.replicate n level else r.stamps }
    else
      { r with freec := r.freec + n, fillc := r.fillc - n, cidx := (r.cidx + n) % 2 ^ 32, seenFill := r.seenFill - n,
               stamps := r.stamps.drop n }
  let there := if b.producer then b.core / 8192 else
    match ringOf s b with
    | some r => r.prodCore / 8192
    | none => 0
  if there = 0 ∨ there = s.pkid then s.push (.ringNotification b.core b.off (!b.producer))
  else
    let core := if b.producer then b.core % 8192 else match ringOf s b with | some r => r.prodCore % 8192 | none => 0
    tellPeerRing s there core b.core b.off n b.producer g

/-- The block's part of a commit, with its notifications (R317, R327). -/
def commitBlock (s : State) (g j : Nat) (w : Work) (step : Nat) : State :=
  let b := Tbl.read (s.dom g).blocks j {}
  let d := if step = 0 then b.d else step
  let b := { b with t := targetLevel w, d := d, fin := b.fin || step == 0, x := b.y, y := b.x }
  notifyEdges (s.updDom g fun q => { q with blocks := Tbl.put q.blocks j b }) g j b.t d b.fin

/-- The home core and context of the work in a context. -/
def homeOfCtx (s : State) (c x : Nat) : Nat × Nat :=
  match (s.ctx c x).away with
  | some h => h
  | none => (c, x)

/-- A message that was not accepted is gone. -/
def forgetMsg (s : State) (src x g : Nat) : State :=
  { s with lmsgs := s.lmsgs.filter fun m => !(m.2.src == src && m.2.srcCtx == x && m.2.dom == g) }

/-- A firing or task leaves its context: what it still has on its way belongs to no context, its bindings and its accumulator slot
go (R109, R177). -/
def releaseWork (s : State) (c x : Nat) : State :=
  let k := s.ctx c x
  let s := freeSlot (unbindOwn s k) c x
  let s := orphanOps (dropFailed s c x) c x
  let s := dropReplies (dropReplies s c (msgId x)) c (syncId x)
  let h := homeOfCtx s c x
  if k.sending then forgetMsg s h.1 h.2 (domOf k) else s

/-- The atomic action of FEND and what follows it (R327). -/
def commitFiring (c x : Nat) (w : Work) (s : State) : State :=
  let k := s.ctx c x
  let g := w.dom
  let level := match ownBlock s w with | some _ => targetLevel w | none => 0
  let block := ownBlock s w
  let s := (advances k).foldl (fun s b => commitRing s g level b) s
  let s := match block with
    | some (j, b) => commitBlock s g j w (k.lvstep.getD w.d)
    | none => s
  let s := charge (countEv s c x 2 1) g 0 1
  let est := match w.actor with | some a => (Tbl.read (s.dom g).actors a {}).est | none => 0
  let k := s.ctx c x
  let s := settle (releaseWork s c x) g est
  let s := vacate (dropFetch s c) c x { leaveFiring k with acc := none }
  let s := itemEnds s g ⟨w.gtid, 0, 0, 0, 0, k.pc, c⟩
  let s := match w.actor with | some a => actorIdle s g a false | none => s
  afterEnd s g

/-- Whether everything that FEND waits for has ended. -/
def drained (ops : List Op) : Bool :=
  ops.all fun o => o.status != 0 || o.ended || (match o.body with | .store .. => o.done.isSome | _ => false)

/-- FEND of the context that issues (R327). -/
def fend (s : State) : Res :=
  let (c, x) := s.cur
  match s.k.work with
  | none => .wait s
  | some w =>
    if w.task.isSome then illegal .ill (word0 .fend) s
    else if ¬ drained (opsOf s c x) then .wait s
    else
      let level := match ownBlock s w with | some _ => targetLevel w | none => 0
      let bad := match ownBlock s w with
        | some (j, b) => stepFault (s.dom w.dom) j b w (s.k.lvstep.getD w.d)
        | none => none
      match bad with
      | some n => .fault (stopWhy .stepalign n) s
      | none =>
        match writeBeat s (whoOf s c x) (syncId x) [] false (stampWrites s s.k level) with
        | .wait t => .wait (keepReplies s c (syncId x) t)
        | .bad p t => .fault p t
        | .ok _ t =>
          let t := keepReplies s c (syncId x) t
          if t.awaiting.any fun a => a.core == c && a.op == syncId x then .wait t
          else
            let (ok, t) := releaseAt t c x (fendScope t w.dom t.k) t.nextId
            if ok then .raw (commitFiring c x w t) else .wait t

/-- FEND. -/
def execFend (s : State) : Out :=
  took (issue 4 none [] (fun s =>
    match fend s with
    | .wait t => .wait (t.pushOnce (.fendCommit s.cur.1 s.cur.2))
    | r => r) s)

/-- The instruction at a context's PC. -/
def instrAt (s : State) (c x : Nat) : Option Instr :=
  match fetchInstr s c (bankCore s c x) (s.ctx c x).pc with
  | .ok (ws, _) => match decode ws with
    | .ok i => some i
    | .error _ => none
  | .error _ => none

/-- FEND_COMMIT (R111, R327): the commit of a context that waits at its FEND, once everything that it waits for has ended. -/
def runFendCommit (c x : Nat) (s : State) : State :=
  let k := s.ctx c x
  if k.status ≠ .ready ∨ k.pend.isSome ∨ k.work.isNone ∨ k.dhalt ∨ k.frozenHalt ∨ instrAt s c x ≠ some .fend then s else
  let t := { s with cur := (c, x) }
  match fend t with
  | .raw t => { t with cur := s.cur }
  | .wait t => { t with cur := s.cur }.pushOnce (.fendCommit c x)
  | _ => s
def execFendCommit (core ctx : Nat) (s : State) : Out := took (runFendCommit core ctx s)

/-! LVRD, LVSTEP and LVBIND (R328-R330). -/

/-- Level, step and finished flag as LVRD gives them. -/
def levelWord (t : BitVec 32) (d : Nat) (fin : Bool) : Word := BitVec.ofNat 64 (t.toNat + d % 65536 * 2 ^ 32 + bitN fin * 2 ^ 48)

/-- The package and the core of a block that another package holds. -/
def blockAway (s : State) (g j : Nat) : Option (Nat × Nat) :=
  let d := s.dom g
  let w := Tbl.read d.actors (Tbl.read d.blocks j {}).actor {}
  if isMine s d w then none else some (d.pkgs.getD w.pkg 0, coreFaddr w.x w.y 0)

/-- A question to the hub of every other package of a domain. -/
def askOthers (s : State) (g : Nat) (bytes : List Byte) : List Ask := (otherPkgs s (s.dom g)).map fun p => (p, coreFaddr 0 0 0, bytes)

/-- LVRD (R328). -/
def execLvrd (a d : Reg) (s : State) : Out :=
  took (issue 4 (some d) [a] (fun s =>
    let (c, x) := s.cur
    let v := (rd s.k a).toNat
    let g := domOf s.k
    let own := s.k.work.bind (ownBlock s)
    let scope := (s.dom g).scope
    let give := fun (b : Block) => Res.ret (s.wrK d (levelWord b.t b.d b.fin))
    if v = 2 ^ 64 - 2 then .ret (s.wrK d ((s.dom g).nadir.setWidth 64))
    else if v = 2 ^ 64 - 1 then
      match own with
      | some (_, b) => give b
      | none => .fault (stopWhy .shape 0xA0) s
    else if v ≥ (s.dom g).nblk then .fault (stopWhy .shape 0xA2) s
    else
      let mine := match own with | some (j, _) => j == v | none => false
      let edge := match own with | some (_, b) => b.edges.find? (fun (e : Edge) => e.j == v) | none => none
      let bind := fun (s : State) (w : Word) => Res.ret ((acquireAt s c x scope).wrK d w)
      if mine then (match own with | some (_, b) => give b | none => .wait s)
      else match edge, blockAway s g v with
        | some e, _ => bind s (levelWord e.lvl e.step e.fin)
        | none, none =>
          let b := Tbl.read (s.dom g).blocks v {}
          bind s (levelWord b.t b.d b.fin)
        | none, some (p, f) =>
          let ask : List Ask := [(p, f, natLE 4 v)]
          match askAll s c (msgId x) 9 g ask with
          | .ok bs s => bind (dropAsked s c (msgId x) 9 ask) (leWord (bs.headD []))
          | .wait s => .wait s
          | .bad p s => .fault p s) s)

/-- LVSTEP (R329). -/
def execLvstep (a : Reg) (s : State) : Out :=
  took (issue 4 none [a] (fun s =>
    let v := (rd s.k a).toNat
    match s.k.work.bind (ownBlock s) with
    | none => .fault (stopWhy .shape 0xA0) s
    | some _ =>
      if v > 65535 then .fault (stopWhy .stepalign 1) s
      else .ret (s.updK fun k => { k with lvstep := some v })) s)

/-- The reserved bits of an edge double word. -/
def ruleReserved (v : Word) : Bool := field v 63 48 != 0 || field v 31 22 != 0

/-- The enabled edges of a rule table's eight double words, each register at its neighbour's committed values (R315, R330). -/
def ruleEdges (bs : Tbl Block) (ws : List Word) : List Edge :=
  (ws.filter fun v => v.getLsbD 21).map fun v =>
    let j := field v 19 0
    let n := Tbl.read bs j {}
    { a := (BitVec.ofNat 16 (field v 47 32)).toInt, s := v.getLsbD 20, j := j, lvl := n.t, step := n.d, fin := n.fin }

/-- A level notification of a domain on its way. -/
def levelsOnWay (s : State) (g : Nat) : Bool :=
  s.events.any fun e => match e with | .levelNotification d .. => d == g | _ => false

/-- One block's part of LVBIND, as another package is told it: its number, the table's class and its eight double words. -/
def edgeRowBytes (j : Nat) (nested : Bool) (row : List Word) : List Byte := natLE 4 j ++ natLE 1 (bitN nested) ++ row.flatMap wordLE
/-- The same where it arrives: the block's edges replaced, each register at its neighbour's committed values. -/
def bindBlock (s : State) (g : Nat) (b : List Byte) : State :=
  s.updDom g fun d =>
    let j := rf b 0 4
    let row := (upFrom 0 8).map fun i => leWord ((b.drop (5 + 8 * i)).take 8)
    { d with blocks := Tbl.put d.blocks j { Tbl.read d.blocks j {} with edges := ruleEdges d.blocks row }, nested := rf b 4 1 == 1 }

/-- LVBIND (R330). Every other package of the domain replaces its edges before it retires. -/
def execLvbind (a d : Reg) (s : State) : Out :=
  took (issue 4 (some d) [a] (fun s =>
    let (c, x) := s.cur
    let ea := rd s.k a
    let g := domOf s.k
    let n := (s.dom g).nblk
    if ea.toNat % 64 ≠ 0 then .fault (stopAt .align ea) s else
    match readWords s ea (8 + 8 * n) with
    | .wait s => .wait s
    | .bad p s => .fault p s
    | .ok ws s =>
      let rows := ws.drop 8
      let head := ws.headD 0
      if field head 19 0 ≠ n then .fault (stopWhy .shape 0xA4) s
      else if field head 63 20 ≠ 0 ∨ ((ws.drop 1).take 7).any (· != 0) ∨ rows.any ruleReserved
          ∨ rows.any (fun v => v.getLsbD 21 && field v 19 0 ≥ n) then .fault (stopWhy .shape 0xA5) s
      else if ¬ (s.dom g).frozen then .fault (stopWhy .shape 0xA1) s
      else if levelsOnWay s g ∨ untold s g = true then .wait s
      else
        let bs := (s.dom g).blocks
        let bs' := bs.map fun b => (b.1, { b.2 with edges := ruleEdges bs ((rows.drop (8 * b.1)).take 8) })
        let nested := isNested bs'
        let ask := bs.flatMap fun b => askOthers s g (edgeRowBytes b.1 nested ((rows.drop (8 * b.1)).take 8))
        match askAll s c (msgId x) 11 g ask with
        | .wait s => .wait s
        | .bad p s => .fault p s
        | .ok _ s =>
          let s := dropAsked s c (msgId x) 11 ask
          .ret ((s.updDom g fun q => { q with blocks := bs', nested := nested }).wrK d (if nested then 0 else 1))) s)

/-! The domain at rest (R325, R326). -/

/-- The name under which the hub asks the other packages whether they rest. -/
def restCore : Nat := 2 ^ 45

/-- Whether a whole domain has been at rest for `gap` cycles: none while it is being asked. Every other package says twice, `gap` cycles
apart, whether its part rests and how often it has stirred: with equal answers every part rested all the time between. DESIGN CHOICE of the
packets: log 25. -/
def wholeRests (s : State) (g gap : Nat) : Option Bool × State :=
  let d := s.dom g
  let ask := fun (k : Nat) => askOthers s g [BitVec.ofNat 8 k]
  let ends := fun (b : Bool) (s : State) =>
    (some b, (dropAsked s restCore g 13 (ask 1 ++ ask 2)).updDom g fun d => { d with heard := none })
  if (otherPkgs s d).isEmpty then (some true, s) else
  match askAll s restCore g 13 g (ask 1) with
  | .wait s => (none, s)
  | .bad _ s => ends false s
  | .ok first s =>
    let since := d.heard.getD s.time
    let s := s.updDom g fun d => { d with heard := some since }
    if first.any fun b => rf b 0 1 = 0 then ends false s
    else if s.time < since + gap then (none, s)
    else match askAll s restCore g 13 g (ask 2) with
      | .wait s => (none, s)
      | .bad _ s => ends false s
      | .ok second s => ends (first == second) s

/-- The answer: whether this package's part rests, and how often it has stirred. -/
def restBytes (s : State) (g : Nat) : List Byte := natLE 1 (bitN (quiescent s g)) ++ natLE 4 (s.dom g).stirs

/-- LVSTALL (R325), on the supervisor's package. -/
def runLvstall (g : Nat) (s : State) : State :=
  match s.dom? g with
  | none => s
  | some d =>
    match d.quiet with
    | none => s
    | some t =>
      if ¬ quiescent s g then s.updDom g stir
      else if s.time < t + stallCycles then s.pushOnce (.lvstall g)
      else if ¬ d.lvArmed ∨ blocksDone d ∨ ¬ isMine s d (Tbl.read d.actors d.super {}) then s
      else
        match wholeRests s g stallCycles with
        | (none, s) => s.pushOnce (.lvstall g)
        | (some false, s) => s
        | (some true, s) =>
          let s := s.updDom g fun d => { d with lvArmed := false }
          toSuper s g ⟨smsgHead 0 0 0 2 Cause.lvstall.code, 0, BitVec.ofNat 64 d.nadir.toNat, 0⟩
def execLvstall (dom : Nat) (s : State) : Out := took (runLvstall dom s)

/-! LVSEND, LVRECV and the inbox. -/

/-- A context, resident or saved, that is home to an actor of a domain. -/
def holdsActor (s : State) (g c x : Nat) : Bool :=
  let mine := fun (k : Ctx) => match k.home with | some (d, some _) => d == g | _ => false
  mine (s.ctx c x) || (s.die (dieOf c)).slots.any fun v => v.2.homeCore == c && v.2.homeCtx == x && mine v.2.ctx

/-- Whether a message of this context has not been accepted yet. -/
def unsentMsg (s : State) (src x g : Nat) : Bool := s.lmsgs.any fun m => m.2.src == src && m.2.srcCtx == x && m.2.dom == g
/-- The bytes before the payload of an LVSEND packet: stamp, source core and context. DESIGN CHOICE: log 25. -/
def lmsgHead (m : LMsg) : List Byte := natLE 4 m.stamp.toNat ++ natLE 4 m.src ++ natLE 4 m.srcCtx

/-- LVSEND (R331). -/
def execLvsend (b a : Reg) (s : State) : Out :=
  took (issue 4 none [b, a] (fun s =>
    let (c, x) := s.cur
    let ea := rd s.k a
    let dst := rd s.k b
    let g := domOf s.k
    let (hc, hx) := homeOfCtx s c x
    let done := fun (s : State) => Res.ret (s.updK fun k => { k with sending := false })
    match localSpan s ea 64 with
    | .error p => .fault p s
    | .ok off =>
      if coveredBy s c x (opsOf s c x) ea 64 then .wait s else
      match coreNamed s dst with
      | none => .fault (stopAt .laddr dst) s
      | some (p, cx, cy) =>
        let tgt := cy * 128 + cx
        if field dst 17 4 ≠ 0 ∨ p ≥ 0xF00 ∨ (p = 0 ∧ ¬ s.coreExists cx cy) then .fault (stopAt .laddr dst) s
        else if s.k.sending ∧ p = 0 then (if unsentMsg s hc hx g then .wait s else done s)
        else if s.k.sending then
          match peerMsg s p (coreFaddr cx cy (field dst 3 0)) 1 g [] with
          | .ok _ s => done (forgetMsg s hc hx g)
          | .wait s => .wait s
          | .bad q s => .fault { q with eaddr := dst } ((forgetMsg s hc hx g).updK fun k => { k with sending := false })
        else if p = 0 ∧ ¬ holdsActor s g tgt (field dst 3 0) then .fault { stopWhy .laddr 0xA3 with eaddr := dst } s
        else
          match (if p = 0 then none else unreachable s) with
          | some n => .fault (nackStop dst n) s
          | none =>
            let (ok, s) := releaseAt s c x (s.dom g).scope s.nextId
            if ¬ ok then .wait s else
            let stamp := match s.k.work with
              | some w => (match ownBlock s w with | some _ => targetLevel w | none => (s.dom g).nadir)
              | none => 0
            let m : LMsg := { core := tgt + p * 8192, ctx := field dst 3 0, dom := g, stamp := stamp, src := hc, srcCtx := hx,
                              bytes := localBytes s off 64 }
            let s := s.updK fun k => { k with sending := true }
            let (id, s) := s.fresh
            let s := { s with lmsgs := s.lmsgs ++ [(id, m)] }
            -- the release stands while it waits for its message to be accepted
            if p = 0 then waitOn (s.push (.inboxMessage id))
            else waitOn (sendMsg s p (coreFaddr cx cy (field dst 3 0)) 1 g (lmsgHead m ++ m.bytes))) s)

/-- INBOX_MESSAGE (R295, R324): a message is accepted by one of entries 0-27, or waits for one. A message of another package is
answered then. -/
def runInboxMessage (id : Nat) (s : State) : State :=
  match s.lmsgs.find? fun m => m.1 == id with
  | none => s
  | some (_, m) =>
    if (s.core m.core).inbox.length ≥ 28 then s.pushOnce (.inboxMessage id)
    else
      let rest := s.lmsgs.filter fun q => q.1 != id
      let s := { s with lmsgs := rest }.updCore m.core fun k => { k with inbox := k.inbox ++ [m] }
      let s := if m.src / 8192 = 0 then s else replyTo s 0x83 (m.src / 8192) m.tag 0 []
      bumpHome s m.core m.ctx fun h => match h with | some (d, _) => d == m.dom | none => false
def execInboxMessage (id : Nat) (s : State) : Out := took (runInboxMessage id s)

/-- The message that LVRECV takes: lowest stamp by wrapdiff against the nadir, then earliest arrival (R332). -/
def pickMsg (nadir : BitVec 32) : List LMsg → Option LMsg
  | [] => none
  | m :: l => match pickMsg nadir l with
    | none => some m
    | some q => if wrapdiff q.stamp nadir < wrapdiff m.stamp nadir then some q else some m

/-- Unperformed stores of the issuing context to `n` bytes of its banks. -/
def storesOver (s : State) (off n : Nat) : Bool :=
  let (c, x) := s.cur
  (opsOf s c x).any fun o => isStore o && o.status == 0 && match o.target with
    | some t => overlaps t.place 8 (.loc (bankCore s c x) off) n
    | none => false

/-- LVRECV (R332). -/
def execLvrecv (a d : Reg) (s : State) : Out :=
  took (issue 4 (some d) [a] (fun s =>
    let (c, x) := s.cur
    let g := domOf s.k
    let (hc, hx) := homeOfCtx s c x
    match localSpan s (rd s.k a) 64 with
    | .error p => .fault p s
    | .ok off =>
      match pickMsg (s.dom g).nadir ((s.core hc).inbox.filter fun m => m.ctx == hx && m.dom == g) with
      | none => .ret (s.wrK d 0)
      | some m =>
        if storesOver s off 64 ∨ coveredBy s c x (opsOf s c x) (rd s.k a) 64 then .wait s else
        match bankWrite s (bankCore s c x) off m.bytes with
        | .wait s => .wait s
        | .bad p s => .fault p s
        | .ok _ s =>
          let s := s.updCore hc fun k => { k with inbox := k.inbox.erase m }
          let v := BitVec.ofNat 64 (2 ^ 63 + m.srcCtx % 16 * 2 ^ 57 + m.src * 2 ^ 32 + m.stamp.toNat)
          let s := acquireAt (s.wrK d v) c x (s.dom g).scope
          .ret (domCheck (s.pushOnce (.nadirRefresh g)) g)) s)

/-- A freeze message that nothing waits for, to every other package of a domain: 1 ends its freeze, 2 is the dispatcher's own. -/
def tellFreeze (s : State) (g n : Nat) : State :=
  (askOthers s g [BitVec.ofNat 8 n]).foldl (fun s q =>
    request s 0x06 0x83 q.1 q.2.1 1 (4 + 16 * 10) 0 0 q.2.2 0 (2 ^ 42) none (gtbInfo g)) s

/-- SUPERVISOR_MESSAGE (R324, R359): the oldest waiting messages of a domain enter entries 28-31 of its supervisor's core, and
dispatch the supervisor; to a supervisor on another package they go as packets. -/
def runSupervisorMessage (g : Nat) (s : State) : State :=
  match s.dom? g with
  | none => s
  | some d =>
    let w := Tbl.read d.actors d.super {}
    -- the dispatcher's own freeze holds in the other packages too (R363)
    let s := if d.hostFreeze ∧ isMine s d w = true then tellFreeze s g 2 else s
    if ¬ isMine s d w then
      let s := d.waitMsgs.foldl (fun s m =>
        request s 0x06 0x83 (d.pkgs.getD w.pkg 0) (coreFaddr w.x w.y 0) 32 (4 + 16 * 2) 0 0 (smsgBytes m) 0 (2 ^ 42) none (gtbInfo g)) s
      s.updDom g fun d => { d with waitMsgs := [] }
    else
      let free := 4 - (s.core w.core).smsgs.length
      let s := s.updCore w.core fun k => { k with smsgs := k.smsgs ++ (d.waitMsgs.take free).map fun m => (g, m) }
      let s := s.updDom g fun d => { d with waitMsgs := d.waitMsgs.drop free }
      s.pushOnce (.firingDispatch g d.super)
def execSupervisorMessage (dom : Nat) (s : State) : Out := took (runSupervisorMessage dom s)

end Sys2Proof.Machine
end

