-- ==== Sys2Proof/Machine/Tasks.lean ====
section
/-!
DEFINITION. Tasks (R300-R307): SPAWN, TEND and JOINW, the deques with their overflow areas, the die queues, and the search.
-/
set_option linter.all false
namespace Sys2Proof.Machine
open Sys2Proof

/-! Join counters. -/

/-- A plain relaxed AMO word, for the counters. -/
def counterWord : AmoF := ⟨false, true, 0, 0, 0, .core, .rlx, 0, 0⟩

/-- An 8-byte AMO that an instruction of a context performs and waits for, at the place of R235: the old value. It is performed at
every die before it answers, as the release that follows asks (R300). -/
def counterAmo (s : State) (c x : Nat) (ea : Word) (op : Nat) (b d : Word) : Got Nat :=
  match access s c x ea true true with
  | (.error p, s) => .bad p s
  | (.ok t, s) =>
    if amoForbidden t then .bad (stopAt .laddr ea) s else
    let peer := match t.place with
      | .peer p f => some (p, f)
      | .dev a => if isOwn a then none else some (peerOf a, peerFaddr a)
      | .loc .. => none
    match peer with
    | none =>
      match amoAt s (whoOf s c x) (syncId x) t op 8 b d true with
      | .ok (old, _) s => .ok old s
      | .wait s => .wait s
      | .bad p s => .bad (atEa ea p) s
    | some (p, f) =>
      match s.sent.find? fun r => r.core == c && r.op == syncId x && r.pkt.op == 3 with
      | some r =>
        match r.got, r.nack with
        | some bs, _ => .ok (leNat (bs.take 8)) (dropSent s r.tag)
        | none, some e =>
          .bad (if e = unknownMark then { cause := .amounknown, eaddr := ea, einfo := BitVec.ofNat 64 (r.pkt.seq + p * 65536) }
            else { nackStop ea e with eaddr := ea }) (dropSent s r.tag)
        | none, none => .wait s
      | none =>
        match unreachable s with
        | some e => .bad (nackStop ea e) s
        | none =>
          if movingPeer s p f ∨ amoWindowFull s p = true then .wait s
          else .wait (sendAmo s c (syncId x) p f op 8 counterWord b d t.gdef)

/-! Queues (R305, R306). -/

/-- Cores of a cluster in search order from the core after this one (R307). -/
def clusterMates (c : Nat) : List Nat :=
  let x0 := coreX c / 4 * 4
  let y0 := coreY c / 4 * 4
  let p := coreX c % 4 + 4 * (coreY c % 4)
  (upFrom 1 15).map fun i => let q := (p + i) % 16; (y0 + q / 4) * 128 + x0 + q % 4

/-- BASE and END of DQBASE, where the area is present (R306). -/
def dqArea (s : State) (c : Nat) : Option (Nat × Nat) :=
  let k := s.core c
  let base := field k.dqbase 17 0
  let top := field k.dqbase 35 18
  if top ≤ base ∨ top > bankEnd ∨ k.windows.any (fun w => w.off < top && base < w.off + w.len) then none else some (base, top)

/-- The bytes of an overflow entry: the spec gives their number alone, so each is free. Log 2. -/
def dqBytes (seed : Nat) : List Byte := (upFrom 0 8).flatMap fun i => wordLE (Config.freeWord (seed + i))

/-- The deque's oldest entry moved to the overflow area, where it has room (R305). -/
def overflowOldest (s : State) (c : Nat) : Option State :=
  match dqArea s c, (s.core c).deque with
  | some (base, top), t :: rest =>
    match (upFrom 0 ((top - base) / 64)).find? fun i => !(s.core c).overflow.any fun e => e.1 == base + 64 * i with
    | none => none
    | some i =>
      let off := base + 64 * i
      let s := s.updCore c fun k =>
        { k with deque := rest, overflow := k.overflow ++ [(off, s.free, t)], mem := writeBytes k.mem off (dqBytes s.free) }
      some { s with free := s.free + 8 }
  | _, _ => none

/-- Entries move back from the area as the deque empties, the youngest first. An entry that the program has stored into runs as it
was or not at all (R305, R306). DEDUCED: log 31. -/
def refillDeque (s : State) (c : Nat) : Nat → State
  | 0 => s
  | n + 1 =>
    match (s.core c).overflow.getLast? with
    | none => s
    | some (off, seed, t) =>
      if (s.core c).deque.length ≥ 32 then s else
      let whole := readBytes (s.core c).mem off 64 == dqBytes seed
      let (runs, s) := if whole then (true, s) else s.anyBit
      let s := s.updCore c fun k =>
        { k with overflow := k.overflow.dropLast, deque := if runs then t :: k.deque else k.deque }
      refillDeque s c n

/-- Idle task contexts of a domain on a core. -/
def idleTaskCtxs (s : State) (g c : Nat) : List Nat :=
  ((s.core c).ctxs.filter fun e => e.2.home == some (g, none) && e.2.work.isNone).map (·.1)

/-- The cores that a new task stops from resting, and whose idle task contexts search again (R307). -/
def wakeTakers (s : State) (g : Nat) (cores : List Nat) : State :=
  cores.foldl (fun s c =>
    match idleTaskCtxs s g c with
    | [] => s
    | xs => xs.foldl (fun s x => s.pushOnce (.taskSearch c x)) (s.updCore c fun k => { k with rest := none, fails := 0 })) s

/-- A task into a die's queue: false when it is full. -/
def enqueueDie (s : State) (d : Nat) (t : Task) : Option State :=
  if (s.die d).queue.length ≥ 65536 then none
  else
    let s := s.updDie d fun k => { k with queue := k.queue ++ [t] }
    some (wakeTakers s t.dom ((Tbl.keys s.cores).filter fun c => dieOf c == d))

/-- R305: none while the die queue that the task needs is full. -/
def enqueue (s : State) (c : Nat) (f : Affinity) (t : Task) : Option State :=
  match f with
  | .die n => enqueueDie s n.toNat { t with die := some n.toNat }
  | .any => enqueueDie s (dieOf c) { t with die := none }
  | .loc =>
    let put := fun (s : State) =>
      wakeTakers (s.updCore c fun k => { k with deque := k.deque ++ [t] }) t.dom (c :: clusterMates c)
    if (s.core c).deque.length < 32 then some (put s)
    else
      match overflowOldest s c with
      | some s => some (put s)
      | none => enqueueDie s (dieOf c) { t with die := some (dieOf c) }

/-! SPAWN (R300). -/

/-- Whether a die holds a core of a domain's grid. -/
def gridMeets (d : Dom) (n : Nat) : Bool :=
  let x0 := n % 2 * 64
  let y0 := n / 2 * 32
  d.ox < x0 + 64 && x0 < d.ox + d.gx && d.oy < y0 + 32 && y0 < d.oy + d.gy

/-- The affinity code of R37, for a trace record. -/
def affinityCode (f : Affinity) : Nat := match f with | .loc => 0 | .die n => 4 + n.toNat | .any => 8

/-- GTID of a task (R311). -/
def taskGtid (g c x n : Nat) : Word := BitVec.ofNat 64 (g * 2 ^ 48 + c * 2 ^ 35 + x * 2 ^ 31 + 2 ^ 30 + n % 2 ^ 30)

/-- DIE n of an absent die: ABSENT, before any fault of an operand (R42). -/
def absentDie (s : State) (f : Affinity) : Bool := match f with | .die n => !s.diePresent n.toNat | _ => false

/-- Why SPAWN finds no taker. -/
def spawnStop (d : Dom) (f : Affinity) : Option Stop :=
  match f with
  | .die n =>
    if d.taskc = 0 then some (stopWhy .shape 0x92)
    else if ¬ gridMeets d n.toNat then some (stopWhy .shape 0x93) else none
  | _ => if d.taskc = 0 then some (stopWhy .shape 0x92) else none

/-- SPAWN (R300): it waits for its release and for room first, then the counter is raised and the task enqueued. -/
def execSpawn (b a : Reg) (f : Affinity) (s : State) : Out :=
  took (issue 4 none [b, a] (fun s =>
    let (c, x) := s.cur
    let g := domOf s.k
    let ctr := rd s.k b
    if absentDie s f then illegal .absent (word0 (.spawn b a f)) s else
    match regTarget (rd s.k a) with
    | .error p => .fault p s
    | .ok pc =>
      if b ≠ 0 ∧ ctr.toNat % 8 ≠ 0 then .fault (stopAt .align ctr) s else
      match spawnStop (s.dom g) f with
      | some p => .fault p s
      | none =>
        let t : Task :=
          { dom := g, pc := pc, args := (upFrom 24 4).map fun r => Tbl.read s.k.regs r 0, counter := if b = 0 then 0 else ctr,
            gtid := taskGtid g c x s.k.spawns, die := none, core := c, ctx := x }
        let (ok, s) := releaseAt s c x .pkg s.nextId
        if ¬ ok ∨ (enqueue s c f t).isNone then .wait s
        else
          let go := fun (s : State) =>
            match enqueue s c f t with
            | none => Res.wait s
            | some s =>
              .ret (traceRec (s.updK fun k => { k with spawns := (k.spawns + 1) % 2 ^ 30 }) c t.gtid 1 0
                (BitVec.ofNat 64 (affinityCode f)))
          if b = 0 then go s
          else
            match counterAmo s c x ctr 0 1 0 with
            | .wait s => .wait s
            | .bad p s => .fault p s
            | .ok _ s => go s) s)

/-! The start of a task (R301, R307). -/

/-- A task begins in a context: an acquire at package scope (R301, R344). -/
def beginTask (s : State) (c x : Nat) (t : Task) : State :=
  let d := s.dom t.dom
  let srch := s.time - (s.ctx c x).searched
  let work : Work := { dom := t.dom, actor := none, gtid := t.gtid, task := some t, start := s.time }
  let s := s.updCtx c x fun k => entryCtx k work t.pc (t.args ++ [zext 32 t.gtid, t.counter, 0, 0]) (List.replicate 8 0) [] (runClass d)
  let s := s.updDom t.dom fun d => { stir d with lvArmed := true }
  let s := traceRec (dropFetch (countEv s c x 0xA 1) c) c t.gtid 2 (srch % 2 ^ 32) 0
  let s := s.updCore c fun k => { k with fails := 0, rest := none }
  if runClass d = 0 then s.pushOnce (.p0Request c) else s

/-- A task of a domain out of a list: the first or the last of it. -/
def takeFrom (g : Nat) (last : Bool) (l : List Task) : Option (Task × List Task) :=
  match (if last then l.reverse else l).find? fun t => t.dom == g with
  | none => none
  | some t => some (t, l.erase t)

/-- The search of R307 in its order: the task, and the state without it. -/
def findTask (s : State) (g c : Nat) : Option (Task × State) :=
  let fromDeque := fun (c : Nat) (last : Bool) =>
    (takeFrom g last (s.core c).deque).map fun r =>
      (r.1, refillDeque (s.updCore c fun k => { k with deque := r.2 }) c 32)
  let fromDie := fun (d : Nat) (any : Bool) =>
    (takeFrom g false ((s.die d).queue.filter fun t => !any || t.die.isNone)).map fun r =>
      (r.1, s.updDie d fun k => { k with queue := k.queue.erase r.1 })
  let d := dieOf c
  match fromDeque c true with
  | some r => some r
  | none =>
    match (clusterMates c).findSome? fun m => fromDeque m false with
    | some r => some r
    | none =>
      match fromDie d false with
      | some r => some r
      | none => ((upFrom 1 3).map fun i => Nat.xor d i).findSome? fun e => if s.diePresent e then fromDie e true else none

/-- Steal requests that a search without a task has seen refused. -/
def refusals (s : State) (c : Nat) : Nat := ((upFrom 1 3).filter fun i => s.diePresent (Nat.xor (dieOf c) i)).length

/-- TASK_SEARCH (R307, R344): an idle task context takes the first task that it finds; three refusals make its core rest. -/
def runTaskSearch (c x : Nat) (s : State) : State :=
  let k := s.ctx c x
  match k.home with
  | some (g, none) =>
    match s.dom? g with
    | none => s
    | some d =>
      let die := s.die (dieOf c)
      if k.work.isSome ∨ d.frozen ∨ d.draining ∨ d.ended ∨ ¬ d.started ∨ (s.core c).rest.isSome ∨ die.reset.isSome ∨ die.isolated then s
      else
        match findTask s g c with
        | some (t, u) =>
          match drawEstimate u d d.test with
          | none => s
          | some u => beginTask u c x t
        | none =>
          let n := refusals s c
          let s := countEv s c x 0xB n
          let s := s.updCore c fun q => { q with fails := q.fails + n }
          let s := if (s.core c).fails ≥ 3 then
              (s.updCore c fun q => { q with rest := some s.time }).pushOnce (.taskSearchRestEnd c)
            else if n = 0 then s else s.pushOnce (.taskSearch c x)
          domCheck s g
  | _ => s
def execTaskSearch (core ctx : Nat) (s : State) : Out := took (runTaskSearch core ctx s)

/-- TASK_SEARCH_REST_END (R307): after 4,096 cycles of rest the core searches again. -/
def runTaskSearchRestEnd (c : Nat) (s : State) : State :=
  match (s.core c).rest with
  | none => s
  | some t =>
    if s.time < t + 4096 then s.pushOnce (.taskSearchRestEnd c)
    else
      let s := s.updCore c fun k => { k with rest := none, fails := 0 }
      (s.core c).ctxs.foldl (fun s e => match e.2.home with
        | some (_, none) => if e.2.work.isNone then s.pushOnce (.taskSearch c e.1) else s
        | _ => s) s
def execTaskSearchRestEnd (core : Nat) (s : State) : Out := took (runTaskSearchRestEnd core s)

/-! The end of a task (R302). -/

/-- A task leaves its context as an item of its launch, and the context searches again. -/
def endTask (c x : Nat) (w : Work) (i : Item) (s : State) : State :=
  let k := s.ctx c x
  let s := settle (releaseWork s c x) w.dom (s.dom w.dom).test
  let s := traceRec s c w.gtid 3 0 0
  let s := vacate (dropFetch s c) c x { leaveFiring k with acc := none, searched := s.time }
  let s := afterEnd (itemEnds s w.dom i) w.dom
  if k.away.isNone then s.pushOnce (.taskSearch c x) else s

/-- TEND (R302): the task's ring advances are committed with their stamps, as FEND commits a firing's, behind a release at their scopes
too (R111). -/
def execTend (s : State) : Out :=
  took (issue 4 none [] (fun s =>
    let (c, x) := s.cur
    match s.k.work.bind fun w => w.task.map fun t => (w, t) with
    | none => illegal .ill (word0 .tend) s
    | some (w, t) =>
      if ¬ drained (opsOf s c x) then .wait s
      else
        match writeBeat s (whoOf s c x) (syncId x) [] false (stampWrites s s.k 0) with
        | .wait t => .wait (keepReplies s c (syncId x) t)
        | .bad p t => .fault p t
        | .ok _ u =>
        let s := keepReplies s c (syncId x) u
        if s.awaiting.any fun a => a.core == c && a.op == syncId x then .wait s else
        let (ok, s) := releaseAt s c x (advScope s s.k .pkg) s.nextId
        if ¬ ok then .wait s
        else
          let pc := s.k.pc
          let fin := fun (s : State) =>
            let s := (advances s.k).foldl (fun s b => commitRing s w.dom 0 b) s
            let s := charge (countEv s c x 2 1) w.dom 0 1
            Res.raw (endTask c x w ⟨w.gtid, 1, 0, 0, 0, pc, c⟩ s)
          if t.counter = 0 then fin s
          else
            match counterAmo s c x t.counter 0 (BitVec.allOnes 64) 0 with
            | .wait s => .wait s
            | .bad p s => .fault p s
            | .ok _ s => fin s) s)

/-! JOINW (R303). -/

/-- JOINW: an acquire at package scope once the count bits are zero; until then it waits for a write of the counter's line. -/
def execJoinw (a : Reg) (s : State) : Out :=
  took (issue 4 none [a] (fun s =>
    let (c, x) := s.cur
    let ea := rd s.k a
    if s.k.joinLine.isSome then .wait s else
    match readNow s ea 8 true with
    | .wait s => .wait s
    | .bad p s => .fault p s
    | .ok bs s =>
      let s := acquireAt s c x .pkg
      if field (leWord bs) 62 0 = 0 then .ret s
      else
        match access s c x ea true false with
        | (.ok t, s) => .wait (s.updK fun k => { k with joinLine := match t.place with | .peer .. => none | p => some p })
        | (.error p, s) => .fault p s) s)

/-- JOINW_WAKE (R303): the context reads its counter again. -/
def runJoinwWake (c x : Nat) (s : State) : State :=
  let s := s.updCtx c x fun k => { k with joinLine := none }
  { s with stalled := s.stalled.filter fun p => p != (c, x) }
def execJoinwWake (core ctx : Nat) (s : State) : Out := took (runJoinwWake core ctx s)

end Sys2Proof.Machine
end

