-- ==== Sys2Proof/Machine/Park.lean ====
section
/-!
DEFINITION. Parked firings and the supervisor's answers (R58, R105, R163, R195, R196, R237, R281, R299, R302, R357-R362).
-/
set_option linter.all false
namespace Sys2Proof.Machine
open Sys2Proof

/-! PARK (R104, R228, R357, R396). -/

/-- PARK: a firing with a recorded failure parks before its next instruction; a halted one when it goes on. -/
def runPark (c x : Nat) (s : State) : State :=
  let k := s.ctx c x
  match k.pend with
  | none => s
  | some p =>
    if k.status ≠ .ready ∨ k.p0halt ∨ k.dhalt ∨ k.frozenHalt then s
    else
      let epc := match p.kind with
        | .access q => q.pc
        | .amoUnknown _ => p.epc
        | _ => if p.eng then p.epc else k.pc
      parkAt (s.updCtx c x fun k => { k with pend := k.later.head?, later := k.later.drop 1 }) c x p.kind p.stop epc p.eng p.reix
def execPark (core ctx : Nat) (s : State) : Out := took (runPark core ctx s)

/-! Fault-table entries (R58). -/

/-- The move that a held command's engine makes again. -/
def heldAgain (s : State) (c : Nat) (o : Op) : State :=
  match o.body with
  | .copy k => s.pushOnce (.copyBeat c k.ch)
  | .vec _ => s.pushOnce (.vectorBeat c)
  | .exch .. => match s.exchs.find? fun e => e.core == c && e.op == o.id with
    | some e => s.pushOnce (.exchangeRun e.id)
    | none => s
  | _ => s

/-- Held commands of a domain replay their walks; one whose page still has an entry joins it again. -/
def unhold (s : State) (g : Nat) : State :=
  let off := fun (o : Op) => if o.dom = g then { o with held := false } else o
  s.cores.foldl (fun s e =>
    let held := e.2.ops.filter fun o => o.held && o.dom == g
    let s := s.updCore e.1 fun k =>
      { k with ops := k.ops.map off, ctxs := k.ctxs.map fun x => (x.1, { x.2 with kept := x.2.kept.map off }) }
    held.foldl (fun s o => heldAgain s e.1 o) s) s

/-- A context goes on where it stands after a park. -/
def goOn (k : Ctx) : Ctx :=
  { k with status := .ready, park := none, parkPage := none, estat := setField (setField k.estat 1 1 0) 23 23 0 }

/-- The entries of a domain's pages that `hit` names clear: held commands replay, and firings parked on them resume at their faulting
instructions. -/
def clearFaults (s : State) (g : Nat) (hit : Nat → Bool) : State :=
  if ¬ s.faults.any (fun f => f.dom == g && hit f.page) then s else
  let go := fun (k : Ctx) => match k.parkPage with
    | some p => if domOf k = g ∧ hit p = true ∧ k.status = .parked then goOn k else k
    | none => k
  let s := { s with
    faults := s.faults.filter fun f => !(f.dom == g && hit f.page)
    cores := s.cores.map fun e => (e.1, { e.2 with ctxs := e.2.ctxs.map fun x => (x.1, go x.2) })
    stalled := [] }
  unhold s g

/-! Commands of a firing that starts again or ends (R105, R163, R195, R281). -/

/-- An operation of a restarted or aborted firing: discarded while it is queued, left to end once it runs. -/
def dropOne (s : State) (c : Nat) (o : Op) : State :=
  let gone := fun (s : State) => dropReplies (dropOp s c o.id) c o.id
  if o.status ≠ 0 then gone s else
  match o.body with
  | .copy k =>
    if (s.core c).copyQ.contains o.id then
      let s := s.updCore c fun q => { q with copyQ := q.copyQ.filter (· != o.id) }
      (finishCopy s c o k 1 {cause := .none}).pushOnce (.copyQueueRelease c)
    else s
  | .exch .. => match s.exchs.find? fun e => e.core == c && e.op == o.id && !e.ended with
    | some e => cancelExch s e
    | none => gone s
  | .load .. => gone s
  | .vec k =>
    if (s.core c).vecQ.head? = some o.id ∧ k.guarded.taken = .run then s
    else ((gone s).updCore c fun q => { q with vecQ := q.vecQ.filter (· != o.id) }).pushOnce (.vectorBeat c)
  | .mat _ =>
    if (octet s (octetOf c)).running = some (c, o.id) then s
    else ((gone s).updCore c fun q => { q with matQ := q.matQ.filter (· != o.id) }).pushOnce (.matrixSelect (octetOf c))
  | _ => s

/-- Everything that a firing has accepted and not ended, given up; its pending arrival at a barrier withdrawn (R299). -/
def dropCommands (s : State) (c x : Nat) : State :=
  let s := ((s.core c).ops.filter fun o => o.ctx == x).foldl (fun s o => dropOne s c o) s
  let k := s.ctx c x
  let s := match k.arrival with
    | some id =>
      let g := domOf k
      let there := barrierHome s g .sys
      if there = s.pkid ∨ s.barriers.any (·.id == id) then withdrawArrival s (·.id == id) (fun b => b)
      else barrierMsg s there 8 g (natLE 8 id)
    | none => s
  -- a MAT command that runs to its end frees the slot itself
  let runs := (s.core c).ops.any fun o => o.ctx == x && isMat o && live o
  s.updCtx c x fun k => { k with kept := [], acc := if runs then none else k.acc, arrival := none }

/-! RESTART (R362). -/

/-- What FREEZE has halted in a wait goes on, and task contexts take tasks again (R370). -/
def unhaltFrozen (s : State) (g : Nat) : State :=
  let go := fun (k : Ctx) => if domOf k = g then { k with frozenHalt := false } else k
  let parks := s.cores.flatMap fun e =>
    (e.2.ctxs.filter fun x => x.2.frozenHalt && x.2.pend.isSome && domOf x.2 == g).map fun x => Event.park e.1 x.1
  let idle := s.cores.flatMap fun e =>
    (e.2.ctxs.filter fun x => x.2.home == some (g, none) && x.2.work.isNone).map fun x => Event.taskSearch e.1 x.1
  let s := { s with
    cores := s.cores.map fun e => (e.1, { e.2 with ctxs := e.2.ctxs.map fun x => (x.1, go x.2) })
    dies := s.dies.map fun e => (e.1, { e.2 with slots := e.2.slots.map fun v => (v.1, { v.2 with ctx := go v.2.ctx }) })
    stalled := [] }
  (parks ++ idle).foldl State.pushOnce s

/-- A freeze ends in this package (R363, R370): firings are dispatched again. -/
def thawHere (s : State) (g : Nat) : State :=
  let s := s.updDom g fun d => { d with frozen := false, draining := false, hostFreeze := false }
  domCheck (wakeActors (unhaltFrozen s g) g) g

/-- A freeze ends, in the domain's other packages too. -/
def endFreeze (s : State) (g : Nat) : State := tellFreeze (thawHere s g) g 1

/-- A context's work given up before its end; a FREEZE that a supervisor's firing has not finished is given up with it. -/
def giveUp (s : State) (c x : Nat) : State :=
  let k := s.ctx c x
  let g := domOf k
  let s := if isSuper s k && (s.dom g).draining then
      tellFreeze (unhaltFrozen (s.updDom g fun d => { d with draining := false }) g) g 1
    else s
  releaseWork (dropCommands s c x) c x

/-- The energy estimate of work. -/
def estOf (s : State) (w : Work) : Nat :=
  match w.actor with
  | some a => (Tbl.read (s.dom w.dom).actors a {}).est
  | none => (s.dom w.dom).test

/-- A firing starts again from its entry with the same GTID and message; a task with the same closure, in its context. -/
def restartCtx (s : State) (c x : Nat) : State :=
  let k := s.ctx c x
  match k.work with
  | none => s
  | some w =>
    let s := giveUp s c x
    let cause := k.ecause.toNat
    match w.actor, w.task with
    | some a, _ =>
      let s := settle s w.dom (estOf s w)
      let k := s.ctx c x
      let s := vacate (dropFetch s c) c x { leaveFiring k with acc := none }
      let s := s.updDom w.dom fun d => match Tbl.find d.actors a with
        | some v => { d with actors := Tbl.put d.actors a { v with running := false, again := some (w.gtid, w.msg, cause) } }
        | none => d
      domCheck (s.pushOnce (.firingDispatch w.dom a)) w.dom
    | none, some t =>
      let d := s.dom w.dom
      dropFetch (s.updCtx c x fun k =>
        { entryCtx { leaveFiring k with acc := none } w t.pc (t.args ++ [zext 32 t.gtid, t.counter, 0, 0]) (List.replicate 8 0) []
            (runClass d) with frozenHalt := d.frozen || d.draining, away := k.away }) c
    | none, none => s

/-! ABORT (R302, R346, R350, R362). -/

/-- (old − 1) OR 2^63 in one atomic action on a join counter (R302): performed at once in this package, by compare and swap at a peer. -/
def counterFail (s : State) (c x : Nat) (ea : Word) : Got Unit :=
  let failed := fun (old : Nat) => (BitVec.ofNat 64 old - 1) ||| BitVec.ofNat 64 (2 ^ 63)
  let swap := fun (s : State) (old : Nat) =>
    match counterAmo s c x ea 9 (failed old) (BitVec.ofNat 64 old) with
    | .ok now s => if now = old then Got.ok () s else .wait s
    | .wait s => .wait s
    | .bad p s => .bad p s
  match s.sent.find? fun r => r.core == c && r.op == syncId x && r.pkt.op == 3 && r.pkt.flg / 16 == 9 with
  | some r =>
    let guess := leNat (r.pkt.payload.drop 8)
    match counterAmo s c x ea 9 0 0 with
    | .ok now s => if now = guess then .ok () s else swap s now
    | .wait s => .wait s
    | .bad p s => .bad p s
  | none =>
    match counterAmo s c x ea 2 0 0 with
    | .ok old s => swap s old
    | .wait s => .wait s
    | .bad p s => .bad p s

/-- How an item that does not complete is reported: FAILED for an access that its page no longer allows, else ABORTED. -/
def endState (k : Ctx) : Nat := if k.status = .parked ∧ (k.ecause = 6 ∨ k.ecause = 7) then 1 else 2

/-- A firing or task ends as an item: its actor fires no more, and its block is finished at its level when `finishes` (R362). -/
def endItem (s : State) (c x : Nat) (state cause : Nat) (finishes : Bool) : State :=
  let k := s.ctx c x
  match k.work with
  | none => s
  | some w =>
    let s := giveUp s c x
    let s := settle s w.dom (estOf s w)
    let i : Item := ⟨w.gtid, bitN w.task.isSome, state, cause, if k.status = .parked then k.eaddr else 0, k.pc, c⟩
    let s := if w.task.isSome then traceRec s c w.gtid 3 0 0 else s
    let blk := ownBlock s w
    let k := s.ctx c x
    let s := vacate (dropFetch s c) c x { leaveFiring k with acc := none, searched := s.time }
    let s := itemEnds s w.dom i
    let s := match w.actor with | some a => actorIdle s w.dom a true | none => s
    let s := match blk with
      | some (j, b) => if finishes then
          notifyEdges (s.updDom w.dom fun d => { d with blocks := Tbl.put d.blocks j { b with fin := true } }) w.dom j b.t b.d true
        else s
      | none => s
    let s := afterEnd s w.dom
    if w.task.isSome ∧ k.away.isNone then s.pushOnce (.taskSearch c x) else s

/-- ABORT of parked work: true once it has ended, false while a task's counter is being written. -/
def abortCtx (s : State) (c x : Nat) : Bool × State :=
  let k := s.ctx c x
  match k.work with
  | none => (true, s)
  | some w =>
    let fin := fun (s : State) =>
      let k := s.ctx c x
      let sup := isSuper s k
      let t := endItem s c x (endState k) k.ecause.toNat true
      if sup then t.push (.domainAbort w.dom) else t
    match w.task with
    | some t =>
      if t.counter = 0 then (true, fin s) else
      match counterFail s c x t.counter with
      | .ok _ s => (true, fin s)
      | .bad _ s => (true, fin s)
      | .wait s => (false, s)
    | none => (true, fin s)

/-! RESUME (R138, R163, R196, R237, R362). -/

/-- The instruction at which a firing stopped is passed over. -/
def skip (s : State) (c x len : Nat) (f : Ctx → Ctx) : State :=
  let s := if loopTakes (s.ctx c x) then dropFetch s c else s
  s.updCtx c x fun k => advance (f k) len

/-- A register written where the stop has one. -/
def give (d : Option Reg) (v : Word) (k : Ctx) : Ctx := match d with | some d => wr k d v | none => k

/-- A stopped command as it rejoins: an FPX stop delivers its default result once, or the value given. -/
def rejoining (fpx : Bool) (v : Option Word) (o : Op) : Op :=
  if ¬ fpx then o else
  { o with body := match o.body with
      | .vec k => .vec { k with skipEvent := true, subst := v }
      | .mat k => .mat { k with skipEvent := true, subst := v }
      | b => b }

/-- R362 for RESUME, with or without a value: an acquire. An access that faulted after its issue is issued afresh from its first word, and
the firing then goes on where it had stopped. -/
def resumeCtx (s : State) (c x : Nat) (v : Option Word) : State :=
  let k := s.ctx c x
  let g := domOf k
  let cause := k.ecause.toNat
  let len := fun (len : Nat) => if cause = 1 then 4 * lenWords (k.einfo.toNat % 4) else len
  let base := s.updCtx c x fun k => region (goOn k)
  let s := match k.park with
    | none => base
    | some (.precise d n) =>
      match v with
      | some v => skip base c x (len n) (give d v)
      | none => if cause = 15 then skip base c x n id else base
    | some (.access o) =>
      match v with
      | some v => base.updCtx c x (give (destOf o) v)
      | none => base.updCtx c x fun k => { k with pc := o.pc, loop := none, back := (k.pc, k.loop) :: k.back }
    | some (.fpxScalar d n) =>
      match v with
      | some v => skip base c x n (give d v)
      | none => base.updCtx c x fun k => { k with oneDefault := true }
    | some (.command o) => base.updCtx c x fun k => { k with kept := rejoining (cause == 9) v o :: k.kept }
    | some (.amoUnknown d) =>
      match v with
      | some v => base.updCtx c x (give (some d) v)
      | none => base
    | some _ => base
  let s := match k.parkPage with
    | some p => clearFaults s g (· == p)
    | none => s
  let s := { s with stalled := s.stalled.filter fun p => p != (c, x) }
  let s := if (s.ctx c x).pend.isSome then s.pushOnce (.park c x) else s
  rejoinMat (rejoinVec s c 2) c 2

/-! The moves. -/

/-- The context of a core that holds a parked firing or task (R361). -/
def parkedAt (s : State) (c : Nat) (gtid : Word) : Option Nat :=
  ((s.core c).ctxs.find? fun e => e.2.status == .parked && gtidOf e.2 == gtid).map (·.1)

/-- A command that no parked firing answers to: reported with KIND 4 (R361). -/
def unapplied (s : State) (c : Nat) (gtid : Word) (op : Nat) : State :=
  let g := field gtid 63 48
  if (s.dom? g).isNone then s else toSuper s g ⟨smsgHead c 0 0 4 0, gtid, BitVec.ofNat 64 op, 0⟩

/-- The fault-table entry that a firing is parked on clears when it is answered (R58). -/
def answered (s : State) (k : Ctx) : State :=
  match k.parkPage with
  | some p => clearFaults s (domOf k) (· == p)
  | none => s

/-- RESUME without a value. -/
def runResume (c : Nat) (gtid : Word) (s : State) : State :=
  match parkedAt s c gtid with
  | none => unapplied s c gtid 1
  | some x => resumeCtx s c x none
def execResume (core : Nat) (gtid : Word) (s : State) : Out := took (runResume core gtid s)

/-- RESUME with a value. -/
def runResumeValue (c : Nat) (gtid v : Word) (s : State) : State :=
  match parkedAt s c gtid with
  | none => unapplied s c gtid 2
  | some x => resumeCtx s c x (some v)
def execResumeValue (core : Nat) (gtid v : Word) (s : State) : Out := took (runResumeValue core gtid v s)

/-- RESTART. -/
def runRestart (c : Nat) (gtid : Word) (s : State) : State :=
  match parkedAt s c gtid with
  | none => unapplied s c gtid 3
  | some x => answered (restartCtx s c x) (s.ctx c x)
def execRestart (core : Nat) (gtid : Word) (s : State) : Out := took (runRestart core gtid s)

/-- ABORT. -/
def runAbort (c : Nat) (gtid : Word) (s : State) : State :=
  match parkedAt s c gtid with
  | none => unapplied s c gtid 4
  | some x =>
    let (ok, t) := abortCtx s c x
    if ok then answered t (s.ctx c x) else t.push (.abort c gtid)
def execAbort (core : Nat) (gtid : Word) (s : State) : Out := took (runAbort core gtid s)

end Sys2Proof.Machine
end

