-- ==== Sys2Proof/Machine/LaunchRecord.lean ====
section
/-!
DEFINITION. A launch record and its tables (R315, R319, R335-R337): their reads through the launch's own root, the checks, and the
domain that they describe.
-/
set_option linter.all false
namespace Sys2Proof.Machine
open Sys2Proof

/-! Reads and writes through a root by the dispatcher. -/

/-- The name under which the dispatcher reads from other packages. -/
def hubTab : Nat := 2 ^ 43

/-- One piece of a domain's memory, as the hub reads it. -/
def domPiece (s : State) (root : Nat) (ea : Word) (n : Nat) : Got (List Byte) :=
  let xl : Stop := stopAt .xlate ea
  if field ea 63 57 ≠ 0 then .bad xl s else
  match walk s root (field ea 56 0) with
  | none => .bad xl s
  | some (e, big) =>
    if ¬ pteBit e 1 then .bad (stopAt .perm ea) s else
    let peer := fun (p f : Nat) => match peerRead s 0 hubTab p f n none with
      | .ok bs s => Got.ok bs s
      | .wait s => .wait s
      | .bad p s => .bad { p with eaddr := ea } s
    match (leafTarget s e big (field ea 56 0)).place with
    | .dev a =>
      if ¬ isOwn a then peer (peerOf a) (peerFaddr a)
      else if hubPoison s a n ∨ homeLost s a then .bad (stopAt .datalost ea) s
      else if homeOf a ≠ 8 then .ok (hubRead s a n) s
      else if Config.hostFails s.free then .bad (nackStop ea 4) { s with free := s.free + 1 }
      else .ok (hubRead s a n) { s with free := s.free + 1 }
    | .peer p f => peer p f
    | .loc .. => .bad xl s

def domPieces (s : State) (root : Nat) (ps : List (Word × Nat)) : Got (List Byte) :=
  match ps with
  | [] => .ok [] s
  | (ea, n) :: ps =>
    match domPiece s root ea n with
    | .wait s => .wait s
    | .bad p s => .bad p s
    | .ok bs s =>
      match domPieces s root ps with
      | .ok r s => .ok (bs ++ r) s
      | .wait s => .wait s
      | .bad p s => .bad p s

/-- A table read whole: its bytes, or the fault. -/
def readTable (s : State) (root : Nat) (ea : Word) (n : Nat) : Got (Except Stop (List Byte)) :=
  match domPieces s root (pieces ea n) with
  | .ok bs s => .ok (.ok bs) s
  | .wait t => .wait (keepReplies s 0 hubTab t)
  | .bad p s => .ok (.error p) s

/-- A write through a root by the dispatcher; nothing where no page takes it. -/
def domWrite (s : State) (root : Nat) (ea : Word) (bs : List Byte) : State :=
  (cutPieces ea bs).foldl (fun s (a, b) =>
    if field a 63 57 ≠ 0 then s else
    match walk s root (field a 56 0) with
    | none => s
    | some (e, big) =>
      if ¬ pteBit e 2 then s else
      let peer := fun (p f : Nat) => if (unreachable s).isSome then s else request s 0x02 0x83 p f b.length 4 0 0 b 0 (2 ^ 42)
      match (leafTarget s e big (field a 56 0)).place with
      | .dev a => if isOwn a then hubWrite s a b else peer (peerOf a) (peerFaddr a)
      | .peer p f => peer p f
      | .loc .. => s) s

/-! Fields of the record (R335). -/

def rAddr (r : List Byte) (at' : Nat) : Word := leWord ((r.drop at').take 8)
def rRoot (r : List Byte) : Nat := rf r 16 8
def rNact (r : List Byte) : Nat := rf r 64 4
def rNblk (r : List Byte) : Nat := rf r 68 4
def rGtb (r : List Byte) : Nat := rf r 140 2
def rNpkg (r : List Byte) : Nat := rf r 144 2
def rCls (r : List Byte) : Nat := rf r 104 1 % 8
def rPre (r : List Byte) : Nat := rf r 104 1 / 16 % 4
def rAnyOrg (r : List Byte) : Bool := rf r 118 1 ≥ 128
def rOx (r : List Byte) : Nat := rf r 118 1 % 128

/-- The tables, image and package list of a record, each as its bytes or the fault of its read. -/
structure Tabs where
  act : Except Stop (List Byte)
  blk : Except Stop (List Byte)
  rul : Except Stop (List Byte)
  rng : Except Stop (List Byte)
  pip : Except Stop (List Byte)
  img : Except Stop (List Byte)
  pkl : Except Stop (List Byte)

/-- All of them read, in the order of their fields (R335). -/
def readTabs (s : State) (r : List Byte) : Got Tabs :=
  let root := rRoot r
  let get := fun (s : State) (at' n : Nat) => if n = 0 then Got.ok (Except.ok []) s else readTable s root (rAddr r at') n
  let lens := [(24, 128 * rNact r), (32, 32 * rNblk r), (40, if rNblk r = 0 then 0 else 64 + 64 * rNblk r), (48, 8 * rf r 72 2),
    (56, 8 * rf r 74 2), (0, rf r 8 4), (152, if rNpkg r ≤ 1 then 0 else 2 * rNpkg r)]
  let all := lens.foldl (fun (g : Got (List (Except Stop (List Byte)))) l =>
    match g with
    | .ok ts t => match get t l.1 l.2 with
      | .ok x t => .ok (ts ++ [x]) t
      | .wait t => .wait (keepReplies s 0 hubTab t)
      | .bad p t => .bad p t
    | g => g) (.ok [] s)
  match all with
  | .ok ts s =>
    let at' := fun i => ts.getD i (Except.ok [])
    .ok ⟨at' 0, at' 1, at' 2, at' 3, at' 4, at' 5, at' 6⟩ s
  | .wait s => .wait s
  | .bad p s => .bad p s

/-- Bytes cut into entries. -/
def entriesOf (n : Nat) : Nat → List Byte → List (List Byte)
  | 0, _ => []
  | k + 1, bs => bs.take n :: entriesOf n k (bs.drop n)
def entries (n count : Nat) (t : Except Stop (List Byte)) : List (Nat × List Byte) :=
  match t with
  | .ok bs => (upFrom 0 count).zip (entriesOf n count bs)
  | .error _ => []

/-! Checks (R337). -/

/-- Why a launch is refused: cause and EADDR. -/
abbrev Refused := Cause × Word

/-- EADDR of an offending field: in the record, or in entry `i` of the table that `ptr` points to. -/
def inRecord (c : Cause) (at' : Nat) : Refused := (c, BitVec.ofNat 64 at')
def inTable (c : Cause) (ptr i at' : Nat) : Refused := (c, BitVec.ofNat 64 (2 ^ 63 + at' * 2 ^ 48 + i * 2 ^ 16 + ptr))

/-- The first byte of a span that is not zero. -/
def nonzeroIn (r : List Byte) (lo n : Nat) : Option Nat := (upFrom lo n).find? fun i => r.getD i 0 != 0

/-- The first offending field of the record itself. -/
def recordBad (r : List Byte) : Option Nat :=
  let bad := fun (b : Bool) (n : Nat) => if b then some n else none
  let org := rf r 12 4
  let len := rf r 8 4
  let root := rf r 16 8
  let widw := rf r 80 8
  let bands := (upFrom 0 6).map fun i => widw / 2 ^ (6 * i) % 64
  [bad (rf r 0 8 % 64 != 0) 0, bad (len % 64 != 0 || len == 0 || len > 0x30000) 8,
   bad (org % 64 != 0 || org / 2 ^ 18 != 0 || org + len > 0x30000) 12,
   bad (root % 32 != 0 || root / 2 ^ 56 != 0) 16,
   bad (rf r 40 8 % 64 != 0 && rNblk r != 0) 40,
   bad (rNact r == 0 || rNact r > 131072) 64, bad (rNblk r > 1048576) 68, nonzeroIn r 76 4,
   bad (widw / 2 ^ 36 != 0 || bands.foldl (· + ·) 0 > 64) 80, bad (rf r 88 8 > rf r 96 8) 88,
   bad (rf r 104 1 / 8 % 2 != 0 || rf r 104 1 / 64 != 0 || rPre r == 3 || ((rCls r == 0) != (rPre r == 0))) 104,
   bad (rf r 105 1 > 4) 105, bad (rf r 112 4 ≥ rNact r) 112,
   bad (rf r 116 1 == 0 || rf r 116 1 > 128) 116, bad (rf r 117 1 == 0 || rf r 117 1 > 64) 117, bad (rf r 119 1 > 63) 119,
   bad (rf r 120 1 > 15) 120, nonzeroIn r 121 3, bad (rf r 128 8 % 64 != 0) 128, nonzeroIn r 142 2,
   bad (rNpkg r == 0 || rNpkg r > 256) 144, nonzeroIn r 146 6,
   bad (rf r 152 8 % 2 != 0 || (rNpkg r == 1 && rf r 152 8 != 0)) 152, nonzeroIn r 160 351].findSome? id

/-- The first offending field of an actor entry (R336). -/
def actorBad (r e : List Byte) : Option Nat :=
  let bad := fun (b : Bool) (n : Nat) => if b then some n else none
  let wid := rf e 0 8
  let entry := rf e 32 4
  let flg := rf e 38 1
  let np := rf e 39 1 % 16 + rf e 39 1 / 16
  [bad (wid < rf r 88 8 || wid > rf r 96 8) 0,
   bad (entry % 4 != 0 || entry < rf r 12 4 || entry ≥ rf r 12 4 + rf r 8 4) 32,
   bad (rf e 36 1 > 127) 36, bad (rf e 37 1 > 63) 37, bad (flg > 7) 38, bad (np > 8) 39, bad (rf e 40 4 / 2 ^ 20 != 0) 40,
   bad (rf e 46 1 ≥ rNpkg r) 46, nonzeroIn e 47 1, nonzeroIn e 52 12,
   (upFrom 0 np).findSome? fun i => bad (rf e (64 + 4 * i) 2 ≥ rf r 72 2) (64 + 4 * i),
   nonzeroIn e (64 + 4 * np) (32 - 4 * np), nonzeroIn e 96 32].findSome? id

/-- The first offending field of a block entry. -/
def blockBad (e : List Byte) : Option Nat :=
  let bad := fun (b : Bool) (n : Nat) => if b then some n else none
  [bad (rf e 4 2 == 0) 4, nonzeroIn e 6 2, bad (rf e 8 8 ≥ 2 ^ 18) 8, bad (rf e 16 8 ≥ 2 ^ 18) 16, nonzeroIn e 24 8].findSome? id

/-- The first offending field of a pipe entry. -/
def pipeBad (r e : List Byte) : Option Nat :=
  let bad := fun (b : Bool) (n : Nat) => if b then some n else none
  let w := rf e 0 8
  [bad (w % 65536 ≥ rf r 72 2) 0, bad (w / 2 ^ 16 % 2 ^ 17 ≥ rNact r) 2, bad (w / 2 ^ 33 % 2 ^ 17 ≥ rNact r) 4,
   bad (w / 2 ^ 50 != 0) 6].findSome? id

def pipeRing (e : List Byte) : Nat := rf e 0 8 % 65536
def pipeProd (e : List Byte) : Nat := rf e 0 8 / 2 ^ 16 % 2 ^ 17
def pipeCons (e : List Byte) : Nat := rf e 0 8 / 2 ^ 33 % 2 ^ 17

/-- The ports of an actor entry: ring, rate and whether it is an output. -/
def portsOf (e : List Byte) : List (Nat × Nat × Bool) :=
  let ins := rf e 39 1 % 16
  (upFrom 0 (ins + rf e 39 1 / 16)).map fun i => (rf e (64 + 4 * i) 2, rf e (66 + 4 * i) 2, decide (ins ≤ i))

/-- The double words of a span. -/
def dwords (bs : List Byte) (n : Nat) : List Word := (entriesOf 8 n bs).map leWord

/-- Whether the grid of a record holds a core of an absent die at an origin. -/
def gridAbsent (s : State) (gx gy ox oy : Nat) : Bool :=
  (upFrom 0 4).any fun d =>
    !s.diePresent d && ox < d % 2 * 64 + 64 && d % 2 * 64 < ox + gx && oy < d / 2 * 32 + 32 && d / 2 * 32 < oy + gy

/-- The bytes of a 64-byte record in the image. -/
def imageAt (r : List Byte) (img : List Byte) (off n : Nat) : List Byte := (img.drop (off - rf r 12 4)).take n

/-- L0 of R319. -/
def initialNadir (ts : List (BitVec 32)) : Option (BitVec 32) :=
  match ts with
  | [] => some 0
  | _ => ts.find? fun l => ts.all fun t => decide (0 ≤ wrapdiff t l ∧ wrapdiff t l < 2 ^ 30)

/-- A launch active in this package under a GTB. -/
def gtbBusy (s : State) (g : Nat) : Bool := (s.dom? g).isSome

/-- R337: the first failing check. -/
def refuseLaunch (s : State) (r : List Byte) (t : Tabs) : Option Refused :=
  let acts := entries 128 (rNact r) t.act
  let blks := entries 32 (rNblk r) t.blk
  let rngs := entries 8 (rf r 72 2) t.rng
  let pips := entries 8 (rf r 74 2) t.pip
  let gx := rf r 116 1
  let gy := rf r 117 1
  let oy := rf r 119 1
  let any := rAnyOrg r
  let mine := fun (e : List Byte) => !((rf e 38 1) % 2 == 1)
  let fault := fun (x : Except Stop (List Byte)) => match x with
    | .error p => some (p.cause, p.eaddr)
    | .ok _ => none
  let rules := match t.rul with
    | .ok bs => if bs.isEmpty then none else
      let head := dwords bs 8
      if field (head.getD 0 0) 19 0 ≠ rNblk r ∨ field (head.getD 0 0) 63 20 ≠ 0 ∨ (head.drop 1).any (· != 0) then
        some (inRecord .shape 40)
      else
        ((upFrom 0 (rNblk r)).zip (entriesOf 64 (rNblk r) (bs.drop 64))).findSome? fun (i, e) =>
          ((upFrom 0 8).zip (dwords e 8)).findSome? fun (k, v) =>
            if ruleReserved v ∨ (v.getLsbD 21 = true ∧ field v 19 0 ≥ rNblk r) then some (inTable .shape 40 i (8 * k)) else none
    | .error _ => none
  let roleTaken := pips.findSome? fun (i, p) =>
    acts.findSome? fun (a, e) => (portsOf e).findSome? fun q =>
      if q.1 ≠ pipeRing p then none
      else if q.2.2 ∧ a ≠ pipeProd p then some (inTable .ring 56 i 2)
      else if ¬ q.2.2 ∧ a ≠ pipeCons p then some (inTable .ring 56 i 4) else none
  let ringBad := rngs.findSome? fun (i, e) =>
    let off := rf e 0 8
    let rec' := match t.img with
      | .ok img => if off < rf r 12 4 then none else ringRecord (imageAt r img off 64)
      | .error _ => none
    let piped := pips.any fun p => pipeRing p.2 == i
    match t.img, rec' with
    | .error _, _ => none
    | .ok _, none => some (inTable .ring 48 i 0)
    | .ok _, some q =>
      let out := fun (v : Nat) => v / 8192 == 0 && (v % 128 ≥ gx || v / 128 % 64 ≥ gy
        || (!any && !s.coreExists (rOx r + v % 128) (oy + v / 128 % 64)))
      if ¬ piped ∧ (out q.prodCore ∨ out q.consCore) then some (inTable .ring 48 i 0) else none
  let binding :=
    match acts.findSome? fun (i, e) =>
      if rf e 38 1 / 2 % 2 = 1 ∧ rf e 40 4 ≥ rNblk r then some (inTable .shape 24 i 40) else none with
    | some x => some x
    | none =>
      let bound := (acts.filter fun e => rf e.2 38 1 / 2 % 2 == 1).map fun e => rf e.2 40 4
      blks.findSome? fun (i, _) => if (bound.filter (· == i)).length ≠ 1 then some (inTable .shape 32 i 0) else none
  [ (recordBad r).map (inRecord .shape),
    acts.findSome? fun (i, e) => (actorBad r e).map (inTable .shape 24 i),
    blks.findSome? fun (i, e) => (blockBad e).map (inTable .shape 32 i),
    rngs.findSome? fun (i, e) => if rf e 0 8 ≥ 2 ^ 18 ∨ rf e 0 8 % 64 ≠ 0 then some (inTable .shape 48 i 0) else none,
    pips.findSome? fun (i, e) => (pipeBad r e).map (inTable .shape 56 i),
    (if ¬ any ∧ (rOx r + gx > 128 ∨ oy + gy > 64) then some (inRecord .shape 116) else none),
    acts.findSome? fun (i, e) =>
      if mine e && (rf e 36 1 ≥ gx || rf e 37 1 ≥ gy || (!any && !s.coreExists (rOx r + rf e 36 1) (oy + rf e 37 1)))
      then some (inTable .shape 24 i 36) else none,
    (if ¬ any ∧ gridAbsent s gx gy (rOx r) oy = true then some (inRecord .shape 116) else none),
    fault t.act, fault t.blk, fault t.rul, fault t.rng, fault t.pip, fault t.img, fault t.pkl,
    rules,
    (if (initialNadir (blks.map fun e => BitVec.ofNat 32 (rf e.2 0 4))).isNone then some (inRecord .shape 32) else none),
    roleTaken, ringBad, binding,
    (if gtbBusy s (rGtb r) then some (inRecord .shape 140) else none),
    (entries 2 (if rNpkg r ≤ 1 then 0 else rNpkg r) t.pkl).findSome? fun (i, e) =>
      if rf e 0 2 ≥ 4096 then some (inTable .shape 152 i 0) else none,
    (if rNpkg r > 1 ∧ ¬ ((entries 2 (rNpkg r) t.pkl).any fun e => rf e.2 0 2 == s.pkid) then some (inRecord .shape 152) else none)
  ].findSome? id

/-! The domain of a record. -/

/-- An actor as its entry gives it (R336); `x` and `y` are relative to the grid's origin until it is placed. -/
def actorOf (e : List Byte) : Actor :=
  { wid := leWord (e.take 8), args := dwords (e.drop 8) 3, entry := rf e 32 4, x := rf e 36 1, y := rf e 37 1,
    any := rf e 38 1 % 2 == 1, block := if rf e 38 1 / 2 % 2 = 1 then some (rf e 40 4) else none,
    gang := if rf e 38 1 / 4 % 2 = 1 then some (rf e 44 2) else none, pkg := rf e 46 1, est := rf e 48 4, ports := portsOf e }

/-- Blocks with their edges, at their initial levels; the buffers are read when the image stands (R314, R340). -/
def blocksOf (r : List Byte) (t : Tabs) : Tbl Block :=
  let acts := entries 128 (rNact r) t.act
  let bs : Tbl Block := (entries 32 (rNblk r) t.blk).map fun (i, e) =>
    let owner := (acts.find? fun a => rf a.2 38 1 / 2 % 2 == 1 && rf a.2 40 4 == i).map (·.1)
    (i, { t := BitVec.ofNat 32 (rf e 0 4), d := rf e 4 2, actor := owner.getD 0 })
  let rows := entriesOf 64 (rNblk r) ((match t.rul with | .ok bs => bs | .error _ => []).drop 64)
  bs.map fun (i, b) => (i, { b with edges := ruleEdges bs (dwords (rows.getD i []) 8) })

/-- The two buffer records of a block, in the image. -/
def blockBuffers (r : List Byte) (t : Tabs) (i : Nat) : Nat × Nat :=
  match (entries 32 (rNblk r) t.blk)[i]? with
  | some (_, e) => (rf e 8 8, rf e 16 8)
  | none => (0, 0)

/-- The domain, not placed yet. -/
def domainOf (s : State) (l : Launch) (t : Tabs) : Dom :=
  let r := l.bytes
  let bs := blocksOf r t
  let pkgs := if rNpkg r ≤ 1 then [] else (entries 2 (rNpkg r) t.pkl).map fun e => rf e.2 0 2
  let energy := rf r 106 6
  { launch := l, root := rRoot r, actors := (entries 128 (rNact r) t.act).map fun (i, e) => (i, actorOf e), blocks := bs,
    nblk := rNblk r, super := rf r 112 4,
    cls := match l.parent with | some (c, _) => max (rCls r) c | none => rCls r,
    pre := rPre r, scope := (scopeOf (rf r 105 1)).getD .core, widw := rAddr r 80, ox := rOx r, oy := rf r 119 1,
    gx := rf r 116 1, gy := rf r 117 1, taskc := rf r 120 1, test := rf r 124 4, imgorg := rf r 12 4, imglen := rf r 8 4,
    energy := if energy = 2 ^ 48 - 1 then none else some energy, cmpl := rAddr r 128, cmax := rf r 136 4,
    nested := isNested bs, nadir := (initialNadir (bs.map fun b => b.2.t)).getD 0, pkgs := pkgs, started := pkgs.isEmpty,
    tstart := s.time }

end Sys2Proof.Machine
end

