-- ==== Sys2Proof/Machine/Launch.lean ====
section
/-!
DEFINITION. Placement, start and end of a domain (R326, R339, R340, R345, R346, R349), the saving of a victim's firing (R365), and
the choice of a context (R341, R364).
-/
set_option linter.all false
namespace Sys2Proof.Machine
open Sys2Proof

/-! Saving a firing (R164, R365). -/

/-- The command that a core's vector engine runs, where it is one of a context's. -/
def runningVec (s : State) (c n : Nat) : Option VecCmd :=
  (s.core c).vecQ.head?.bind fun id => (opById s c id).bind fun o => match o.body with
    | .vec v => if o.ctx = n ∧ v.guarded.taken = .run then some v else none
    | _ => none

/-- A core's vector commands of one context leave its queue and stay with the context, in order: REIX records the next element of the
running one, and FPF the flags of those it has completed (R164). -/
def keepVectors (s : State) (c n : Nat) (f : State → (Ctx → Ctx) → State) : State :=
  let mine := (s.core c).ops.filter fun o => o.ctx == n && isVec o && live o
  let ids := mine.map (·.id)
  let stop := fun (k : Ctx) => match runningVec s c n with
    | some v => { raiseFlags k v.flags with reix := BitVec.ofNat 64 v.pos }
    | none => k
  if mine.isEmpty then s else
  let s := s.updCore c fun k =>
    { k with ops := k.ops.filter fun o => !ids.contains o.id, vecQ := k.vecQ.filter fun i => !ids.contains i }
  (f s fun k => stop { k with kept := mine ++ k.kept }).pushOnce (.vectorBeat c)

/-- What a context's instruction has asked other packages, under another context's name. -/
def moveSent (s : State) (a b : Nat × Nat) : State :=
  { s with sent := s.sent.map fun r =>
      if r.core = a.1 ∧ r.op = msgId a.2 then { r with core := b.1, op := msgId b.2 }
      else if r.core = a.1 ∧ r.op = syncId a.2 then { r with core := b.1, op := syncId b.2 } else r }

/-- Whether a request is one that a saved firing's instruction waits for: a message, or else a read or write of its own. -/
def slotSent (s : State) (d i : Nat) (r : Sent) : Option Bool :=
  if r.core ≥ 8192 ∨ dieOf r.core ≠ d then none
  else if msgId ((i + 1) * 256) ≤ r.op ∧ r.op < msgId ((i + 2) * 256) then some true
  else if syncId ((i + 1) * 256) ≤ r.op ∧ r.op < syncId ((i + 2) * 256) then some false else none

/-- A context's state goes to a save slot of its die; its operations in flight carry the slot's number (R365). -/
def saveCtx (s : State) (c x : Nat) : State :=
  let d := dieOf c
  let s := keepVectors s c x fun s f => s.updCtx c x f
  let k := s.ctx c x
  let i := freeKey (s.die d).slots
  let h := homeOfCtx s c x
  let moved := fun (o : Op) => if o.ctx = x then { o with ctx := (i + 1) * 256 + x } else o
  let s := moveSent (s.updCore c fun q => { q with ops := q.ops.map moved }) (c, x) (c, (i + 1) * 256 + x)
  let saved : SaveSlot := ⟨{ reportSlot k with away := none, p0halt := false, joinLine := none, dhalt := false, waited := 0 }, h.1, h.2⟩
  let s := s.updDie d fun t => { t with slots := Tbl.put t.slots i saved }
  let s := (s.setCtx c x {}).pushOnce (.contextResume d i)
  { s with stalled := s.stalled.filter fun p => p != (c, x) }

/-! Placement (R339). -/

/-- A context chosen for an actor or for tasks, and whether it is taken from a victim. -/
structure Spot where
  core : Nat
  ctx : Nat
  victim : Bool

/-- A core whose die is in service. -/
def coreUp (s : State) (c : Nat) : Bool :=
  s.coreExists (coreX c) (coreY c) && (s.die (dieOf c)).reset.isNone && !(s.die (dieOf c)).isolated

/-- The free contexts of a core, 0 upwards. -/
def freeCtxs (s : State) (used : List (Nat × Nat)) (c : Nat) : List Nat :=
  if coreUp s c then (upFrom 0 16).filter fun x =>
    (s.ctx c x).home.isNone && (s.ctx c x).status == .empty && !used.contains (c, x)
  else []

/-- Class and start of what holds a context, for the choice of a victim: an idle context counts as youngest. DEDUCED: log 32. -/
def victimRank (s : State) (k : Ctx) : Nat × Nat :=
  let g := match k.home with | some h => h.1 | none => 0
  (runClass (s.dom g), match k.work with | some w => w.start | none => s.time + 1)

/-- The context that a P0 placement takes: highest class number, then youngest firing; none of class 0, of a P2 launch, parked or
stopped by the debugger (R345, R357). -/
def victimOf (s : State) (used : List (Nat × Nat)) (c : Nat) : Option Nat :=
  if ¬ coreUp s c ∨ (s.die (dieOf c)).slots.length ≥ 4096 then none else
  let able := (s.core c).ctxs.filter fun e =>
    match e.2.home with
    | some (g, _) => !used.contains (c, e.1) && e.2.status != .parked && !e.2.dhalt && (s.dom g).pre != 2 && runClass (s.dom g) != 0
    | none => false
  let worse := fun (a b : Nat × Ctx) =>
    let p := victimRank s a.2
    let q := victimRank s b.2
    decide (p.1 > q.1 ∨ (p.1 = q.1 ∧ (p.2 > q.2 ∨ (p.2 = q.2 ∧ a.1 < b.1))))
  match able with
  | [] => none
  | e :: es => some (es.foldl (fun m e => if worse e m then e else m) e).1

/-- A context on a core: a free one, or a victim's for P0. -/
def spotOn (s : State) (p0 : Bool) (used : List (Nat × Nat)) (c : Nat) : Option Spot :=
  match freeCtxs s used c with
  | x :: _ => some ⟨c, x, false⟩
  | [] => if p0 then (victimOf s used c).map fun x => ⟨c, x, true⟩ else none

/-- Domains resident on a core. -/
def residents (s : State) (c : Nat) : List Nat :=
  (((s.core c).ctxs.filterMap fun e => e.2.home.map (·.1))
    ++ (s.die (dieOf c)).slots.filterMap fun v => if v.2.homeCore = c then v.2.ctx.home.map (·.1) else none).eraseDups

/-- Whether a core has room for a domain's image (R339). -/
def accepts (s : State) (d : Dom) (c : Nat) : Bool :=
  (residents s c).all fun g =>
    let q := s.dom g
    q.imgorg + q.imglen ≤ d.imgorg || d.imgorg + d.imglen ≤ q.imgorg

/-- The cores of a grid in order of y·128 + x. -/
def gridCores (d : Dom) (ox oy : Nat) : List Nat :=
  (upFrom 0 d.gy).flatMap fun y => (upFrom 0 d.gx).map fun x => (oy + y) * 128 + ox + x

/-- Contexts taken so far, and the spots by actor. -/
abbrev Placing := List (Nat × Nat) × Tbl Spot

/-- One actor placed. `gangs` gives the cluster chosen for a gang's ANY members. -/
def placeActor (s : State) (d : Dom) (ox oy : Nat) (gangs : Tbl Nat) (acc : Option Placing) (e : Nat × Actor) : Option Placing :=
  match acc with
  | none => none
  | some (used, spots) =>
    let p0 := d.cls == 0
    let spot :=
      if ¬ e.2.any then spotOn s p0 used ((oy + e.2.y) * 128 + ox + e.2.x)
      else
        let cores := (gridCores d ox oy).filter (accepts s d)
        let near := match e.2.gang.bind (Tbl.find gangs) with
          | some cl => cores.filter fun c => clusterOf c == cl
          | none => []
        (near ++ cores).findSome? fun c => spotOn s p0 used c
    match spot with
    | none => none
    | some p => some ((p.core, p.ctx) :: used, spots ++ [(e.1, p)])

/-- The first cluster of the grid with room for every ANY member of a gang. -/
def gangCluster (s : State) (d : Dom) (ox oy n : Nat) : Option Nat :=
  let cores := (gridCores d ox oy).filter (accepts s d)
  (cores.map clusterOf).eraseDups.find? fun cl =>
    n ≤ ((cores.filter fun c => clusterOf c == cl).flatMap fun c => freeCtxs s [] c).length

/-- The tables of a launch as they were read once. -/
def savedTabs (l : Launch) : Option Tabs :=
  match l.tabs.map (fun (t : List Byte) => (Except.ok t : Except Stop (List Byte))) with
  | [a, b, c, d, e, f, g] => some ⟨a, b, c, d, e, f, g⟩
  | _ => none

/-- The pipe that names a ring. -/
def ringPipe (r : List Byte) (t : Tabs) (i : Nat) : Option (List Byte) :=
  ((entries 8 (rf r 74 2) t.pip).find? fun p => pipeRing p.2 == i).map (·.2)

/-- The consumer cores of the rings that ports of this package would make live. -/
def portRings (s : State) (d : Dom) (ox oy : Nat) (spots : Tbl Spot) : List Nat :=
  match savedTabs d.launch with
  | none => []
  | some t =>
    let r := d.launch.bytes
    let img := match t.img with | .ok b => b | .error _ => []
    (entries 8 (rf r 72 2) t.rng).filterMap fun (i, e) =>
      if ¬ d.actors.any (fun a => isMine s d a.2 && a.2.ports.any fun p => p.1 == i) then none else
      match ringPipe r t i with
      | some p => (Tbl.find spots (pipeCons p)).map (·.core)
      | none => (ringRecord (imageAt r img (rf e 0 8) 64)).bind fun q =>
          let c := (ringPlaced s ox oy q).consCore
          if c < 8192 then some c else none

/-- Whether every core would hold at most 32 live rings (R108). DESIGN CHOICE (log 79): a launch whose ports would make a 33rd does not fit
there. -/
def ringsHeld (s : State) (cs : List Nat) : Bool := cs.all fun c => (cs.filter (· == c)).length + (s.core c).rings.length ≤ 32

/-- Every step of R339 at one origin: the spots of the actors, and the task contexts. -/
def placeAt (s : State) (d : Dom) (ox oy : Nat) : Option (Tbl Spot × List Spot) :=
  let mine := d.actors.filter fun e => isMine s d e.2
  let gangNos := (mine.filterMap fun e => if e.2.any then e.2.gang else none).eraseDups
  let gangs := gangNos.filterMap fun g =>
    (gangCluster s d ox oy (mine.filter fun e => e.2.any && e.2.gang == some g).length).map fun cl => (g, cl)
  match mine.foldl (placeActor s d ox oy gangs) (some ([], [])) with
  | none => none
  | some (used, spots) =>
    let tasks := (gridCores d ox oy).foldl (fun (acc : Option (List (Nat × Nat) × List Spot)) c =>
      (upFrom 0 d.taskc).foldl (fun acc _ =>
        match acc with
        | none => none
        | some (used, ts) => (spotOn s (d.cls == 0) used c).map fun p => ((c, p.ctx) :: used, ts ++ [p])) acc) (some (used, []))
    match tasks with
    | none => none
    | some (used, ts) =>
      if used.all (fun u => accepts s d u.1) && ringsHeld s (portRings s d ox oy spots) then some (spots, ts) else none

/-- The origin and placement of a domain; none while it does not fit, or while the host's notifications wait beyond 1,024 (R390). -/
def findPlace (s : State) (d : Dom) : Option (Nat × Nat × Tbl Spot × List Spot) :=
  if s.nheld.length ≥ 1024 then none else
  let tries := if rAnyOrg d.launch.bytes then
      (upFrom 0 (65 - d.gy)).flatMap fun oy => (upFrom 0 (129 - d.gx)).map fun ox => (ox, oy)
    else [(d.ox, d.oy)]
  tries.findSome? fun o =>
    if gridAbsent s d.gx d.gy o.1 o.2 then none else (placeAt s d o.1 o.2).map fun p => (o.1, o.2, p.1, p.2)

/-! Start (R340). -/

/-- SUPV of a domain (R311). The context of a supervisor on another package is not known here: a free value (log 25). -/
def supvWord (s : State) (d : Dom) : Word :=
  let w := Tbl.read d.actors d.super {}
  if isMine s d w then BitVec.ofNat 64 (w.ctx * 2 ^ 25 + w.core)
  else BitVec.ofNat 64 ((Config.freeWord s.free).toNat % 16 * 2 ^ 25 + d.pkgs.getD w.pkg 0 * 2 ^ 13 + w.y * 128 + w.x)

/-- The core of an actor, with its package above it. -/
def actorCore (s : State) (d : Dom) (a : Nat) : Nat :=
  let w := Tbl.read d.actors a {}
  if isMine s d w then w.core else d.pkgs.getD w.pkg 0 * 8192 + w.y * 128 + w.x

/-- A core as PCO and CCO name it. -/
def coreField (d : Dom) (c : Nat) : Nat := c / 8192 * 8192 + (c / 128 % 64 - d.oy) * 128 + (c % 128 - d.ox)

/-- A ring of the launch: its record's cores named by its pipe, and live where a port of this package holds a role (R109, R340). -/
def startRing (s : State) (g : Nat) (t : Tabs) (i off : Nat) : State :=
  let d := s.dom g
  let r := d.launch.bytes
  let img := match t.img with | .ok b => b | .error _ => []
  let pipe := ringPipe r t i
  match ringRecord (imageAt r img off 64) with
  | none => s
  | some q =>
    let q : LiveRing := ringPlaced s d.ox d.oy q
    let q : LiveRing := match pipe with
      | some p => { q with prodCore := actorCore s d (pipeProd p), consCore := actorCore s d (pipeCons p) }
      | none => q
    let who := natLE 4 (coreField d q.prodCore) ++ natLE 4 (coreField d q.consCore)
    let s := if pipe.isSome ∧ q.consCore < 8192 then
        (dropSharers s q.consCore off none).updCore q.consCore fun k => { k with mem := writeBytes k.mem (off + 32) who }
      else s
    let holder := fun (out : Bool) =>
      (d.actors.find? fun e => isMine s d e.2 && e.2.ports.any fun p => p.1 == i && p.2.2 == out).map fun e => (g, e.1)
    let prod := holder true
    let cons := holder false
    let s := s.updDom g fun d => { d with rings := Tbl.put d.rings i (q.consCore * 2 ^ 18 + off) }
    if prod.isNone ∧ cons.isNone then s
    else
      let live := { q with prod := prod, cons := cons, prodPort := prod.isSome, consPort := cons.isSome }
      s.updCore q.consCore fun k => { k with rings := Tbl.put k.rings off live }

/-- A shape record in a core's banks. -/
def shapeIn (s : State) (c off : Nat) : Shape :=
  match dwords (readBytes (s.core c).mem off 32) 4 with
  | [a, b, c, d] => ⟨a, b, c, d⟩
  | _ => {}

/-- The firings of a started domain become runnable (R340). -/
def startFirings (s : State) (g : Nat) : State :=
  let s := wakeActors (s.updDom g fun d => { d with started := true, tstart := s.time }) g
  let s := if (s.dom g).blocks.isEmpty then s else s.pushOnce (.nadirRefresh g)
  domCheck s g

/-- A placed domain: image, contexts, rings and blocks (R311, R314, R340). -/
def startDomain (s : State) (d : Dom) (t : Tabs) (ox oy : Nat) (spots : Tbl Spot) (tasks : List Spot) : State :=
  let g := rGtb d.launch.bytes
  let img := match t.img with | .ok b => b | .error _ => []
  let all := spots.map (·.2) ++ tasks
  let s := (all.filter (·.victim)).foldl (fun s p => saveCtx s p.core p.ctx) s
  let cores := (all.map (·.core)).eraseDups
  let s := if d.launch.replay ∧ s.replay.pass = 1 then
      { s with replay := { s.replay with images := cores.map fun c => (c, (s.core c).mem) } }
    else s
  let s := if d.launch.replay then cores.foldl (fun s c => s.updCore c fun k =>
      { k with pmcsel := putPmcsel (Tbl.read s.replay.psel (s.replay.pass - 1) 0) }) s
    else s
  let kept := fun (w : Nat) => !(d.imgorg ≤ 8 * w && 8 * w < d.imgorg + d.imglen)
  let lines := upFrom (d.imgorg / 256) ((d.imgorg + d.imglen + 255) / 256 - d.imgorg / 256)
  let s := cores.foldl (fun s c => (lines.foldl (fun s l => dropSharers s c (256 * l) none) s).updCore c fun k =>
    { k with
      mem := writeBytes k.mem d.imgorg img, fetch := none, bad := k.bad.filter kept, soft := k.soft.filter fun w => kept w.1 }) s
  let put := fun (e : Nat × Actor) =>
    match Tbl.find spots e.1 with
    | some p => (e.1, { e.2 with x := p.core % 128, y := p.core / 128, core := p.core, ctx := p.ctx })
    | none => (e.1, { e.2 with x := ox + e.2.x, y := oy + e.2.y })
  let d := { d with ox := ox, oy := oy, actors := d.actors.map put }
  let s := { s with doms := Tbl.put s.doms g d }
  let supv := supvWord s d
  let s := { s with free := s.free + 1 }
  let fresh : Ctx := { status := .idle, widl := d.widw, dgx := d.gx, dgy := d.gy, dox := ox, doy := oy, supv := supv, searched := s.time }
  let s := spots.foldl (fun s e => s.setCtx e.2.core e.2.ctx { fresh with home := some (g, some e.1) }) s
  let s := tasks.foldl (fun s p => s.setCtx p.core p.ctx { fresh with home := some (g, none) }) s
  let s := (entries 8 (rf d.launch.bytes 72 2) t.rng).foldl (fun s (i, e) => startRing s g t i (rf e 0 8)) s
  let buffers := fun (s : State) (e : Nat × Block) =>
    let w := Tbl.read (s.dom g).actors e.2.actor {}
    if ¬ isMine s d w then s else
    let o := blockBuffers d.launch.bytes t e.1
    s.updDom g fun q => { q with blocks := Tbl.put q.blocks e.1 { e.2 with x := shapeIn s w.core o.1, y := shapeIn s w.core o.2 } }
  let s := d.blocks.foldl buffers s
  if d.started then startFirings s g else s

/-! End (R326, R346, R349). -/

/-- An item's entry of the completion area (R346). -/
def itemEntry (i : Item) : List Byte :=
  wordLE i.gtid ++ natLE 1 i.kind ++ natLE 1 i.state ++ natLE 1 i.cause ++ natLE 5 0 ++ wordLE i.eaddr
    ++ natLE 8 (i.pc % 2 ^ 18 + i.core * 2 ^ 18)

/-- The completion area (R346): everything before SEAL, then SEAL. -/
def writeCompletion (s : State) (l : Launch) (status cause : Nat) (eaddr : Word) (energy tstart ndone : Nat) (items : List Item) : State :=
  let r := l.bytes
  let g := rGtb r
  let own : List Item := if status = 0 then [] else
    [⟨BitVec.ofNat 64 (g * 2 ^ 48), 3, status, cause, eaddr, 0, 0⟩]
  let items := own ++ items
  let listed := items.take (rf r 136 4)
  let count := fun (n : Nat) => (items.filter fun i => i.state == n).length
  let head := natLE 2 g ++ natLE 1 status ++ natLE 1 cause ++ natLE 4 0 ++ natLE 8 energy ++ natLE 8 tstart ++ natLE 8 s.time
    ++ natLE 8 (ndone + bitN (status == 0)) ++ natLE 4 (count 1) ++ natLE 4 (count 2) ++ natLE 4 listed.length ++ natLE 11 0
  let at' := rAddr r 128
  let s := domWrite s (rRoot r) at' head
  let s := domWrite s (rRoot r) (at' + 64) (listed.flatMap itemEntry)
  let s := domWrite s (rRoot r) (at' + 63) [r.getD 511 0]
  notify s 1 g 0 none

/-- LSTAT, LCAUSE and LGTB of the window of a launch (R334). -/
def setStat (s : State) (l : Launch) (stat cause : Nat) : State :=
  match l.win with
  | none => s
  | some w => { s with wins := Tbl.put s.wins w { Tbl.read s.wins w {} with lstat := stat, lcause := cause, lgtb := rGtb l.bytes } }

/-- A ring's live values back in its record (R108). -/
def closeRing (s : State) (key : Nat) : State :=
  let c := key / 2 ^ 18
  let off := key % 2 ^ 18
  match Tbl.find (s.core c).rings off with
  | none => s
  | some r => (dropSharers s c off none).updCore c fun k =>
    { k with mem := if c < 8192 then writeBytes k.mem (off + 16) (ringWords r) else k.mem, rings := Tbl.del k.rings off }

/-- A domain leaves the package: its contexts, slots, rings, messages, translations and queued tasks go. -/
def removeDomain (s : State) (g : Nat) : State :=
  let s := (s.dom g).rings.foldl (fun s e => closeRing s e.2) s
  let ours := fun (k : Ctx) => match k.home with | some h => h.1 == g | none => false
  let s := { s with
    cores := s.cores.map fun e => (e.1, { e.2 with
      ctxs := e.2.ctxs.filter fun x => !ours x.2
      inbox := e.2.inbox.filter fun m => m.dom != g
      smsgs := e.2.smsgs.filter fun m => m.1 != g
      deque := e.2.deque.filter fun t => t.dom != g
      overflow := e.2.overflow.filter fun t => t.2.2.dom != g })
    dies := s.dies.map fun e => (e.1, { e.2 with
      slots := e.2.slots.filter fun v => !ours v.2.ctx
      queue := e.2.queue.filter fun t => t.dom != g })
    lmsgs := s.lmsgs.filter fun m => m.2.dom != g
    faults := s.faults.filter fun f => f.dom != g
    tlb := s.tlb.filter fun t => t.dom != g
    barriers := s.barriers.filter fun b => b.dom != g
    doms := Tbl.del s.doms g }
  let s := smsgsFreed ((Tbl.keys s.dies).foldl contextsFreed s)
  if s.pendingLaunch.isEmpty then s else s.pushOnce .launchRetry

/-- A launch ends: its completion area, then its contexts are released (R326, R346). -/
def finishDomain (s : State) (g status cause : Nat) : State :=
  let d := s.dom g
  let s := writeCompletion s d.launch status cause 0 (euOf d.meter) d.tstart d.ndone d.items
  removeDomain s g

/-! Ends that the host or another package asks for (R349). -/

/-- A saved firing of a domain ends as an item. -/
def endSlot (s : State) (dn i state cause : Nat) : State :=
  match Tbl.find (s.die dn).slots i with
  | none => s
  | some v =>
    match v.ctx.work with
    | none => s
    | some w =>
      let code := fun (o : Op) => o.ctx / 256 == i + 1 && o.ctx ≥ 256
      let s := s.cores.foldl (fun s e => if dieOf e.1 ≠ dn then s else
        let s := (e.2.ops.filter code).foldl (fun s o => dropOne s e.1 o) s
        s.updCore e.1 fun k => { k with ops := k.ops.map fun o => if code o then { o with ctx := orphan } else o }) s
      let s := { s with sent := s.sent.filter fun r => (slotSent s dn i r).isNone }
      let s := match v.ctx.acc with
        | some a => s.updCore v.homeCore fun k => { k with accs := Tbl.del k.accs a }
        | none => s
      let s := settle (unbindOwn s v.ctx) w.dom (estOf s w)
      let s := if w.task.isSome then traceRec s v.homeCore w.gtid 3 0 0 else s
      let s := s.updDie dn fun t => { t with slots := Tbl.put t.slots i { v with ctx := leaveFiring v.ctx } }
      let s := itemEnds s w.dom ⟨w.gtid, bitN w.task.isSome, state, cause, 0, v.ctx.pc, v.homeCore⟩
      match w.actor with | some a => actorIdle s w.dom a true | none => s

/-- Every queued task of a domain, by core. -/
def queuedTasks (s : State) (g : Nat) : List (Nat × Task) :=
  (s.cores.flatMap fun e => ((e.2.deque ++ e.2.overflow.map (·.2.2)).filter (·.dom == g)).map fun t => (e.1, t))
    ++ s.dies.flatMap fun e => (e.2.queue.filter (·.dom == g)).map fun t => (t.core, t)

/-- Every running, saved, queued or runnable item of a domain ends ABORTED (R349). -/
def abortItems (s : State) (g cause : Nat) : State :=
  let d := s.dom g
  let due := ((Tbl.keys d.actors).filter fun a => runnable s g a).map fun a =>
    let w := Tbl.read d.actors a {}
    (⟨match w.again with | some (t, _, _) => t | none => firingGtid g a w.fired, 0, 2, cause, 0, w.entry, w.core⟩ : Item)
  let tasks := (queuedTasks s g).map fun (c, t) => (⟨t.gtid, 1, 2, cause, 0, t.pc, c⟩ : Item)
  let s := s.updDom g fun d => { d with ended := true, items := d.items ++ due ++ tasks }
  let s := s.cores.foldl (fun s e => e.2.ctxs.foldl (fun s x =>
    match x.2.work with
    | some w => if w.dom = g then endItem s e.1 x.1 (if endState x.2 = 1 then 1 else 2) (if endState x.2 = 1 then x.2.ecause.toNat else cause) false else s
    | none => s) s) s
  s.dies.foldl (fun s e => e.2.slots.foldl (fun s v =>
    match v.2.ctx.work with
    | some w => if w.dom = g then endSlot s e.1 v.1 2 cause else s
    | none => s) s) s

/-- A launch that is refused, or ends before it was placed (R337, R349). -/
def endUnplaced (s : State) (l : Launch) (status : Nat) (c : Refused) : State :=
  writeCompletion s l status c.1.code c.2 0 s.time 0 []

/-! Choosing a context (R341, R342, R364). -/

/-- Whether a context may issue but for waiting. -/
def mayIssue (s : State) (c x : Nat) : Bool :=
  let k := s.ctx c x
  let die := s.die (dieOf c)
  k.status == .ready && k.pend.isNone && !k.dhalt && !k.frozenHalt && die.reset.isNone && !die.isolated
def canIssue (s : State) (c x : Nat) : Bool :=
  mayIssue s c x && !(s.ctx c x).p0halt && !s.stalled.any (· == (c, x))

/-- Class of the launch whose work a context runs. -/
def classOf (s : State) (k : Ctx) : Nat := runClass (s.dom (domOf k))

/-- The effective class (R341). -/
def effCtx (s : State) (k : Ctx) : Nat :=
  let d := s.dom (domOf k)
  let c := runClass d
  if c = 0 then 0 else
  let floor := if d.spent then 5 else 1
  max (c - k.waited / 2 ^ s.agesh) floor

/-- The contexts of a core that can issue. -/
def issuable (s : State) (c : Nat) : List (Nat × Ctx) := (s.core c).ctxs.filter fun e => canIssue s c e.1

/-- The choice of R341 among contexts. -/
def chooseCtx (s : State) (last : Nat) (l : List (Nat × Ctx)) : Option Nat :=
  let turn := fun (x : Nat) => (x + 15 - last) % 16
  let better := fun (a b : Nat × Ctx) =>
    let p := effCtx s a.2
    let q := effCtx s b.2
    decide (p < q ∨ (p = q ∧ (a.2.waited > b.2.waited ∨ (a.2.waited = b.2.waited ∧ turn a.1 < turn b.1))))
  match l with
  | [] => none
  | e :: es => some (es.foldl (fun m e => if better e m then e else m) e).1

/-- Whether a P0 context of a core can issue. -/
def p0Can (s : State) (c : Nat) : Bool := (issuable s c).any fun e => classOf s e.2 == 0

/-- Victims of a P0 request go on where they stand once no P0 context of the core can issue (R364). -/
def unhaltCore (s : State) (c : Nat) : State :=
  if p0Can s c ∨ ¬ (s.core c).ctxs.any (fun e => e.2.p0halt) then s else
  let back := (s.core c).ctxs.filter fun e => e.2.p0halt
  let s := back.foldl (fun s e => s.updCtx c e.1 fun k => { k with p0halt := false }) s
  let s := back.foldl (fun s e => if e.2.pend.isSome then s.pushOnce (.park c e.1) else s) s
  rejoinVec s c 2

/-- CONTEXT_SELECT (R341, R345): the core's next context; a P0 one halts the others first. -/
def runContextSelect (c : Nat) (s : State) : State :=
  let s := unhaltCore s c
  let l := issuable s c
  match chooseCtx s (s.core c).last l with
  | none => s
  | some x =>
    let s := l.foldl (fun s e => s.updCtx c e.1 fun k => { k with waited := if e.1 = x then 0 else k.waited + 1 }) s
    let s := s.updCore c fun k => { k with last := x }
    let p0 := classOf s (s.ctx c x) == 0
    let victims := (s.core c).ctxs.any fun e => mayIssue s c e.1 && !e.2.p0halt && classOf s e.2 != 0
    let s := if p0 ∧ victims = true then s.pushOnce (.p0Request c) else s
    { s with cur := (c, x), selected := true }
def execContextSelect (core : Nat) (s : State) : Out := took (runContextSelect core s)

end Sys2Proof.Machine
end

