-- ==== Sys2Proof/Machine/Gang.lean ====
section
/-!
DEFINITION. How a launch comes about and ends: the launch windows (R333, R334), placement and the pending list (R339), LAUNCH (R351),
gangs across packages (R347, R348), the energy window (R343, R344), completion and abort (R326, R349), and the passes of a replay
launch (R385).
-/
set_option linter.all false
namespace Sys2Proof.Machine
open Sys2Proof

/-! Launching (R337-R340). -/

/-- The class at which a launch will run. -/
def launchClass (l : Launch) : Nat := match l.parent with | some (c, _) => max (rCls l.bytes) c | none => rCls l.bytes

/-- The tables of a launch: as they were read once, or read now. -/
def launchTabs (s : State) (l : Launch) : Got Tabs :=
  match savedTabs l with
  | some t => .ok t s
  | none => readTabs s l.bytes

def keptTabs (t : Tabs) : List (List Byte) :=
  [t.act, t.blk, t.rul, t.rng, t.pip, t.img, t.pkl].map fun x => match x with | .ok b => b | .error _ => []

/-- Refusals that hold before the record's own checks (R351, R385). -/
def refuseFirst (l : Launch) : Option Refused :=
  match l.parent with
  | some (_, false) => if rCls l.bytes = 0 ∧ rPre l.bytes = 0 then some (inRecord .priv 104) else none
  | _ =>
    if l.replay ∧ rNpkg l.bytes ≠ 1 then some (inRecord .shape 144)
    else if l.replay ∧ rPre l.bytes = 0 then some (inRecord .shape 104) else none

/-- What became of a launch. -/
inductive Launched where
  | started
  | refused (c : Refused)
  | pending (l : Launch)

/-- R337-R340 for one record: checked, placed and started, or refused, or not yet to be placed. -/
def tryLaunch (s : State) (l : Launch) : Got Launched :=
  match refuseFirst l with
  | some c => .ok (.refused c) s
  | none =>
    match launchTabs s l with
    | .wait s => .wait s
    | .bad p s => .ok (.refused (p.cause, p.eaddr)) s
    | .ok t s =>
      match refuseLaunch s l.bytes t with
      | some c => .ok (.refused c) s
      | none =>
        let l := { l with tabs := keptTabs t }
        let d := domainOf s l t
        match findPlace s d with
        | none => .ok (.pending l) s
        | some (ox, oy, spots, tasks) => .ok .started (startDomain s d t ox oy spots tasks)

/-! The gang protocol (R347, R348). Requests stand under a name of their own, their launch as the operation. -/

def gangCore : Nat := 2 ^ 34

/-- The other packages of a launch. -/
def gangPeers (s : State) (d : Dom) : List Nat := otherPkgs s d
def isCoordinator (s : State) (d : Dom) : Bool := d.pkgs.headD s.pkid == s.pkid

/-- A GANG packet: subcode 1 RESERVE with the record's first 160 bytes and its seal, 2 COMMIT, 3 ABORT, 4 a member's report, 5 the domain
is complete; with the GTB. DESIGN CHOICE of the layouts: log 25. -/
def sendGang (s : State) (p sub g : Nat) (bytes : List Byte) : State :=
  request s 0x07 0x83 p 0 bytes.length (4 + 16 * sub) 0 0 bytes gangCore g none (gtbInfo g)

/-- Requests of one subcode that a gang has out. -/
def gangSent (s : State) (g sub : Nat) : List Sent :=
  s.sent.filter fun r => r.core == gangCore && r.op == g && r.pkt.flg / 16 == sub

def updGang (s : State) (g : Nat) (f : Gang → Gang) : State :=
  s.updDom g fun d => { d with gang := d.gang.map f }

/-- ABORT to every package of a gang, whose own members end (R348). -/
def gangFail (s : State) (g cause : Nat) : State :=
  let d := s.dom g
  let peers := gangPeers s d
  let live : Bool := match d.gang with | some q => q.fate.isNone | none => false
  if ¬ live then s else
  let s := if d.started then abortItems s g cause else s.updDom g fun d => { d with ended := true }
  let s := updGang s g fun q => { q with fate := some (2, cause), aborting := peers, waitAck := [] }
  let s := { s with sent := s.sent.filter fun r => !(r.core == gangCore && r.op == g) }
  let s := peers.foldl (fun s p => sendGang s p 3 g []) s
  (s.pushOnce (.gangAbortResend g)).pushOnce (.domainComplete g)

/-- A placed launch of several packages: RESERVE from its coordinator, a reservation elsewhere. -/
def gangBegin (s : State) (g : Nat) : State :=
  let d := s.dom g
  if d.pkgs.isEmpty then s
  else if ¬ isCoordinator s d then
    (s.updDom g fun d => { d with gang := some { coordinator := d.pkgs.headD 0 }, tstart := s.time }).pushOnce (.reservationExpire g)
  else
    let peers := gangPeers s d
    let s := s.updDom g fun d => { d with gang := some { coordinator := s.pkid, waitAck := peers } }
    if peers.isEmpty then
      startFirings (updGang s g fun q => { q with committed := true }) g
    else if (unreachable s).isSome then gangFail s g Cause.gangabort.code
    else
      let r := d.launch.bytes
      let s := peers.foldl (fun s p => sendGang s p 1 g (r.take 160 ++ [r.getD 511 0])) s
      s.pushOnce (.gangReserveTimeout g)

/-- Every RESERVE acknowledged: COMMIT to every package, and the coordinator's own members start. -/
def gangCommitAll (s : State) (g : Nat) : State :=
  let peers := gangPeers s (s.dom g)
  let s := updGang s g fun q => { q with committed := true, waitAck := peers }
  let s := peers.foldl (fun s p => sendGang s p 2 g []) s
  (startFirings s g).pushOnce (.gangCommitTimeout g)

/-- A reply to a GANG request: positive, or a NACK with its EINFO. -/
def gangReply (s : State) (r : Sent) (nack : Option Nat) : State :=
  let g := r.op
  let p := r.pkt.dst
  let sub := r.pkt.flg / 16
  let gone := fun (s : State) => { s with sent := s.sent.filter fun q => q.tag != r.tag }
  match s.dom? g with
  | none => gone s
  | some d =>
    match d.gang with
    | none => gone s
    | some q =>
      match sub, nack with
      | 3, some e =>
        if e % 256 = 2 then
          -- no package answers there: its members are reported by the coordinator
          (updGang (gone s) g fun q => { q with aborting := q.aborting.filter (· != p), never := p :: q.never }).pushOnce (.domainComplete g)
        else s
      | 3, none => (updGang (gone s) g fun q => { q with aborting := q.aborting.filter (· != p) }).pushOnce (.domainComplete g)
      | 4, _ => gone s
      | 5, none => gone s
      | 5, some _ => (updGang (gone s) g fun q => { q with never := p :: q.never }).pushOnce (.domainComplete g)
      | _, some _ => gangFail (gone s) g Cause.gangabort.code
      | _, none =>
        let left := q.waitAck.filter (· != p)
        let s := updGang (gone s) g fun q => { q with waitAck := left }
        if sub = 1 ∧ left.isEmpty ∧ ¬ q.committed ∧ q.fate.isNone then gangCommitAll s g else s

/-- Whether 50 µs have passed since the requests of a subcode went out. -/
def gangOverdue (s : State) (g sub : Nat) : Bool := (gangSent s g sub).any fun r => s.time ≥ r.last + halfUs 100

/-- GANG_RESERVE_TIMEOUT (R348). -/
def runGangReserveTimeout (g : Nat) (s : State) : State :=
  if (gangSent s g 1).isEmpty then s
  else if gangOverdue s g 1 then gangFail s g Cause.gangabort.code
  else s.pushOnce (.gangReserveTimeout g)
def execGangReserveTimeout (gtb : Nat) (s : State) : Out := took (runGangReserveTimeout gtb s)

/-- GANG_COMMIT_TIMEOUT (R348). -/
def runGangCommitTimeout (g : Nat) (s : State) : State :=
  if (gangSent s g 2).isEmpty then s
  else if gangOverdue s g 2 then gangFail s g Cause.gangabort.code
  else s.pushOnce (.gangCommitTimeout g)
def execGangCommitTimeout (gtb : Nat) (s : State) : Out := took (runGangCommitTimeout gtb s)

/-- GANG_ABORT_RESEND (R348): every 50 µs until the ABORT is acknowledged or no package answers. -/
def runGangAbortResend (g : Nat) (s : State) : State :=
  let out := gangSent s g 3
  if out.isEmpty then s else
  let due := out.filter fun r => s.time ≥ r.last + halfUs 100
  let again := fun (r : Sent) =>
    if due.any (fun q => q.tag == r.tag) then { r with sends := r.sends + 1, last := s.time, nack := none } else r
  State.pushOnce { s with sent := s.sent.map again, out := s.out ++ due.map fun r => .packet r.pkt } (.gangAbortResend g)
def execGangAbortResend (gtb : Nat) (s : State) : Out := took (runGangAbortResend gtb s)

/-- RESERVATION_EXPIRE (R348): 200 µs without COMMIT. -/
def runReservationExpire (g : Nat) (s : State) : State :=
  match s.dom? g with
  | none => s
  | some d =>
    if d.started ∨ d.gang.isNone ∨ isCoordinator s d = true then s
    else if s.time < d.tstart + halfUs 400 then s.pushOnce (.reservationExpire g)
    else removeDomain s g
def execReservationExpire (gtb : Nat) (s : State) : Out := took (runReservationExpire gtb s)

/-- A member's report to its coordinator: items, counts and energy in packets of at most seven items. -/
def reportTo (s : State) (p g ndone meter : Nat) (never : Bool) : List Item → Nat → State
  | _, 0 => s
  | items, n + 1 =>
    let rest := items.drop 7
    let head := natLE 4 ndone ++ natLE 8 meter ++ natLE 1 (bitN rest.isEmpty + 2 * bitN never) ++ natLE 1 (min 7 items.length) ++ natLE 2 0
    let s := sendGang s p 4 g (head ++ (items.take 7).flatMap itemEntry)
    if rest.isEmpty then s else reportTo s p g 0 0 never rest n

/-- The items of a package with their cores named from outside. -/
def itemsOut (s : State) (items : List Item) : List Item :=
  items.map fun i => { i with core := if i.core < 8192 then i.core + s.pkid * 8192 else i.core }

/-- A member package has ended its part: it reports, and leaves (R347). -/
def memberLeaves (s : State) (g : Nat) : State :=
  let d := s.dom g
  let p := d.pkgs.headD 0
  let s := if (unreachable s).isSome then s
    else reportTo s p g d.ndone d.meter (!d.started) (itemsOut s d.items) (d.items.length / 7 + 1)
  removeDomain s g

/-- An item of a report. -/
def readItem (b : List Byte) : Item :=
  let w := rf b 24 8
  ⟨leWord (b.take 8), rf b 8 1, rf b 9 1, rf b 10 1, leWord ((b.drop 16).take 8), w % 2 ^ 18, w / 2 ^ 18⟩

/-- A member's report at the coordinator. -/
def takeReport (s : State) (g p : Nat) (b : List Byte) : State :=
  match s.dom? g with
  | none => s
  | some d =>
    if d.reported.contains p then s else
    let items := (entriesOf 32 (rf b 13 1) (b.drop 16)).map readItem
    let s := s.updDom g fun d => { d with
      ndone := d.ndone + rf b 0 4, meter := d.meter + rf b 4 8, items := d.items ++ items
      reported := if rf b 12 1 % 2 = 1 then p :: d.reported else d.reported }
    let s := if rf b 12 1 / 2 % 2 = 1 then updGang s g fun q => { q with never := p :: q.never } else s
    s.pushOnce (.domainComplete g)

/-- Members that never started, as items of kind 2 (R346, R348). -/
def neverStarted (d : Dom) (g : Nat) (pkgs : List Nat) (cause : Nat) : List Item :=
  (d.actors.filter fun e => pkgs.contains (d.pkgs.getD e.2.pkg 0)).map fun e =>
    (⟨firingGtid g e.1 0, 2, 2, cause, 0, e.2.entry, d.pkgs.getD e.2.pkg 0 * 8192 + e.2.y * 128 + e.2.x⟩ : Item)

/-- The answer of GANG requests at their target: RESERVE and COMMIT positive or negative, ABORT always taken (R347, R348). -/
def gangAnswer (s : State) (p : Packet) (ok : Bool) : State :=
  if ok then replyTo s p.cont p.src p.tag 0 [] else replyTo s 0x90 p.src p.tag 1 [4]

/-- GANG_RESERVE (R347): the package places its members, or answers negative. -/
def runGangReserve (p : Packet) (s : State) : State :=
  let r := p.payload.take 160 ++ List.replicate 351 0 ++ [p.payload.getD 160 0]
  let g := rGtb r
  match s.dom? g with
  | some d => gangAnswer s p (!d.started && !d.pkgs.isEmpty && d.pkgs.headD 0 == p.src)
  | none =>
    match tryLaunch s { bytes := r } with
    | .wait t => (keepReplies s 0 hubTab t).push (.gangReserve p)
    | .bad _ s => gangAnswer s p false
    | .ok .started s =>
      let d := s.dom g
      if d.pkgs.headD 0 = p.src ∧ ¬ isCoordinator s d then gangAnswer (gangBegin s g) p true
      else gangAnswer (removeDomain s g) p false
    | .ok _ s => gangAnswer s p false
def execGangReserve (p : Packet) (s : State) : Out :=
  took (arrive 0x07 4 p (fun s =>
    match p.flg / 16 with
    | 1 => runGangReserve p s
    | 4 => replyTo (takeReport s (packetGtb p) p.src p.payload) p.cont p.src p.tag 0 []
    | 5 => match s.dom? (packetGtb p) with
      | some d => if d.pkgs.headD 0 = p.src ∧ p.src ≠ s.pkid then gangAnswer (memberLeaves s (packetGtb p)) p true else gangAnswer s p false
      | none => gangAnswer s p false
    | _ => refuse s p 5) s)

/-- GANG_COMMIT (R347, R348): the members start, or the reservation has expired. -/
def runGangCommit (p : Packet) (s : State) : State :=
  match s.dom? (packetGtb p) with
  | none => gangAnswer s p false
  | some d =>
    match d.gang with
    | none => gangAnswer s p false
    | some q =>
      if q.coordinator ≠ p.src then gangAnswer s p false
      else if d.started then gangAnswer s p true
      else gangAnswer (startFirings (updGang s (packetGtb p) fun q => { q with committed := true }) (packetGtb p)) p true
def execGangCommit (p : Packet) (s : State) : Out := took (arrive 0x07 4 p (runGangCommit p) s)

/-- GANG_ABORT (R348): started members are ended and reported item by item; a reservation is given up. -/
def runGangAbort (p : Packet) (s : State) : State :=
  let g := packetGtb p
  match s.dom? g with
  | none =>
    let s := if (unreachable s).isSome then s else reportTo s p.src g 0 0 true [] 1
    gangAnswer s p true
  | some d =>
    match d.gang with
    | none => gangAnswer s p false
    | some q =>
      if q.coordinator ≠ p.src then gangAnswer s p false else
      let s := if d.started then abortItems s g Cause.gangabort.code else s
      gangAnswer (memberLeaves s g) p true
def execGangAbort (p : Packet) (s : State) : Out := took (arrive 0x07 4 p (runGangAbort p) s)

/-! Launch windows and the pending list. -/

/-- What a launch leaves: its window's registers, a refused one's completion area, a replay's state, a gang's first step. -/
def launched (s : State) (l : Launch) (r : Launched) : State :=
  let state := fun (s : State) (n : Nat) => if l.replay then { s with replay := { s.replay with rstat := n } } else s
  match r with
  | .started =>
    let g := rGtb l.bytes
    gangBegin (setStat (state s 2) l 0 0) g
  | .refused c => setStat (endUnplaced (state s 4) l 1 c) l 2 c.1.code
  | .pending l => setStat { s with pendingLaunch := s.pendingLaunch ++ [l] } l 3 0

/-- Replay begins with its first pass when its record is placed (R385). -/
def replayFirst (s : State) (l : Launch) : State :=
  if l.replay then
    { s with replay := { s.replay with
        pass := 1, gtb := some (rGtb l.bytes), pages := [], images := [], digests := [], digest1 := [], mismatch := false, uncapt := false } }
  else s

/-- A launch window's registers. -/
def State.win (s : State) (w : Nat) : LaunchWin := Tbl.read s.wins w {}
def State.setWin (s : State) (w : Nat) (k : LaunchWin) : State := { s with wins := Tbl.put s.wins w k }

/-- The place in host memory of the slot at WHEAD. -/
def slotAddr (k : LaunchWin) : Nat := hostAddr (k.wbase.toNat + 512 * k.whead)

/-- The dispatcher looks at its monitored line: a slot whose seal stands is copied (R333, R334). -/
def lookAt (s : State) (w : Nat) : State :=
  let k := s.win w
  if ¬ k.en ∨ k.busy then s else
  let bs := readBytes s.mem (slotAddr k) 512
  if (bs.getD 511 0).toNat = k.wseq then (s.setWin w { k with busy := true }).pushOnce (.launchWindowCopy w bs) else s

/-- Per 64-byte line, a slot as it was or as it has been rewritten since its seal (R333). -/
def slotCopy (s : State) (was now : List Byte) : List Byte × State :=
  (upFrom 0 8).foldl (fun acc i =>
    let a := (was.drop (64 * i)).take 64
    let b := (now.drop (64 * i)).take 64
    if a = b then (acc.1 ++ a, acc.2) else
    let (old, t) := acc.2.anyBit
    (acc.1 ++ (if old then a else b), t)) ([], s)

/-- LAUNCH_WINDOW_COPY (R333, R334, R339): the record of a slot whose seal was observed is copied, checked and placed. On a window
that is not copying, `bytes` is the host's own write of its slot at WHEAD. -/
def runLaunchWindowCopy (w : Nat) (bytes : List Byte) (s : State) : State :=
  let k := s.win w
  if ¬ k.busy then lookAt { s with mem := writeBytes s.mem (slotAddr k) (bytes.take 512) } w
  else if s.pendingLaunch.length ≥ 256 then s.push (.launchWindowCopy w bytes)
  else
    let (r, s') := slotCopy s bytes (readBytes s.mem (slotAddr k) 512)
    let mine := s.replay.arm && s.replay.win == w
    let l : Launch := { bytes := r, win := some w, replay := mine }
    match tryLaunch (replayFirst s' l) l with
    | .wait t => (keepReplies s 0 hubTab t).push (.launchWindowCopy w bytes)
    | .bad _ t => t
    | .ok x t =>
      let t := t.setWin w { k with busy := false, whead := (k.whead + 1) % 128, wseq := k.wseq % 255 + 1 }
      let t := if mine then { t with replay := { t.replay with arm := false } } else t
      lookAt (launched t l x) w
def execLaunchWindowCopy (w : Nat) (bytes : List Byte) (s : State) : Out := took (runLaunchWindowCopy w bytes s)

/-- WINDOW_ENABLE (R334): monitoring starts, and the line is read once. Before bring-up is complete it is not possible (R392). -/
def runWindowEnable (w : Nat) (s : State) : State :=
  if s.fw ≠ 6 then s else lookAt (s.setWin w { s.win w with en := true }) w
def execWindowEnable (w : Nat) (s : State) : Out := took (runWindowEnable w s)

/-- WINDOW_DESTROY (R349): a copy in progress completes first. -/
def runWindowDestroy (w : Nat) (s : State) : State :=
  if (s.win w).busy then s.pushOnce (.windowDestroy w) else s.setWin w { s.win w with en := false }
def execWindowDestroy (w : Nat) (s : State) : Out := took (runWindowDestroy w s)

/-- Pending launches by class and then by arrival. -/
def byClass (l : List Launch) : List Launch := (upFrom 0 8).flatMap fun c => l.filter fun q => launchClass q == c

/-- LAUNCH_RETRY (R339). -/
def runLaunchRetry (s : State) : State :=
  let (again, s) := (byClass s.pendingLaunch).foldl (fun (acc : Bool × State) l =>
    if acc.1 then acc else
    match tryLaunch (replayFirst acc.2 l) l with
    | .wait t => (true, keepReplies acc.2 0 hubTab t)
    | .bad _ t => (false, t)
    | .ok (.pending _) _ => (false, acc.2)
    | .ok x t => (false, launched { t with pendingLaunch := t.pendingLaunch.erase l } l x)) (false, s)
  if again then s.pushOnce .launchRetry else s
def execLaunchRetry (s : State) : Out := took (runLaunchRetry s)

/-! LAUNCH (R351). -/

/-- The reply of LAUNCH in the layout of R93. -/
def launchReply (l : Launch) (r : Launched) : Word :=
  match r with
  | .refused c => BitVec.ofNat 64 (2 * 2 ^ 56 + c.1.code * 2 ^ 48 + rGtb l.bytes)
  | _ => BitVec.ofNat 64 (rGtb l.bytes)

/-- LAUNCH (R351): the record is read in 64 double words, after a release at package scope. -/
def execLaunch (a d : Reg) (s : State) : Out :=
  took (issue 4 (some d) [a] (fun s =>
    let (c, x) := s.cur
    let ea := rd s.k a
    if ea.toNat % 512 ≠ 0 then .fault (stopAt .align ea) s
    else if field ea 63 62 = 1 ∧ field ea 61 50 ≥ 0xF00 then .fault (stopAt .laddr ea) s
    else
      match readWords s ea 64 with
      | .wait s => .wait s
      | .bad p s => .fault p s
      | .ok ws s =>
        let (ok, t) := releaseAt s c x .pkg s.nextId
        if ¬ ok ∨ t.pendingLaunch.length ≥ 256 then .wait s
        else
          let par := s.dom (domOf s.k)
          let l : Launch := { bytes := ws.flatMap wordLE, parent := some (runClass par, par.pre == 0) }
          match tryLaunch t l with
          | .wait u => .wait (keepReplies s 0 hubTab u)
          | .bad p u => .fault p u
          | .ok r u => .ret ((launched u l r).wrK d (launchReply l r))) s)

/-! Energy (R343, R344). -/

/-- ENERGY_WINDOW (R344): the reservoir is filled, less the debt that class-0 work carries; what waited for it is tried again. -/
def runEnergyWindow (s : State) : State :=
  let fill := s.pcap * 1000
  let s := { s with reservoir := fill - min s.debt fill, debt := s.debt - min s.debt fill, carried := s.debt - min s.debt fill }
  let s := (Tbl.keys s.doms).foldl wakeActors s
  s.cores.foldl (fun s e => e.2.ctxs.foldl (fun s x => match x.2.home with
    | some (_, none) => if x.2.work.isNone then s.pushOnce (.taskSearch e.1 x.1) else s
    | _ => s) s) s
def execEnergyWindow (s : State) : Out := took (runEnergyWindow s)

/-- ENERGY_BUDGET_SPENT (R343): the launch's class becomes 7, its MAT commands' too (R191), and the host is told once. -/
def runEnergyBudgetSpent (g : Nat) (s : State) : State :=
  match s.dom? g with
  | none => s
  | some d =>
    if d.spent then s else
    let s := s.updDom g fun d => { d with spent := true }
    let low := fun (k : Ctx) => if domOf k = g ∧ k.work.isSome = true ∧ d.cls ≠ 0 then { k with matCls := 7 } else k
    let s := { s with cores := s.cores.map fun e => (e.1, { e.2 with ctxs := e.2.ctxs.map fun x => (x.1, low x.2) }) }
    notify s 2 g 0 none
def execEnergyBudgetSpent (dom : Nat) (s : State) : Out := took (runEnergyBudgetSpent dom s)

/-! The end of a domain (R326, R347-R349). -/

/-- DOMAIN_ABORT (R349): every item still running, queued or runnable ends ABORTED, and the completion area is written. -/
def runDomainAbort (g : Nat) (s : State) : State :=
  match s.pendingLaunch.find? fun l => rGtb l.bytes == g with
  | some l =>
    if (s.dom? g).isNone then endUnplaced { s with pendingLaunch := s.pendingLaunch.erase l } l 2 (.none, 0) else s
  | none =>
    match s.dom? g with
    | none => s
    | some d =>
      if d.pkgs.length > 1 ∧ isCoordinator s d = true then gangFail s g 0
      else if d.pkgs.length > 1 then memberLeaves (if d.started then abortItems s g 0 else s) g
      else
        let s := if d.launch.replay then { s with replay := { s.replay with rstat := 3 } } else s
        finishDomain (abortItems s g 0) g 2 0
def execDomainAbort (gtb : Nat) (s : State) : Out := took (runDomainAbort gtb s)

/-- The end of a gang at its coordinator, once every package has reported its part. -/
def gangEnds (s : State) (g : Nat) (d : Dom) (q : Gang) : State :=
  let heard := (gangPeers s d).all fun p => d.reported.contains p || q.never.contains p
  if ¬ heard ∨ ¬ q.aborting.isEmpty then s else
  match q.fate with
  | some (st, cause) =>
    let mine := if d.started then [] else [s.pkid]
    finishDomain (s.updDom g fun d => { d with items := d.items ++ neverStarted d g (mine ++ q.never) cause }) g st cause
  | none => s

/-- The coordinator of a launch looks whether the whole domain is complete: each package then reports and leaves (R326, R347). -/
def gangLooks (s : State) (g : Nat) (d : Dom) : State :=
  if ¬ (quiescent s g ∧ blocksDone d = true) then s else
  match wholeRests s g 0 with
  | (none, s) => s.pushOnce (.domainComplete g)
  | (some false, s) => s
  | (some true, s) =>
    let s := updGang s g fun q => { q with fate := some (0, 0) }
    ((gangPeers s d).foldl (fun s p => sendGang s p 5 g []) s).pushOnce (.domainComplete g)

/-- DOMAIN_COMPLETE (R326): quiescent, not frozen, every block finished. -/
def runDomainComplete (g : Nat) (s : State) : State :=
  match s.dom? g with
  | none => s
  | some d =>
    match d.gang with
    | some q =>
      if ¬ isCoordinator s d then s
      else if q.fate.isSome then gangEnds s g d q else gangLooks s g d
    | none =>
      if ¬ (quiescent s g ∧ blocksDone d) then s
      else if d.launch.replay then s.pushOnce .replayPassEnd
      else finishDomain s g 0 0
def execDomainComplete (dom : Nat) (s : State) : Out := took (runDomainComplete dom s)

/-! Replay (R385). -/

/-- Every copy of a domain's lines dropped, dirty ones too: the lines of the captured pages, which hold every dirty one, and of every
page that a TLB holds for the domain. -/
def coldStart (s : State) (g : Nat) : State :=
  let leaf := fun (t : TlbEntry) => (pteHome t.leaf * 2 ^ 52 + ptePfn t.leaf * 65536, if t.big then 2 ^ 29 else 65536)
  let held := (s.tlb.filter fun (t : TlbEntry) => t.dom == g).map leaf
  let pages : List (Nat × Nat) := (held ++ s.replay.pages.map fun (e : Nat × List Byte) => (e.1 * 65536, 65536)).eraseDups
  let within := fun (addr : Nat) => pages.any fun p => decide (p.1 ≤ addr ∧ addr < p.1 + p.2)
  let cold := fun (k : Die) => { k with sectors := k.sectors.filter fun x => !within (x.1 * 64) }
  let s := { s with
    dies := s.dies.map fun e => (e.1, cold e.2)
    dir := s.dir.filter fun e => !within (e.1 * 256) }
  dropStash s (stashCores s) fun e => match e.target.place with | .dev a => within a | _ => false

/-- The digests of a pass against those of the first (R385). -/
def digestsDiffer (r : Replay) : Bool :=
  (Tbl.keys r.digests ++ Tbl.keys r.digest1).any fun k => Tbl.read r.digests k 0 != Tbl.read r.digest1 k 0

/-- REPLAY_PASS_END (R385): counters written, pages and images restored, and the record placed again or its completion written. -/
def runReplayPassEnd (s : State) : State :=
  match s.replay.gtb with
  | none => s
  | some g =>
    match s.dom? g with
    | none => s
    | some d =>
      if s.replay.rstat ≠ 2 ∨ ¬ (quiescent s g ∧ blocksDone d) then s else
      let p := s.replay.pass
      let base := s.replay.resa.toNat
      let cores := s.replay.images.map (·.1)
      -- what the hub itself records is no write of the launch (log 33)
      let missed := s.replay.uncapt
      let s := cores.foldl (fun s c =>
        hubWrite s (hostAddr (base + 0x40 + 32 * ((p - 1) * 8192 + c))) ((upFrom 0 4).flatMap fun i => wordLE (Tbl.read (s.core c).pmc i 0))) s
      let bad := s.replay.mismatch || (p > 1 && digestsDiffer s.replay)
      let head := natLE 8 (p + bitN bad * 256 + bitN missed * 512)
      let s := hubWrite s (hostAddr base) head
      let first := if p = 1 then s.replay.digests else s.replay.digest1
      let s := { s with replay := { s.replay with mismatch := bad, uncapt := missed, digest1 := first, digests := [] } }
      let last := p > s.replay.passm1
      let s := coldStart s g
      let s := s.replay.pages.foldl (fun s e => { s with mem := writeBytes s.mem (e.1 * 65536) e.2 }) s
      if last then
        let s := s.replay.images.foldl (fun s e => s.updCore e.1 fun k => { k with mem := e.2 }) s
        finishDomain { s with replay := { s.replay with rstat := 3 } } g 0 0
      else
        let s := removeDomain s g
        let s := s.replay.images.foldl (fun s e => s.updCore e.1 fun k => { k with mem := e.2 }) s
        let s := { s with replay := { s.replay with pass := p + 1 } }
        match tryLaunch s d.launch with
        | .ok .started t => t
        | .ok (.pending l) t => { t with pendingLaunch := t.pendingLaunch ++ [l] }
        | .ok (.refused c) t => launched t d.launch (.refused c)
        | .wait t => t
        | .bad _ t => t
def execReplayPassEnd (s : State) : Out := took (runReplayPassEnd s)

end Sys2Proof.Machine
end

