-- ==== Sys2Proof/Machine/Traps.lean ====
section
/-!
DEFINITION. Pre-emption (R345, R364-R366), frozen fronts (R367-R370, R372) and the host's commands for a parked supervisor (R363).
-/
set_option linter.all false
namespace Sys2Proof.Machine
open Sys2Proof

/-! FREEZE (R367). -/

/-- Every context with work of a domain other than its supervisor's that still runs: neither parked nor halted. -/
def stillRuns (s : State) (g : Nat) : Bool :=
  s.cores.any fun e => e.2.ctxs.any fun x =>
    domOf x.2 == g && x.2.work.isSome && !isSuper s x.2 && x.2.status == .ready && !x.2.p0halt && !x.2.dhalt && !x.2.frozenHalt

/-- Firings and tasks of a domain that are halted where a freeze finds them stay halted until THAW: those that wait, those that a
P0 request has halted, saved ones. DEDUCED for the last two: log 34. -/
def haltWaiting (s : State) (g : Nat) (all : Bool) : State :=
  let halt := fun (waits : Bool) (k : Ctx) =>
    if domOf k = g ∧ k.work.isSome = true ∧ isSuper s k = false ∧ k.status = .ready ∧ (waits || (all && k.p0halt)) = true
    then { k with frozenHalt := true } else k
  let waits := fun (c x : Nat) => s.stalled.any (· == (c, x))
  { s with
    cores := s.cores.map fun e => (e.1, { e.2 with ctxs := e.2.ctxs.map fun x => (x.1, halt (waits e.1 x.1) x.2) })
    dies := s.dies.map fun e => (e.1, { e.2 with slots := e.2.slots.map fun v => (v.1, { v.2 with ctx := halt all v.2.ctx }) }) }

/-- Dispatch stops, and what waits is halted. -/
def beginFreeze (s : State) (g : Nat) : State := haltWaiting (s.updDom g fun d => { d with draining := true }) g false
/-- Nothing of a domain runs any more: it is frozen. -/
def freezeNow (s : State) (g : Nat) : State :=
  (haltWaiting s g true).updDom g fun d => { stir d with frozen := true, draining := false }

/-- FREEZE (R367) as another package of the domain takes it: true once its part is frozen. -/
def freezeHere (s : State) (g : Nat) : Bool × State :=
  if (s.dom g).frozen then (true, s) else
  let s := beginFreeze s g
  if stillRuns s g ∨ untold s g = true then (false, s) else (true, freezeNow s g)

/-- Supervisor commands of a domain that have not been applied yet. -/
def commandsOnWay (s : State) (g : Nat) : Bool :=
  let ours := fun (t : Word) => field t 63 48 == g
  s.events.any fun e => match e with
    | .resume _ t => ours t
    | .resumeValue _ t _ => ours t
    | .restart _ t => ours t
    | .abort _ t => ours t
    | _ => false

/-- FREEZE (R367): dispatch stops; it retires once everything of the domain but the supervisor has ended, parked or been halted. -/
def execFreeze (s : State) : Out :=
  took (privileged .freeze none [] (fun s =>
    let g := domOf s.k
    let (c, x) := s.cur
    if (s.dom g).frozen then .ret s
    else
      let s := beginFreeze s g
      match askAll s c (msgId x) 10 g (askOthers s g [0]) with
      | .wait s => .wait s
      | .bad p s => .fault p (endFreeze s g)
      | .ok _ t => if stillRuns s g then .wait s else .ret (freezeNow (dropAsked t c (msgId x) 10 (askOthers s g [0])) g)) s)

/-- THAW (R370): after every earlier SVC of the context has been applied. -/
def execThaw (s : State) : Out :=
  took (privileged .thaw none [] (fun s =>
    let g := domOf s.k
    let (c, x) := s.cur
    match askAll s c (msgId x) 10 g (askOthers s g [3]) with
    | .wait s => .wait s
    | .bad p s => .fault p s
    | .ok _ t =>
      if commandsOnWay s g then .wait s
      else
        let t := dropAsked t c (msgId x) 10 (askOthers s g [3])
        .ret (if (s.dom g).frozen then endFreeze t g else t)) s)

/-! FRONT (R368, R369). -/

/-- The context, resident or saved, that runs an actor's firing, and whether it is saved. -/
def firingOf (s : State) (g a : Nat) : Option (Ctx × Bool) :=
  let runs := fun (k : Ctx) => match k.work with | some w => w.dom == g && w.actor == some a | none => false
  match s.cores.findSome? fun e => (e.2.ctxs.find? fun x => runs x.2).map (·.2) with
  | some k => some (k, false)
  | none => (s.dies.findSome? fun e => (e.2.slots.find? fun v => runs v.2.ctx).map (·.2.ctx)).map fun k => (k, true)

/-- STATE, CAUSE and GTID of a block's entry (R368). -/
def frontState (s : State) (g : Nat) (d : Dom) (b : Block) : Nat × Nat × Word :=
  let idle := if gateHolds b && !spreadHolds d b then 0 else 1
  let w := Tbl.read d.actors b.actor {}
  if b.fin then (0, 0, 0)
  else match w.again with
    | some (t, _, cause) => (3, cause, t)
    | none => match firingOf s g b.actor with
      | none => (idle, 0, 0)
      | some (k, saved) =>
        if k.status = .parked then (2, k.ecause.toNat % 256, gtidOf k)
        else if saved || k.p0halt || k.dhalt || k.frozenHalt then (2, 0, gtidOf k) else (idle, 0, 0)

/-- The 16 bytes of a block's entry. -/
def frontEntry (s : State) (g : Nat) (d : Dom) (b : Block) : List Byte :=
  let (st, cause, gtid) := frontState s g d b
  natLE 4 b.t.toNat ++ natLE 2 b.d ++ natLE 1 (st + 4 * bitN b.fin + 8 * bitN (spreadHolds d b)) ++ natLE 1 cause ++ wordLE gtid

/-- FRONT (R369): NB entries by plain 8-byte stores, after the context's own earlier stores and what its earlier
commands read and write there (R162, R193). -/
def execFront (a d : Reg) (s : State) : Out :=
  took (privileged (.front a d) (some d) [a] (fun s =>
    let (c, x) := s.cur
    let ea := rd s.k a
    let g := domOf s.k
    let dom := s.dom g
    if ea.toNat % 16 ≠ 0 then .fault (stopAt .align ea) s
    else if ¬ dom.frozen then .fault (stopWhy .shape 0xA1) s
    else if (opsOf s c x).any (fun o => isStore o && live o && o.done.isNone) ∨ coveredBy s c x (opsOf s c x) ea (16 * dom.nblk) then .wait s
    else
      let ask : List Ask := (upFrom 0 dom.nblk).filterMap fun j => (blockAway s g j).map fun q => (q.1, q.2, natLE 4 j)
      match askAll s c (msgId x) 12 g ask with
      | .wait s => .wait s
      | .bad p s => .fault p s
      | .ok far s =>
        let there := (ask.map fun q => q.2.2).zip far
        let bs := (upFrom 0 dom.nblk).flatMap fun j => match there.find? fun q => q.1 == natLE 4 j with
          | some q => padTo 16 q.2
          | none => frontEntry s g dom (Tbl.read dom.blocks j {})
        match writeBeat s (whoOf s c x) (syncId x) [] false (cutBy 8 ea bs) with
        | .wait t => .wait (keepReplies s c (msgId x) (keepReplies s c (syncId x) t))
        | .bad p t => .fault p (dropAsked t c (msgId x) 12 ask)
        | .ok _ t => .ret ((dropAsked (keepReplies s c (syncId x) t) c (msgId x) 12 ask).wrK d (BitVec.ofNat 64 dom.nblk))) s)

/-! P0 requests (R345, R364). -/

/-- P0_REQUEST (R364): while a P0 context of the core can issue, every lower one halts at its boundary; its vector commands stop at a
beat boundary (R164), and one that stands in a LOOP slot reports it (R294). -/
def runP0Request (c : Nat) (s : State) : State :=
  if ¬ p0Can s c then s else
  let victims := (s.core c).ctxs.filter fun e =>
    e.2.work.isSome && e.2.status == .ready && !e.2.p0halt && classOf s e.2 != 0
  victims.foldl (fun s e =>
    let s := s.updCtx c e.1 fun k => reportSlot { k with p0halt := true }
    countEv (keepVectors s c e.1 fun s f => s.updCtx c e.1 f) c e.1 0x0F 1) s
def execP0Request (core : Nat) (s : State) : Out := took (runP0Request core s)

/-- CONTEXT_SAVE (R365): a halted firing's state goes to a save slot of its die. -/
def runContextSave (c x : Nat) (s : State) : State :=
  let k := s.ctx c x
  if k.work.isNone ∨ k.status ≠ .ready ∨ ¬ (k.p0halt || k.homeOnly) then s
  else if (s.die (dieOf c)).slots.length ≥ 4096 then s.pushOnce (.contextSave c x)
  else contextsFreed (saveCtx s c x) (dieOf c)
def execContextSave (core ctx : Nat) (s : State) : Out := took (runContextSave core ctx s)

/-- Operations of a saved firing that are still out, at its cores. -/
def savedOps (s : State) (d i : Nat) : List Op :=
  s.cores.flatMap fun e => if dieOf e.1 = d then e.2.ops.filter fun o => o.ctx ≥ 256 && o.ctx / 256 == i + 1 else []

/-- The cores at which they are. -/
def outCores (s : State) (d i : Nat) : List Nat :=
  (s.cores.filter fun e => dieOf e.1 == d && e.2.ops.any fun o => o.ctx ≥ 256 && o.ctx / 256 == i + 1).map (·.1)

/-- Whether a saved firing may resume away from home (R366). -/
def mayLeaveHome (s : State) (d i : Nat) (v : SaveSlot) : Bool :=
  !(savedOps s d i).any (fun o => (isCopy o || isExch o) && live o) && v.ctx.acc.isNone && !v.ctx.homeOnly
    && (s.core v.homeCore).windows.isEmpty && !v.ctx.kept.any isMat

/-- The context at which a saved firing, or an idle actor that waits for its home, resumes (R366). -/
def resumeSpot (s : State) (d i : Nat) (v : SaveSlot) : Option (Nat × Nat) :=
  let home := (freeCtxs s [] v.homeCore)
  -- what is still out at a core keeps the firing from another one
  let stays := fun (p : Nat × Nat) => (outCores s d i).all (· == p.1)
  let spot := fun (p : Option (Nat × Nat)) => p.filter stays
  if v.ctx.work.isNone then (if home.contains v.homeCtx then some (v.homeCore, v.homeCtx) else none)
  else if ¬ mayLeaveHome s d i v then
    spot (if home.contains v.homeCtx then some (v.homeCore, v.homeCtx) else home.head?.map fun x => (v.homeCore, x))
  else
    let cores := (upFrom 0 32).flatMap fun y => (upFrom 0 64).map fun x => (d / 2 * 32 + y) * 128 + d % 2 * 64 + x
    match cores.find? fun c => !(freeCtxs s [] c).isEmpty with
    | none => none
    | some c =>
      let free := freeCtxs s [] c
      let x := if c = v.homeCore ∧ free.contains v.homeCtx then v.homeCtx else free.headD 0
      spot (some (c, x))

/-- What a saved firing's instruction has asked other packages, under the name of the context where it goes on. -/
def sentBack (s : State) (d i : Nat) (b : Nat × Nat) : State :=
  { s with sent := s.sent.map fun r => match slotSent s d i r with
      | some true => { r with core := b.1, op := msgId b.2 }
      | some false => { r with core := b.1, op := syncId b.2 }
      | none => r }

/-- A saved firing restored at a context. -/
def restoreAt (s : State) (d i : Nat) (v : SaveSlot) (c x : Nat) : State :=
  let s := s.updDie d fun t => { t with slots := Tbl.del t.slots i }
  let away := if (c, x) = (v.homeCore, v.homeCtx) then none else some (v.homeCore, v.homeCtx)
  let k := { v.ctx with away := away, p0halt := false, homeOnly := false, dhalt := v.ctx.haltReq, haltReq := false }
  let mine := fun (o : Op) => if o.ctx ≥ 256 ∧ o.ctx / 256 = i + 1 then { o with ctx := x } else o
  let s := s.setCtx c x k
  let s := dropFetch (s.updCore c fun q => { q with ops := q.ops.map mine }) c
  let s := sentBack s d i (c, x)
  match k.work with
  | none =>
    match k.home with
    | some (g, some a) => s.pushOnce (.firingDispatch g a)
    | some (_, none) => s.pushOnce (.taskSearch c x)
    | none => s
  | some _ =>
    let s := if k.pend.isSome then s.pushOnce (.park c x) else s
    let s := rejoinMat (rejoinVec s c 2) c 2
    if classOf s k = 0 then s.pushOnce (.p0Request c) else s

/-- Whether a die has a free context: a saved firing that may not take it yet tries again. -/
def roomIn (s : State) (d : Nat) : Bool := (Tbl.keys s.cores).any fun c => dieOf c == d && !(freeCtxs s [] c).isEmpty

/-- CONTEXT_RESUME (R366): a saved firing resumes in a context that is free for it; one of a lower class number goes before it. -/
def runContextResume (d i : Nat) (s : State) : State :=
  match Tbl.find (s.die d).slots i with
  | none => s
  | some v =>
    match resumeSpot s d i v with
    | none => if roomIn s d then s.pushOnce (.contextResume d i) else s
    | some (c, x) =>
      let before := (s.die d).slots.find? fun e =>
        e.1 != i && e.2.ctx.work.isSome && v.ctx.work.isSome && classOf s e.2.ctx < classOf s v.ctx && resumeSpot s d e.1 e.2 == some (c, x)
      match before with
      | some e => (s.pushOnce (.contextResume d e.1)).pushOnce (.contextResume d i)
      | none => restoreAt s d i v c x
def execContextResume (die slot : Nat) (s : State) : Out := took (runContextResume die slot s)

/-! The host's command (R361, R363). -/

/-- HOST_SUPERVISOR_COMMAND: the four double words of the supervisor-command registers, the first as just written. -/
def runHostSupervisorCommand (v : Word) (s : State) : State :=
  let gtid := Tbl.read s.supCmd 1 0
  let value := Tbl.read s.supCmd 2 0
  let op := field v 7 0
  let g := field gtid 63 48
  let un := fun (cause : Nat) => notify s 4 g 0 (some ⟨smsgHead 0 0 0 4 cause, gtid, v, 0⟩)
  if field v 63 8 ≠ 0 ∨ Tbl.read s.supCmd 3 0 ≠ 0 ∨ op = 0 ∨ op > 4 ∨ (op ≠ 2 ∧ value ≠ 0) then un 1
  else
    match (Tbl.keys s.cores).findSome? fun c => (parkedAt s c gtid).map fun x => (c, x) with
    | none => un 0
    | some (c, x) =>
      let sup := isSuper s (s.ctx c x)
      let s := match op with
        | 1 => runResume c gtid s
        | 2 => runResumeValue c gtid value s
        | 3 => runRestart c gtid s
        | _ => runAbort c gtid s
      if sup && op != 4 && (s.dom g).hostFreeze then endFreeze s g else s
def execHostSupervisorCommand (v : Word) (s : State) : Out := took (runHostSupervisorCommand v s)

end Sys2Proof.Machine
end

