-- ==== Sys2Proof/Machine/Translation.lean ====
section
/-!
DEFINITION. Translations dropped (R58, R59): TLBINV and SHOOT; PAGE_WALK (R56, R57); pages moved between dies (R61-R63) and between
packages (R64).
-/
set_option linter.all false
namespace Sys2Proof.Machine
open Sys2Proof

/-! Pages of a domain. -/

/-- Whether a 64 KiB page lies in what a TLBINV of `va` names: the page that holds it, whichever size its leaf has; every page for none. -/
def namedPage (s : State) (g : Nat) (va : Option Nat) (page : Nat) : Bool :=
  match va with
  | none => true
  | some va =>
    let bigTlb := s.tlb.any fun t => t.dom == g && t.big && t.page / 0x2000 == va / 2 ^ 29
    let bigLeaf := match walk s (s.dom g).root va with | some (_, big) => big | none => false
    page == va / 2 ^ 16 || ((bigTlb || bigLeaf) && page / 0x2000 == va / 2 ^ 29)

/-- Whether a cached leaf maps a fabric address of a peer. -/
def leafCovers (t : TlbEntry) (p f : Nat) : Bool :=
  let base := pteHome t.leaf * 2 ^ 52 + ptePfn t.leaf * 65536
  ptePeer t.leaf == p && base ≤ f && f < base + (if t.big then 2 ^ 29 else 2 ^ 16)

/-- A store that a die has accepted and the hub not yet granted. -/
def notGranted (s : State) (c id : Nat) : Bool := s.dies.any fun e => e.2.accepted.any fun a => a.who / 16 == c && a.op == id

/-- An access of a domain that was translated through a named page and is not performed yet: those of cores, and what engines have sent to
peers (R59). -/
def translatedOut (s : State) (g : Nat) (hit : Nat → Bool) : Bool :=
  let through := fun (t : Target) => match t.place with
    | .loc .. => false
    | .dev _ => hit t.page
    | .peer .. => t.mode != 0 && hit t.page
  let leaves := s.tlb.filter fun t => t.dom == g && hit t.page
  (s.cores.any fun e => e.2.ops.any fun o =>
    o.dom == g && live o && (o.done.isNone || notGranted s e.1 o.id)
      && ((match o.target with | some t => through t | none => false) || match o.body with | .range _ ts => ts.any through | _ => false))
  || s.sent.any fun r => r.got.isNone && r.nack.isNone
      && (match opById s r.core r.op with | some o => o.dom == g && isEngine o | none => false)
      && leaves.any fun t => leafCovers t r.pkt.dst r.pkt.faddr

/-- Every translation of the named pages gone from every TLB, their counters and fault-table entries cleared (R58, R59, R61). -/
def dropTranslations (s : State) (g : Nat) (va : Option Nat) : State :=
  let hit := namedPage s g va
  let s := { s with
    tlb := s.tlb.filter fun t => !(t.dom == g && hit t.page)
    migCount := s.migCount.filter fun e => !(e.1 / 4 / 2 ^ 48 == g && hit (e.1 / 4 % 2 ^ 48)) }
  clearFaults s g hit

/-- A shootdown of a page for the other packages of a domain: SHOOT carries the virtual address, and 1 for all pages, with the GTB.
DESIGN CHOICE of the layout: log 25. -/
def sendShoot (s : State) (g : Nat) (va : Option Nat) (core id : Nat) : State :=
  let pkgs := (s.dom g).pkgs.filter fun p => p != s.pkid
  pkgs.foldl (fun s p =>
    request s 0x09 0x83 p 0 9 4 0 0 (natLE 8 (va.getD 0) ++ natLE 1 (bitN va.isNone)) core id none (gtbInfo g)) s

/-! TLBINV (R59). -/

/-- TLBINV: after the context's earlier stores are performed at package scope, here and at every other package of the domain. -/
def execTlbinv (a : Reg) (s : State) : Out :=
  took (privileged (.tlbinv a) none [a] (fun s =>
    let (c, x) := s.cur
    let g := domOf s.k
    let v := rd s.k a
    if a ≠ 0 ∧ field v 63 57 ≠ 0 then .fault { cause := .xlate, eaddr := v } s
    else
      let va := if a = 0 then none else some (field v 56 0)
      let early := (opsOf s c x).any fun o => isStore o && o.status == 0 && !doneAt o .pkg
      let shoots := s.sent.filter fun r => r.core == c && r.op == syncId x && r.pkt.op == 9
      if early then .wait s
      else if shoots.isEmpty ∧ ((s.dom g).pkgs.any fun p => p != s.pkid) ∧ (unreachable s).isNone then
        .wait (sendShoot s g va c (syncId x))
      else if shoots.any (fun r => r.got.isNone && r.nack.isNone) ∨ translatedOut s g (namedPage s g va) then .wait s
      else .ret (dropTranslations (dropReplies s c (syncId x)) g va)) s)

/-- SHOOT (R59, R247): the same for a domain of another package's TLBINV or move. -/
def runShoot (p : Packet) (s : State) : State :=
  let g := packetGtb p
  let va := if rf p.payload 8 1 = 1 then none else some (rf p.payload 0 8 % 2 ^ 57)
  if translatedOut s g (namedPage s g va) then s.push (.shoot p)
  else replyTo (dropTranslations s g va) p.cont p.src p.tag 0 []
def execShoot (p : Packet) (s : State) : Out := took (arrive 0x09 4 p (runShoot p) s)

/-- PAGE_WALK (R52, R56, R57): a miss of a core on a page of a domain walks once; a leaf that passes every check is cached. -/
def runPageWalk (c g va : Nat) (s : State) : State :=
  match s.dom? g with
  | none => s
  | some d =>
    let va := va % 2 ^ 57
    if (tlbHit s c g va).isSome then s else
    let s := countEv s c 0 0x0E 1
    match walk s d.root va with
    | some (e, big) => tlbFill s c g va e big
    | none => s
def execPageWalk (core dom va : Nat) (s : State) : Out := took (runPageWalk core dom va s)

/-! Moves inside a package (R61-R63). -/

def frameAddr (home pfn : Nat) : Nat := home * 2 ^ 52 + pfn * 65536

/-- A leaf with another PFN, HOME, PEER and MODE. -/
def leafTo (e : Word) (pfn home peer mode : Nat) : Word :=
  setField (setField (setField (setField e 63 28 pfn) 23 20 home) 19 8 peer) 7 6 mode

/-- A free frame onto a die's pool, which holds 256 (R61, R391). DESIGN CHOICE: a frame whose home has no pool (far or host memory), or whose
pool is full, is dropped: log 69. -/
def poolBack (s : State) (d frame : Nat) : State :=
  if d ≥ 4 then s else s.updDie d fun k => if k.pool.length ≥ 256 then k else { k with pool := k.pool ++ [frame] }

/-- POOL_PUSH (R391). -/
def runPoolPush (d frame : Nat) (s : State) : State := poolBack s d (frame % 2 ^ 36)
def execPoolPush (die frame : Nat) (s : State) : Out := took (runPoolPush die frame s)

/-- A page's newest bytes brought home, and every copy of its lines dropped (R62). -/
def flushPage (s : State) (base : Nat) : State :=
  let mine := fun (line : Nat) => base ≤ line * 256 && line * 256 < base + 65536
  ((Tbl.keys s.dir).filter mine).foldl (fun s line =>
    let s := recallLine s line
    let s := [0, 1, 2, 3].foldl (fun s d => dropLine s d line) s
    setDir s line { dirEntry s line with owner := none, sharers := [] }) s

/-- The bytes and the poison of a page copied to another frame (R62). -/
def copyPage (s : State) (src dst : Nat) : State :=
  let s := flushPage (flushPage s src) dst
  let within := fun (base a : Nat) => base ≤ a && a < base + 65536
  let cells := s.mem.filter fun (e : Host.Cell) => within src e.1
  let rest := s.mem.filter fun (e : Host.Cell) => !within dst e.1
  let bad := (s.poison.filter fun p => within src (p * 64)).map fun p => p - src / 64 + dst / 64
  { s with
    mem := cells.foldl (fun m e => writeByte m (e.1 - src + dst) e.2) rest
    poison := (s.poison.filter fun p => !within dst (p * 64)) ++ bad }

/-- A place in a page that has moved. -/
def movedPlace (old new : Place) (p : Place) : Place :=
  let inside := (placeKey p).1 == (placeKey old).1 && (placeKey old).2 ≤ (placeKey p).2 && (placeKey p).2 < (placeKey old).2 + 65536
  if inside then placeAdd new ((placeKey p).2 - (placeKey old).2) else p

/-- What was translated to the old frame and is not performed yet is performed at the new one (R62, R64). A write that the old frame's line
kept waiting begins again. -/
def retarget (s : State) (old new : Place) : State :=
  let move := fun (t : Target) => { t with place := movedPlace old new t.place }
  let moveOp := fun (o : Op) =>
    let sent : Bool := match o.body with | .store _ _ _ _ _ b => b | _ => false
    if ¬ live o ∨ sent then o else
    { o with
      target := o.target.map move
      done := match new, o.target with
        | .peer .., some t => if (move t).place = t.place then o.done else none
        | _, _ => o.done
      body := match o.body with | .range d ts => .range d (ts.map move) | b => b }
  let inside := fun (a : Nat) => movedPlace old new (.dev a) != .dev a
  let moveAccepted := fun (a : Accepted) => match movedPlace old new (.dev a.addr) with
    | .dev b => some { a with addr := b, via := a.via.map fun v => (v.1, move v.2) }
    | _ => none
  let again := s.dies.flatMap fun e => (e.2.accepted.filter fun a => inside a.addr).map fun a => match moveAccepted a with
    | some b => Event.ownershipRequest e.1 (b.addr / 256) a.op
    | none => Event.storePerform (a.who / 16) a.op
  let s := { s with
    cores := s.cores.map fun e => (e.1, { e.2 with ops := e.2.ops.map moveOp })
    dies := s.dies.map fun e => (e.1, { e.2 with accepted := e.2.accepted.filterMap moveAccepted })
    awaiting := s.awaiting.filter fun a => !(a.g && inside (a.line * 256)) }
  again.foldl State.pushOnce s

/-- MIGRATION_START (R61, R62): the leaf is read, a frame is taken, and writes to the page stall. -/
def runMigrationStart (g va d : Nat) (s : State) : State :=
  match s.dom? g with
  | none => s
  | some q =>
    let va := va % 2 ^ 57
    match walk s q.root va, leafAddr s q.root va, (s.die d).pool with
    | some (e, false), some at', frame :: rest =>
      let home := pteHome e
      let base := frameAddr home (ptePfn e)
      let count := Tbl.read s.migCount (migKey g (va / 65536) d) 0
      if ¬ pteBit e 26 ∨ pteMode e ≠ 0 ∨ ptePeer e ≠ 0 ∨ home = d ∨ s.migth = 0 ∨ count < s.migth ∨ moving s base = true
          ∨ (s.die d).isolated = true ∨ (s.die d).reset.isSome = true then s
      else
        let (id, s) := s.fresh
        let m : Move := ⟨id, g, va / 65536 * 65536, at', e, ptePfn e, home, frame, d, 0, 0⟩
        let s := s.updDie d fun k => { k with pool := rest }
        State.push { s with moves := s.moves ++ [m] } (.migrationComplete id)
    | _, _, _ => s
def execMigrationStart (dom va die : Nat) (s : State) : Out := took (runMigrationStart dom va die s)

def dropMove (s : State) (id : Nat) : State := { s with moves := s.moves.filter fun m => m.id != id }

/-- MIGRATION_COMPLETE (R62, R63): the copy, the compare and swap of the leaf, the shootdown, the old frame back to its pool; or, where the
leaf has changed, the move is abandoned and stalled writes go where the new leaf says. DESIGN CHOICE: where the changed leaf no longer
walks they go to the old frame: log 71. -/
def runMigrationComplete (id : Nat) (s : State) : State :=
  match s.moves.find? fun m => m.id == id && m.oldPeer == 0 && m.newPeer == 0 with
  | none => s
  | some m =>
    let old := frameAddr m.oldHome m.oldPfn
    let new := frameAddr m.newHome m.newPfn
    let s := dropMove s id
    if readEntry s m.leafAddr ≠ m.leaf then
      let s := poolBack s m.newHome m.newPfn
      match walk s (s.dom m.dom).root m.va with
      | some (e, big) => retarget s (.dev old) (leafTarget s e big m.va).place
      | none => s
    else
      let s := copyPage s old new
      let s := hubWrite s m.leafAddr (wordLE (leafTo m.leaf m.newPfn m.newHome 0 0))
      let s := dropTranslations s m.dom (some m.va)
      let s := sendShoot s m.dom (some m.va) 0 (2 ^ 42)
      retarget (poolBack s m.oldHome m.oldPfn) (.dev old) (.dev new)
def execMigrationComplete (id : Nat) (s : State) : Out := took (runMigrationComplete id s)

/-! Moves between packages (R64). -/

/-- The name under which the migration engine sends. -/
def migCore : Nat := 2 ^ 35

/-- The die whose pool gives the frame: the first with one. DESIGN CHOICE: log 69. -/
def poolDie (s : State) : Option (Nat × Nat) :=
  [0, 1, 2, 3].findSome? fun d => match (s.die d).pool with | f :: _ => some (d, f) | [] => none

/-- The engine's messages, by subcode: 0 asks for a page, 1 brings 256 bytes of it, 2 says that the requester's leaf is rewritten, 3 that the
move is abandoned. The information holds the GTB and, of subcode 1, the poison of the four sectors. DESIGN CHOICE: log 25. -/
def sendMig (s : State) (peer faddr sub g : Nat) (payload : List Byte) (id : Nat) (poison : Nat := 0) : State :=
  request s 0x08 0x83 peer faddr payload.length (4 + 16 * sub) 0 0 payload migCore id none (gtbInfo g ++ natLE 1 poison)

/-- The messages of a move: those not answered, those refused, and all of them forgotten. -/
def migSent (s : State) (id : Nat) : List Sent := s.sent.filter fun r => r.core == migCore && r.op == id
def forgetMig (s : State) (id : Nat) : State := { s with sent := s.sent.filter fun r => !(r.core == migCore && r.op == id) }

/-- A move to this package ends without effect: its frame goes back, its leaf where it has been rewritten, and the stalled writes go to the old
copy (R64). -/
def abandonMove (s : State) (m : Move) : State :=
  let s := poolBack (dropMove (forgetMig s m.id) m.id) m.newHome m.newPfn
  let new := leafTo m.leaf m.newPfn m.newHome 0 0
  if readEntry s m.leafAddr = new then
    let s := dropTranslations (hubWrite s m.leafAddr (wordLE m.leaf)) m.dom (some m.va)
    retarget s (.dev (frameAddr m.newHome m.newPfn)) (.peer m.oldPeer (frameAddr m.oldHome m.oldPfn))
  else s

/-- CROSS_PACKAGE_MIGRATION (R64) at the requester. The owner is asked; its answer says that the frame holds the page, and the leaf is
rewritten, writes still stalling; the owner is told, and its second answer ends the move. A refusal or a failure of the fabric before that
abandons it. `dat` is what has come into the frame beside. -/
def runCrossPackageMigration (g va : Nat) (dat : Tbl Byte) (s : State) : State :=
  let va := va % 2 ^ 57 / 65536 * 65536
  let again := fun (s : State) => s.pushOnce (.crossPackageMigration g va dat)
  match s.moves.find? fun m => m.dom == g && m.va == va && m.oldPeer != 0 with
  | none =>
    match s.dom? g, walk s (s.dom g).root va, leafAddr s (s.dom g).root va, poolDie s with
    | some _, some (e, false), some at', some (d, frame) =>
      let p := ptePeer e
      let f := frameAddr (pteHome e) (ptePfn e)
      let count := Tbl.read s.migPage (p * 2 ^ 64 + f / 65536) 0
      if pteMode e ≠ 3 ∨ p = 0 ∨ p = s.pkid ∨ p ≥ 0xF00 ∨ s.migth = 0 ∨ count < s.migth ∨ (unreachable s).isSome = true then s
      else
        let (id, s) := s.fresh
        let m : Move := ⟨id, g, va, at', e, ptePfn e, pteHome e, frame, d, p, 0⟩
        let s := { s.updDie d (fun k => { k with pool := k.pool.drop 1 }) with moves := s.moves ++ [m] }
        again (sendMig s p f 0 g (natLE 8 va ++ natLE 8 (frameAddr d frame)) id)
    | _, _, _, _ => s
  | some m =>
    let out := migSent s m.id
    let new := frameAddr m.newHome m.newPfn
    let old := frameAddr m.oldHome m.oldPfn
    let leaf := leafTo m.leaf m.newPfn m.newHome 0 0
    let told := out.any fun r => r.pkt.flg / 16 == 2
    let tell := fun (s : State) (sub : Nat) => sendMig s m.oldPeer old sub g (natLE 8 va) m.id
    if out.isEmpty ∨ out.any (fun r => r.nack.isSome) = true then abandonMove s m
    else if out.any fun r => r.got.isNone then again s
    else if ¬ told ∧ readEntry s m.leafAddr ≠ m.leaf then abandonMove (tell s 3) m
    else if ¬ told then
      let s := dat.foldl (fun s e => if e.1 < 65536 then hubWrite s (new + e.1) [e.2] else s) s
      let s := hubWrite s m.leafAddr (wordLE leaf)
      let s := sendShoot (dropTranslations s g (some va)) g (some va) 0 (2 ^ 42)
      again (tell s 2)
    else
      let s := dropMove (forgetMig s m.id) m.id
      let s := { s with migPage := Tbl.del s.migPage (m.oldPeer * 2 ^ 64 + old / 65536) }
      retarget s (.peer m.oldPeer old) (.dev new)
def execCrossPackageMigration (dom va : Nat) (dat : Tbl Byte) (s : State) : Out := took (runCrossPackageMigration dom va dat s)

/-- The poison of the four sectors from an address, a bit each. -/
def poisonMask (s : State) (a : Nat) : Nat :=
  (upFrom 0 4).foldl (fun n i => n + (if hubPoison s (a + 64 * i) 64 then 2 ^ i else 0)) 0

/-- The page in runs of 256 bytes with their poison. -/
def sendPage (s : State) (base peer frame g id : Nat) : State :=
  (upFrom 0 256).foldl (fun s i =>
    let a := base + 256 * i
    sendMig s peer (frame + 256 * i) 1 g (hubRead s a 256) id (poisonMask s a)) s

/-- MIG (R64). At the owner, 0: writes to the page stall, it goes to the requester's frame, and once every run is answered so is the request;
2: the leaf names the requester, unless software has changed it, and the page is shot down; 3: the stalled writes go on. At the requester, 1:
a run of a page that it has asked for. -/
def runMig (p : Packet) (s : State) : State :=
  let g := packetGtb p
  let va := rf p.payload 0 8 % 2 ^ 57
  let frame := rf p.payload 8 8
  let no := fun (s : State) => replyTo s 0x90 p.src p.tag 1 [4]
  let yes := fun (s : State) => replyTo s p.cont p.src p.tag 0 []
  let ours := s.moves.find? fun m => m.dom == g && m.va == va / 65536 * 65536 && m.newPeer == p.src && p.src != 0
  match p.flg / 16, ours with
  | 0, none =>
    match s.dom? g, walk s (s.dom g).root va, leafAddr s (s.dom g).root va with
    | some _, some (e, false), some at' =>
      let base := frameAddr (pteHome e) (ptePfn e)
      if ptePeer e ≠ 0 ∨ base ≠ p.faddr ∨ moving s base = true then no s
      else
        let (id, s) := s.fresh
        let m : Move := ⟨id, g, va / 65536 * 65536, at', e, ptePfn e, pteHome e, frame % 2 ^ 52 / 65536, frame / 2 ^ 52, 0, p.src⟩
        (sendPage { s with moves := s.moves ++ [m] } base p.src frame g id).push (.mig p)
    | _, _, _ => no s
  | 0, some m =>
    let out := migSent s m.id
    if out.any fun r => r.nack.isSome then no (dropMove (forgetMig s m.id) m.id)
    else if out.any fun r => r.got.isNone then s.push (.mig p)
    else yes (forgetMig s m.id)
  | 1, _ =>
    let here := s.moves.any fun m => m.dom == g && m.oldPeer == p.src && p.src != 0 && frameAddr m.newHome m.newPfn == p.faddr / 65536 * 65536
    if ¬ here then no s
    else
      let s := hubWrite s p.faddr (p.payload.take 256)
      yes ((upFrom 0 4).foldl (fun s i => setPoison s (p.faddr / 64 + i) (rf p.info 2 1 / 2 ^ i % 2 == 1)) s)
  | 2, some m =>
    let old := frameAddr m.oldHome m.oldPfn
    let s := dropMove s m.id
    if readEntry s m.leafAddr ≠ m.leaf then no s
    else
      let s := hubWrite (flushPage s old) m.leafAddr (wordLE (leafTo m.leaf m.newPfn m.newHome m.newPeer 3))
      let s := sendShoot (dropTranslations s g (some m.va)) g (some m.va) 0 (2 ^ 42)
      yes (retarget s (.dev old) (.peer m.newPeer (frameAddr m.newHome m.newPfn)))
  | 3, some m => yes (dropMove s m.id)
  | 2, none => no s
  | 3, none => yes s
  | _, _ => refuse s p 5
def execMig (p : Packet) (s : State) : Out := took (arrive 0x08 4 p (runMig p) s)

end Sys2Proof.Machine
end

