-- ==== Sys2Proof/Machine/Coherence.lean ====
section
/-!
DEFINITION. The hub directory's moves (R222-R225), lost acknowledgements and isolation (R227, R228), host accesses (R229, R235, R388),
memory errors (R49) and die resets (R230, R391).
-/
set_option linter.all false
namespace Sys2Proof.Machine
open Sys2Proof

/-! Ownership (R223-R225). -/

/-- OWNERSHIP_REQUEST (R223, R224): the hub grants a line to a die for a store that it has accepted, the die's earlier ones to the line before
it, at once for G=0, after every acknowledgement that the line owes for G=1; the store is then performed in the die's cache. -/
def runOwnershipRequest (d line id : Nat) (s : State) : State :=
  let here := fun (a : Accepted) => a.addr / 256 == line
  match (s.die d).accepted.find? fun a => here a && a.op == id with
  | none => s
  | some a =>
    let c := a.who / 16
    let mine := fun (q : Accepted) => here q && q.op == id && q.who == a.who
    let again := fun (s : State) => s.pushOnce (.ownershipRequest d line id)
    let gone := fun (s : State) => s.updDie d fun k => { k with accepted := k.accepted.filter fun q => !mine q }
    let failed := fun (s : State) (p : Stop) => match opById s c id with
      | some o => failStore (gone s) c o p
      | none => gone s
    let first := match (s.die d).accepted.find? here with | some q => mine q | none => false
    if homeLost s a.addr ∨ dieCut s d = true then failed s (stopAt .datalost 0)
    else if moving s a.addr ∨ first = false then again s
    else
      match takeNow s d a.addr a.g c id a.who with
      | .wait s => again s
      | .bad p s => failed s p
      | .ok _ t =>
        match dieWrite (gone t) d a.addr a.bytes a.via with
        -- the sector comes first, and the write stays accepted until then
        | .wait u => again (u.updDie d fun k => { k with accepted := (t.die d).accepted })
        | .bad p s => failed s p
        | .ok _ s =>
          match opById s c id with
          | none => s
          | some o =>
            if o.cause = .visfail then reportVis s c o
            else if s.awaiting.any fun q => q.core == c && q.op == id then updOp s c id fun o => { o with done := some .die }
            else dropOp s c id
def execOwnershipRequest (die line id : Nat) (s : State) : Out := took (runOwnershipRequest die line id s)

/-- INVALIDATION_ACK (R223). One that arrives after the die was declared unresponsive is discarded (R227). -/
def runInvalidationAck (d line : Nat) (s : State) : State := if (s.die d).isolated then s else ackLine s d line
def execInvalidationAck (die line : Nat) (s : State) : Out := took (runInvalidationAck die line s)

/-- INVALIDATION_RESEND (R227): at 0.5, 1.0 and 1.5 µs after the first send. -/
def runInvalidationResend (d line : Nat) (s : State) : State :=
  let e := dirEntry s line
  match e.owed.find? fun h => h.1 == d with
  | none => s
  | some (_, sends, first) =>
    if sends ≥ 4 then s
    else if s.time < first + halfUs sends then s.pushOnce (.invalidationResend d line)
    else
      let more := fun (h : Nat × Nat × Nat) => if h.1 = d then (d, h.2.1 + 1, h.2.2) else h
      (setDir s line { e with owed := e.owed.map more }).pushOnce (.invalidationResend d line)
def execInvalidationResend (die line : Nat) (s : State) : Out := took (runInvalidationResend die line s)

/-! Isolation (R227, R228). -/

/-- EINFO of a VISFAIL (R228). -/
def visInfo (d : Nat) (g eng : Bool) : Word := BitVec.ofNat 64 (d + 4 * bitN g + 8 * bitN eng)

/-- (old - 1) OR 2^63 on the counter of a task that ends with its die (R302): in this package's memory or in a core's banks. A counter at
a peer is left as it is: log 35. -/
def counterLost (s : State) (c x : Nat) (ea : Word) : State :=
  let failed := fun (bs : List Byte) => wordLE ((leWord bs - 1) ||| BitVec.ofNat 64 (2 ^ 63))
  match access s c x ea true true with
  | (.ok t, s) =>
    match t.place with
    | .dev a => if isOwn a then hubWrite s a (failed (hubRead s a 8)) else s
    | .loc h o => s.updCore h fun k => { k with mem := writeBytes k.mem o (failed (readBytes k.mem o 8)) }
    | .peer .. => s
  | (.error _, s) => s

/-- Every firing and task on a die ends as an item, with its task counter (R228, R230, R302). Its exchanges end first: the active ones abandon
the others, and the hub abandons every other party there (R281). -/
def endOnDie (s : State) (d state cause : Nat) : State :=
  let there := s.exchs.filter fun e => dieOf e.core == d && !e.ended
  let s := there.foldl (fun s e =>
    if e.active then endExch (abandonAll s e cause) e 4 0 {cause := .none} else endExch s e 1 0 {cause := .none}) s
  let s := abandonParties s (fun c => c < 8192 && dieOf c == d) cause
  let s := (s.cores.filter fun e => dieOf e.1 == d).foldl (fun s e => e.2.ctxs.foldl (fun s x =>
    match x.2.work with
    | none => s
    | some w =>
      let s := match w.task with
        | some t => if t.counter = 0 then s else counterLost s e.1 x.1 t.counter
        | none => s
      endItem s e.1 x.1 state cause false) s) s
  (s.die d).slots.foldl (fun s v => endSlot s d v.1 state cause) s

/-- Tasks that wait on a die: they are reported with its resident ones. -/
def dropQueued (s : State) (d state cause : Nat) : State :=
  let q := (s.cores.filter fun e => dieOf e.1 == d).flatMap fun e => (e.2.deque ++ e.2.overflow.map (·.2.2)).map fun t => (e.1, t)
  let all := q ++ (s.die d).queue.map fun t => (t.core, t)
  let s := all.foldl (fun s (c, t) =>
    let s := if t.counter = 0 then s else counterLost s t.core t.ctx t.counter
    itemEnds s t.dom ⟨t.gtid, 1, state, cause, 0, t.pc, c⟩) s
  { s.updDie d (fun k => { k with queue := [] }) with
    cores := s.cores.map fun e => if dieOf e.1 = d then (e.1, { e.2 with deque := [], overflow := [] }) else e }

/-- Every line that a die owned is poisoned at its home, and the die leaves every directory entry; lines that only it still owed are
acknowledged (R227, R230). -/
def leaveDirectory (s : State) (d : Nat) (poisons : Bool) : State :=
  let s := s.dir.foldl (fun s e =>
    let q := dirEntry s e.1
    let s := if q.owner = some d ∧ poisons = true ∧ isOwn (e.1 * 256) = true then
        (lineSecs e.1).foldl (fun s sec => hubLog (setPoison s sec true) (sec * 64) 3) s
      else s
    setDir s e.1 { q with owner := if q.owner = some d then none else q.owner, sharers := q.sharers.filter (· != d) }) s
  let owed := (s.dir.filter fun e => e.2.owed.any fun h => h.1 == d).map (·.1)
  owed.foldl (fun s line => ackLine s d line) s

/-- The writes that wait for a die's acknowledgement. -/
def waitFor (s : State) (d : Nat) : List Awaiting :=
  let lines := (s.dir.filter fun e => e.2.owed.any fun h => h.1 == d).map (·.1)
  s.awaiting.filter fun a => lines.contains a.line

/-- What the isolation of a die does to the writes that waited for its acknowledgement (R228): G=1 ones will end with VISFAIL, G=0 ones
are listed and reported once for each firing. -/
def markVisfail (s : State) (d : Nat) : State :=
  let hit := waitFor s d
  let s := hit.foldl (fun s a => match opById s a.core a.op with
    | none =>
      s
    | some o =>
      let eng := isEngine o || isExch o
      if a.g then updOp s a.core a.op fun o => { o with cause := .visfail, reply := visInfo d true eng }
      else if eng then s
      else updOp s a.core a.op fun o => { o with status := 1, cause := .visfail, reply := visInfo d false false }) s
  let early := hit.filterMap fun a => if a.g then none else
    (opById s a.core a.op).bind fun o => if isStore o || isAmo o then some (a.core, o) else none
  let firsts := early.foldl (fun (acc : List (Nat × Op)) e => if acc.any (fun f => f.2.gtid == e.2.gtid) then acc else acc ++ [e]) []
  firsts.foldl (fun s e =>
    if (s.dom? e.2.dom).isNone then s
    else toSuper s e.2.dom ⟨smsgHead e.1 (e.2.ctx % 16) e.2.pc 1 Cause.visfail.code, e.2.gtid, e.2.addr, visInfo d false false⟩) s

/-- The writes with G=1 that waited are performed in the same step (R227); what engines write goes on in their own moves, the line being kept
from every reader until then. -/
def completeWaiting (s : State) (hit : List Awaiting) : State :=
  (hit.filter (·.g)).foldl (fun s a =>
    match opById s a.core a.op with
    | some o => if isStore o then runOwnershipRequest a.die a.line a.op s else if isAmo o then runAmoPerform a.core a.op s else s
    | none => s) s

/-- What the cores of a die had under way is gone with its spoke (R227), and so are its caches. -/
def cutOff (s : State) (d : Nat) : State :=
  let ours := fun (c : Nat) => c < 8192 && dieOf c == d
  let after := fun (k : Core) => { k with ops := [], copyQ := [], chans := [], vecQ := [], matQ := [], portQ := [], stash := [] }
  { s.updDie d (fun k => { k with isolated := true, sectors := [], first := [], lru := [], accepted := [] }) with
    cores := s.cores.map fun e => if ours e.1 then (e.1, after e.2) else e
    awaiting := s.awaiting.filter fun a => !ours a.core
    exchs := s.exchs.filter fun e => !ours e.core
    sent := s.sent.filter fun r => !ours r.core }

/-- DIE_UNRESPONSIVE (R227, R228): 2 µs after the first send of an invalidation without its acknowledgement. -/
def runDieUnresponsive (d : Nat) (s : State) : State :=
  let owes := fun (e : Nat × DirEntry) => e.2.owed.any fun h => h.1 == d
  let late := fun (e : Nat × DirEntry) => e.2.owed.any fun h => h.1 == d && h.2.2 + halfUs 4 ≤ s.time
  if (s.die d).isolated then s
  else if ¬ s.dir.any late then (if s.dir.any owes then s.pushOnce (.dieUnresponsive d) else s)
  else
    let code := Cause.visfail.code
    let hit := (waitFor s d).filter fun a => !(a.core < 8192 && dieOf a.core == d)
    let s := cutOff (endOnDie (dropQueued (markVisfail s d) d 1 code) d 1 code) d
    notify (completeWaiting (leaveDirectory s d true) hit) 3 0 (BitVec.ofNat 64 d) none
def execDieUnresponsive (die : Nat) (s : State) : Out := took (runDieUnresponsive die s)

/-! Die resets (R230, R391). -/

/-- A context of any domain is resident on a die. -/
def dieResident (s : State) (d : Nat) : Bool :=
  (s.cores.any fun e => dieOf e.1 == d && e.2.ctxs.any fun x => x.2.home.isSome) || !(s.die d).slots.isEmpty

/-- A core after a reset of its die: its registers at their reset values; what stands in its banks stays. DESIGN CHOICE: log 36. -/
def coreAfter (k : Core) : Core := { mem := k.mem, bad := k.bad, elog := k.elog }

/-- The die's own state at the start of a reset: its caches are empty, its host registers and pool stay. -/
def beginReset (s : State) (d : Nat) (forced : Bool) : State :=
  let s := s.updDie d fun k =>
    { k with
      sectors := [], first := [], lru := [], accepted := [], queue := [], slots := [], isolated := false, reset := some forced, rstat := 2 }
  -- no stash holds a copy of the die's banks whose directory is gone
  let s := dropStash s (stashCores s) fun e => match e.target.place with | .loc h _ => dieOf h == d | _ => false
  let after := fun (e : Nat × Core) => if dieOf e.1 = d then (e.1, coreAfter e.2) else e
  let ops := fun (o : Nat) => o < 8192 && dieOf o == d
  State.pushOnce { s with
    cores := s.cores.map after
    tlb := s.tlb.filter fun t => !((t.level == 2 && t.inst == d) || (t.level == 0 && dieOf t.inst == d)
      || (t.level == 1 && dieOf (t.inst / 32 * 512 + t.inst % 32 * 4) == d))
    tags := s.tags.filter fun t => homeDie (t.1 * 64) != d
    awaiting := s.awaiting.filter fun a => !ops a.core
    exchs := s.exchs.filter fun e => dieOf e.core != d
    sent := s.sent.filter fun r => !ops r.core } (.dieResetEnd d)

/-- Stores of the die's cores, or accepted by its cache, that are not performed. -/
def storesLeft (s : State) (d : Nat) : Bool :=
  !(s.die d).accepted.isEmpty || s.cores.any fun e => dieOf e.1 == d && e.2.ops.any fun o => o.status == 0 && isStore o

/-- DIE_RESET_GRACEFUL (R230): refused while a context is resident; what is still to be stored is stored, and dirty sectors are written back
first. -/
def runDieResetGraceful (d : Nat) (s : State) : State :=
  if ¬ s.diePresent d ∨ (s.die d).reset.isSome = true then s
  else if dieResident s d then s.updDie d fun k => { k with rstat := 1 }
  else if storesLeft s d then s.pushOnce (.dieResetGraceful d)
  else
    let s := (Tbl.keys (s.die d).sectors).foldl (fun s sec => writeBack s d sec) s
    beginReset (leaveDirectory s d false) d false
def execDieResetGraceful (die : Nat) (s : State) : Out := took (runDieResetGraceful die s)

/-- DIE_RESET_FORCED (R230): the only dirty copies turn into poison, and everything resident is reported ABORTED. -/
def runDieResetForced (d : Nat) (s : State) : State :=
  if ¬ s.diePresent d ∨ (s.die d).reset.isSome = true then s
  else beginReset (leaveDirectory (endOnDie (dropQueued s d 2 0) d 2 0) d true) d true
def execDieResetForced (die : Nat) (s : State) : Out := took (runDieResetForced die s)

/-- DIE_RESET_END (R230): accesses that waited for the die's near memory are performed, and launches placed again. -/
def runDieResetEnd (d : Nat) (s : State) : State :=
  if (s.die d).reset.isNone then s else
  contextsFreed (s.updDie d fun k => { k with reset := none, rstat := 0 }) d
def execDieResetEnd (die : Nat) (s : State) : Out := took (runDieResetEnd die s)

/-! The host (R50, R229, R388). -/

/-- The name under which the hub's agents outside every die hold a line. -/
def hostCore : Nat := 2 ^ 36

/-- The home address behind an offset of the host's range; none where the die is absent or nothing lies there. -/
def hostPlace (s : State) (off : Nat) : Option Nat :=
  if off < 0x2000000000 then
    let d := off / 0x800000000
    if s.diePresent d then some (d * 2 ^ 52 + off % 0x800000000) else none
  else if off < 0x2000000000 + 2 * 0x4000000000 then
    let m := (off - 0x2000000000) / 0x4000000000
    let o := (off - 0x2000000000) % 0x4000000000
    if s.memDiePresent m && (s.diePresent 3 || o < 0x400000 * 65536) then some ((4 + m) * 2 ^ 52 + o) else none
  else none

/-- HOST_CXL_READ (R50, R229, R388): each sector as its line's serialisation point holds it. -/
def runHostCxlRead (off n : Nat) (s : State) : State :=
  match hostPlace s off with
  | none => s.emit (.hostError off)
  | some a =>
    if homeBlocked s a then s.push (.hostCxlRead off n)
    else if homeLost s a then s.emit (.hostError off)
    else
      let m := min n (64 - a % 64)
      let s := s.emit (.hostRead off (hubRead s a m) (hubPoison s a (max m 1)))
      if m < n then s.push (.hostCxlRead (off + m) (n - m)) else s
def execHostCxlRead (off n : Nat) (s : State) : Out := took (runHostCxlRead off n s)

/-- HOST_CXL_WRITE (R50, R229, R388): a G=1 write by an agent outside every die; a partial one of a poisoned sector is not performed. -/
def runHostCxlWrite (off : Nat) (bytes : List Byte) (s : State) : State :=
  match hostPlace s off with
  | none => s.emit (.hostError off)
  | some a =>
    let now := bytes.take (64 - a % 64)
    let later := bytes.drop (64 - a % 64)
    let line := a / 256
    let mine := fun (q : Awaiting) => q.line == line && q.core == hostCore
    if homeBlocked s a ∨ moving s a = true ∨ s.awaiting.any (fun q => q.line == line && q.g && !mine q) then s.push (.hostCxlWrite off bytes)
    else
      let rest := fun (s : State) => if later.isEmpty then s else s.push (.hostCxlWrite (off + now.length) later)
      if homeLost s a ∨ (now.length < 64 ∧ hubPoison s a (max now.length 1) = true) then rest (s.emit (.hostError off))
      else
        let s := invalidate s line none
        if (dirEntry s line).owed.isEmpty then
          rest (hubWrite { s with awaiting := s.awaiting.filter fun q => !mine q } a now)
        else
          let s := if s.awaiting.any mine then s else { s with awaiting := s.awaiting ++ [⟨0, line, hostCore, line, true, nobody⟩] }
          s.push (.hostCxlWrite off bytes)
def execHostCxlWrite (off : Nat) (bytes : List Byte) (s : State) : Out := took (runHostCxlWrite off bytes s)

/-- CXL_CACHE_SNOOP (R235, R333): a host-memory line that the package holds goes back to the host; a window whose monitored line it is
is looked at again. -/
def runCxlCacheSnoop (line : Nat) (s : State) : State :=
  if s.awaiting.any (fun q => q.line == line && q.g) then s.push (.cxlCacheSnoop line) else
  let s := recallLine s line
  let s := [0, 1, 2, 3].foldl (fun s d => dropLine s d line) s
  let s := setDir s line { dirEntry s line with owner := none, sharers := [] }
  let s := wroteDev s (line * 256)
  (Tbl.keys s.wins).foldl (fun s w => if (slotAddr (s.win w) + 511) / 256 = line then lookAt s w else s) s
def execCxlCacheSnoop (line : Nat) (s : State) : Out := took (runCxlCacheSnoop line s)

/-- MEMORY_ERROR_DETECTED (R49, R386, R390): an uncorrectable error in near or far memory poisons its sector. -/
def runMemoryErrorDetected (addr : Nat) (s : State) : State :=
  if homeOf addr > 5 ∨ addr ≥ 2 ^ 56 ∨ ¬ homePresent s (homeOf addr) then s
  else hubLog (setPoison s (addr / 64) true) (addr / 64 * 64) 2
def execMemoryErrorDetected (addr : Nat) (s : State) : Out := took (runMemoryErrorDetected addr s)

end Sys2Proof.Machine
end

