-- ==== Sys2Proof/Machine/Fabric.lean ====
section
/-!
DEFINITION. Callyn packets that reach this package (R246-R252): requests of peers performed here, their replies, group writes through this
package's switches (R253-R257), configuration writes (R259, R260) and link groups that fail (R261).
-/
set_option linter.all false
namespace Sys2Proof.Machine
open Sys2Proof

/-! Requests performed at this package (R235, R242, R248). -/

/-- The place that a fabric address names here (R246); none for a reserved or absent home, an offset beyond it, or no core. -/
def targetPlace (s : State) (f n : Nat) : Option Place :=
  if f / 2 ^ 62 = 1 then
    let x := f / 2 ^ 43 % 128
    let y := f / 2 ^ 37 % 64
    let off := f % 2 ^ 18
    if f / 2 ^ 50 % 4096 ≠ 0 ∨ f / 2 ^ 18 % 2 ^ 19 ≠ 0 ∨ s.coreExists x y = false ∨ off + n > 0x40000 then none
    else some (.loc (y * 128 + x) off)
  else if f ≥ 2 ^ 56 then none
  else match homeFrames (homeOf f) with
    | none => none
    | some k => if homePresent s (homeOf f) && f % 2 ^ 52 + n ≤ k * 65536 then some (.dev f) else none

/-- The request that a pending move brings. -/
def requestOf (e : Event) : Option Packet :=
  match e with
  | .rd p | .wr p | .amo p | .gwr p | .xrun p | .msg p | .gangReserve p | .gangCommit p | .gangAbort p | .mig p | .shoot p | .nadir p => some p
  | _ => none

/-- Two requests of one source that are performed in the order in which they were sent: to one line of one target, or to one group (R245,
R248, R255). -/
def sentInOrder (p q : Packet) : Bool := p.src == q.src && p.dst == q.dst && (p.dst ≥ 0xF00 || p.faddr / 256 == q.faddr / 256)

/-- A request that has to wait goes behind the pending moves, and what its source sent to the line after it goes behind it (R248). -/
def laterBehind (s : State) (p : Packet) (e : Event) : State :=
  let same := fun (q : Event) => match requestOf q with | some k => sentInOrder p k | none => false
  { s with events := s.events.filter (fun q => !same q) ++ [e] ++ s.events.filter same }

/-- A read by an agent of system scope. -/
def targetRead (s : State) (t : Place) (n : Nat) : Got (List Byte) :=
  match t with
  | .loc c off => bankRead s c off n
  | .dev a =>
    if homeBlocked s a then .wait s
    else if homeLost s a ∨ hubPoison s a (max n 1) = true then .bad (stopAt .datalost 0) s
    else if homeOf a = 8 then
      let t := { s with free := s.free + 1 }
      if Config.hostFails s.free then .bad (nackStop 0 4) t else .ok (hubRead t a n) t
    else .ok (hubRead s a n) s
  | .peer .. => .bad (stopAt .xlate 0) s

/-- Bytes cut at sector boundaries. -/
def bySector (a : Nat) (bs : List Byte) : List (Nat × List Byte) :=
  if bs.isEmpty then [] else
  (upFrom (a / 64) ((a + bs.length - 1) / 64 + 1 - a / 64)).map fun k =>
    let lo := max a (k * 64)
    let hi := min (a + bs.length) (k * 64 + 64)
    (lo, (bs.drop (lo - a)).take (hi - lo))

/-- The name under which the hub writes for peers. -/
def agentCore : Nat := 2 ^ 37

/-- Whether some cut meets poison with fewer than 64 bytes (R50). -/
def spoils (s : State) (cut : List (Nat × List Byte)) : Bool := cut.any fun e => e.2.length < 64 && hubPoison s e.1 e.2.length

/-- The lines of sector-wise writes taken from every die (R223, R229): whether the write may be performed, for G=0 at once, for G=1 after every
acknowledgement. It stands among the awaiting ones while something is owed. -/
def agentTake (s : State) (cut : List (Nat × List Byte)) (id : Nat) (g : Bool) : Bool × State :=
  let lines := (cut.map fun e => e.1 / 256).eraseDups
  let mine := fun (q : Awaiting) => q.core == agentCore && q.op == id
  if cut.any (fun e => homeBlocked s e.1 || moving s e.1) ∨ s.awaiting.any (fun q => q.g && !mine q && lines.contains q.line) then (false, s)
  else
    let s := lines.foldl (fun s l => invalidate s l none) s
    let owed := lines.filter fun l => owes s l
    let rest := s.awaiting.filter fun q => !mine q
    (owed.isEmpty || !g, { s with awaiting := rest ++ owed.map fun l => ⟨0, l, agentCore, id, g, nobody⟩ })

/-- A write of device memory for a peer, with its G among the dies of this package (R221, R223, R248). One that meets poison with fewer than
64 bytes is not performed at all (R50, R252). -/
def agentWrite (s : State) (a : Nat) (bs : List Byte) (id : Nat) (g : Bool) : Got Unit :=
  let cut := bySector a bs
  if homeLost s a ∨ spoils s cut = true then .bad (stopAt .datalost 0) s
  else
    let (ok, s) := agentTake s cut id g
    if ok then .ok () (cut.foldl (fun s e => if g then hubWrite s e.1 e.2 else hubWriteEarly s e.1 e.2) s) else .wait s

def targetWrite (s : State) (t : Place) (bs : List Byte) (id : Nat) (g : Bool) : Got Unit :=
  match t with
  | .loc c off => if off ≥ bankEnd then .ok () (windowWrite s c off bs) else bankWrite s c off bs
  | .dev a => agentWrite s a bs id g
  | .peer .. => .bad (stopAt .xlate 0) s

/-- The reply of a request with its CONT; one by DEP goes to RADDR. -/
def answer (s : State) (p : Packet) (bs : List Byte) : State :=
  if p.cont = 0x81 then
    State.emit { dropInbound s p.src p.tag with seqOut := s.seqOut + 1 }
      (.packet ⟨0x81, 0, s.pkid, p.src, s.seqOut % 65536, 0, bs.length, 0, 0, p.tag, p.raddr, bs, []⟩)
  else replyTo s p.cont p.src p.tag bs.length bs

/-- RD (R247, R248). -/
def runRd (p : Packet) (s : State) : State :=
  match targetPlace s p.faddr p.len with
  | none => refuse s p 4
  | some t =>
    match targetRead s t p.len with
    | .ok bs s => answer s p bs
    | .wait s => laterBehind s p (.rd p)
    | .bad _ s => refuse s p 4
def execRd (p : Packet) (s : State) : Out := took (arrive 0x01 0 p (runRd p) s)

/-- A name for a peer's request among the awaiting writes. -/
def packetId (p : Packet) : Nat := p.src * 2 ^ 32 + p.tag
/-- The packet's G (R246). -/
def packetG (p : Packet) : Bool := p.flg / 8 % 2 == 1

/-- What a waiting request has done: a write performed, an AMO admitted (nothing yet) or executed (its old value). -/
def wroteOf (s : State) (p : Packet) : Option (List Byte) := (inboundOf s p.src p.tag).bind (·.wrote)
def setWrote (s : State) (p : Packet) (bs : List Byte) : State :=
  { s with inbound := s.inbound.map fun i => if i.src = p.src ∧ i.tag = p.tag then { i with wrote := some bs } else i }

/-- A write of a peer's request still owed acknowledgements: it is performed, and answered once they have come (R224, R248). -/
def agentOwed (s : State) (p : Packet) : Bool := s.awaiting.any fun q => q.core == agentCore && q.op == packetId p

/-- WR (R247, R248). -/
def runWr (p : Packet) (s : State) : State :=
  let bs := p.payload.take p.len
  let done := fun (s : State) => if agentOwed s p then laterBehind (setWrote s p []) p (.wr p) else answer s p []
  if (wroteOf s p).isSome then done s
  else
    match targetPlace s p.faddr bs.length with
    | none => refuse s p 4
    | some t =>
      match targetWrite s t bs (packetId p) (packetG p) with
      | .ok _ s => done s
      | .wait s => laterBehind s p (.wr p)
      | .bad _ s => refuse s p 4
def execWr (p : Packet) (s : State) : Out := took (arrive 0x02 1 p (runWr p) s)

/-- Whether a sequence is newer than the highest executed, over 16 bits (R242). -/
def newerSeq (high : Option Nat) (q : Nat) : Bool :=
  match high with
  | none => true
  | some h => let d := (q + 65536 - h) % 65536; 0 < d && d < 32768

/-- The reply of an executed AMO, cached and sent (R242). -/
def amoReplied (s0 : State) (p : Packet) (old n : Nat) : State :=
  let s := dropInbound s0 p.src p.tag
  let k : Packet := ⟨p.cont, 0, s.pkid, p.src, s.seqOut % 65536, 0, n, 0, 0, p.tag, 0, natLE n old, []⟩
  let rc := Tbl.read s.replies p.src {}
  let kept := if rc.entries.length ≥ 64 then rc.entries.drop 1 else rc.entries
  let high := if newerSeq rc.high p.seq then some p.seq else rc.high
  let rc : ReplyCache := { high := high, entries := kept ++ [(p.seq, k)] }
  let s := { s with seqOut := s.seqOut + 1, replies := Tbl.put s.replies p.src rc }
  s.emit (.packet k)

/-- AMO (R241-R243, R248): executed once. Whether its sequence is new is looked at when it comes; then it may wait. -/
def runAmo (p : Packet) (s : State) : State :=
  let rc := Tbl.read s.replies p.src {}
  let op := p.flg / 16
  let n := p.len
  let done := fun (s : State) (old : Nat) =>
    if agentOwed s p then laterBehind (setWrote s p (natLE n old)) p (.amo p) else amoReplied s p old n
  let again := fun (s : State) => laterBehind (setWrote s p []) p (.amo p)
  match rc.entries.find? fun e => e.1 == p.seq with
  | some e => (dropInbound s p.src p.tag).emit (.packet e.2)
  | none =>
    match wroteOf s p with
    | some (b :: bs) => done s (leNat (b :: bs))
    | w =>
      if w.isNone ∧ newerSeq rc.high p.seq = false then replyTo s 0x91 p.src p.tag 0 []
      else if op > 10 ∨ (n ≠ 4 ∧ n ≠ 8) then refuse s p 5
      else
        match targetPlace s p.faddr n with
        | none => refuse s p 4
        | some t =>
          if amoForbidden { place := t } then refuse s p 4 else
          match targetRead s t n with
          | .wait s => again s
          | .bad _ s => refuse s p 4
          | .ok bs s' =>
            let old := leNat bs
            match (amoNew op n old (rf p.payload 0 n) (rf p.payload 8 n)).1 with
            | none => amoReplied s' p old n
            | some v =>
              match targetWrite s' t (natLE n v) (packetId p) (packetG p) with
              | .ok _ s => done s old
              | .wait s => again s
              | .bad _ s => refuse s p 4
def execAmo (p : Packet) (s : State) : Out := took (arrive 0x03 2 p (runAmo p) s)

/-- The core that a packet addresses in this package. -/
def packetCore (s : State) (p : Packet) : Option Nat :=
  match targetPlace s p.faddr 0 with
  | some (.loc c _) => some c
  | _ => none

/-- XRUN (R273-R276, R278, R280): a run, a notice or an abandonment of a peer's party. -/
def runXrun (p : Packet) (s : State) : State :=
  let b := p.info
  match packetCore s p with
  | none => refuse s p 4
  | some c =>
    let m : XMsg := {
      id := s.nextId, xid := rf b 0 2, src := p.src * 8192, dst := c, fromP := rf b 2 2, toP := rf b 4 2, doff := rf b 32 8,
      bytes := p.payload, digest := leWord ((b.drop 8).take 8), n := rf b 16 8, sop := rf b 24 8, cause := rf b 6 2, tag := p.tag,
      rel := p.flg / 16 == 3 }
    let t := { s with nextId := s.nextId + 1, xmsgs := s.xmsgs ++ [m] }
    match p.flg / 16 with
    | 0 => t.push (.exchangeRunDeliver m.id)
    | 1 | 3 => t.push (.closingNotice m.id)
    | 2 => t.push (.abandonment m.id)
    | _ => refuse s p 5
def execXrun (p : Packet) (s : State) : Out := took (arrive 0x05 0 p (runXrun p) s)

/-- The ring unit's part of a peer's advance (R111). A ring whose consumer is on another package stands here under 8192 times that
package above its core. -/
def ringAdvanced (s : State) (p : Packet) : State :=
  let core := rf p.payload 0 4 % 8192
  let off := rf p.payload 4 4
  let n := rf p.payload 8 4
  if rf p.payload 12 4 = 1 then
    let s := updRing s core off fun r => { r with fillc := r.fillc + n, freec := r.freec - n, pidx := (r.pidx + n) % 2 ^ 32 }
    s.push (.ringNotification core off false)
  else
    let key := p.src * 8192 + core
    let s := updRing s key off fun r =>
      { r with freec := r.freec + n, fillc := r.fillc - n, cidx := (r.cidx + n) % 2 ^ 32, stamps := r.stamps.drop n }
    s.push (.ringNotification key off true)

/-- A freeze message (R363, R367, R370): 0 FREEZE, answered once this part is frozen; 1 the freeze ends; 2 the dispatcher's own freeze; 3 is
answered once no command is on its way. -/
def freezeMsg (s : State) (g : Nat) (p : Packet) : State :=
  match rf p.payload 0 1 with
  | 0 => match freezeHere s g with
    | (true, s) => answer s p []
    | (false, s) => laterBehind s p (.msg p)
  | 1 => answer (thawHere s g) p []
  | 2 => answer (s.updDom g fun d => { d with frozen := true, hostFreeze := !d.frozen }) p []
  | _ => if commandsOnWay s g then laterBehind s p (.msg p) else answer s p []

/-- What another package of a domain tells or asks of this part of it, by subcode: 6 an arrival at a barrier, 7 a departure, 8 an arrival
withdrawn (R298, R299), 9 a block's level (R328), 10 a freeze, 11 a block's edges (R330), 12 a block's front entry (R369), 13 whether this
part rests (R325). -/
def domMsg (s : State) (g : Nat) (d : Dom) (p : Packet) : State :=
  let b := p.payload
  let k : Barrier := { id := 0, dom := g, inst := 0, scope := .sys, num := rf b 0 1, count := rf b 1 2 }
  let block := Tbl.read d.blocks (rf b 0 4) {}
  match p.flg / 16 with
  | 6 => if countDiffers s k then answer s p [1] else answer (countArrival s k [(p.src, rf b 3 8)]).2 p [0]
  | 7 => answer (runBarrierDepart (rf b 0 8) s) p []
  | 8 => answer (withdrawArrival s (fun q => q.far.contains (p.src, rf b 0 8)) fun q => { q with far := q.far.erase (p.src, rf b 0 8) }) p []
  | 9 => answer s p (wordLE (levelWord block.t block.d block.fin))
  | 10 => freezeMsg s g p
  | 11 => if levelsOnWay s g then laterBehind s p (.msg p) else answer (bindBlock s g b) p []
  | 12 => answer s p (frontEntry s g d block)
  | 13 => answer s p (restBytes s g)
  | _ => refuse s p 5

/-- MSG (R247, R297, R317, R331, R359, R360) by subcode: 0 EVPOST, 1 LVSEND, 2 a supervisor message, 3 a supervisor's command, 4 a level
notification, 5 a ring's advance, others between the packages of a domain. DESIGN CHOICE of the layouts: log 25. -/
def runMsg (p : Packet) (s : State) : State :=
  let g := packetGtb p
  let b := p.payload
  let done := fun (s : State) => answer s p []
  let words : SMsg := ⟨leWord (b.take 8), leWord ((b.drop 8).take 8), leWord ((b.drop 16).take 8), leWord ((b.drop 24).take 8)⟩
  let c := packetCore s p
  match p.flg / 16, c with
  | 0, some c => done (postEvents s g c)
  | 1, _ =>
    -- the context stands in the place of the offset
    let t := p.faddr / 2 ^ 37 % 64 * 128 + p.faddr / 2 ^ 43 % 128
    let x := p.faddr % 16
    if ¬ holdsActor s g t x then refuse s p 4 else
    let m : LMsg := {
      core := t, ctx := x, dom := g, stamp := BitVec.ofNat 32 (rf b 0 4), src := p.src * 8192 + rf b 4 4 % 8192, srcCtx := rf b 8 4 % 16,
      bytes := padTo 64 (b.drop 12), tag := p.tag }
    let (id, s) := s.fresh
    State.push { s with lmsgs := s.lmsgs ++ [(id, m)] } (.inboxMessage id)
  | 2, _ => if (s.dom? g).isNone then refuse s p 4 else done (toSuper s g words)
  | 3, some c => if ¬ holdsDom s g c then refuse s p 4 else done (applyCommand s g c words)
  | 4, _ => done (s.push (.levelNotification g (rf b 0 4) (rf b 4 1) (BitVec.ofNat 32 (rf b 5 4)) (rf b 9 2) (rf b 11 1 == 1)))
  | 5, _ => done (ringAdvanced s p)
  | 0, none => refuse s p 4
  | 3, none => refuse s p 4
  | _, _ => match s.dom? g with
    | none => refuse s p 4
    | some d => if d.pkgs.contains p.src then domMsg s g d p else refuse s p 4
def execMsg (p : Packet) (s : State) : Out := took (arrive 0x06 4 p (runMsg p) s)

/-- A commit that another package has told: the copy of its block follows. -/
def heardCommit (s : State) (g : Nat) (b : List Byte) : State :=
  if (blockAway s g (rf b 0 4)).isNone then s else
  s.updDom g fun d =>
    let k := Tbl.read d.blocks (rf b 0 4) {}
    { d with blocks := Tbl.put d.blocks (rf b 0 4) { k with t := BitVec.ofNat 32 (rf b 4 4), d := rf b 8 2, fin := rf b 10 1 == 1 } }

/-- Another package's part has come to rest: what was asked before is asked again (R325, R326). -/
def heardRest (s : State) (g : Nat) (ran : Bool) : State :=
  let s := { s with sent := s.sent.filter fun r => !(r.core == restCore && r.op == g) }
  let s := s.updDom g fun d => { d with heard := none, lvArmed := d.lvArmed || ran }
  (s.pushOnce (.lvstall g)).pushOnce (.domainComplete g)

/-- NADIR (R318, R325): what another package contributes, by subcode: 0 its least value, 1 a commit, 2 that its part rests. -/
def runNadir (p : Packet) (s : State) : State :=
  let g := packetGtb p
  match s.dom? g with
  | none => answer s p []
  | some d =>
    if ¬ d.pkgs.contains p.src then refuse s p 4 else
    match p.flg / 16 with
    | 0 =>
      let v := rf p.payload 0 4 + rf p.payload 4 1 % 2 * 2 ^ 32
      answer (nadirPublish (s.updDom g fun d => { d with peerMin := Tbl.put d.peerMin p.src v }) g) p []
    | 1 => answer (heardCommit s g p.payload) p []
    | 2 => answer (heardRest s g (rf p.payload 0 1 == 1)) p []
    | _ => refuse s p 5
def execNadir (p : Packet) (s : State) : Out := took (arrive 0x0A 4 p (runNadir p) s)

/-! Replies (R247, R252). -/

/-- The request that a reply's TAG names. -/
def sentBy (s : State) (tag : Nat) : Option Sent := s.sent.find? fun r => r.tag == tag
def setSent (s : State) (tag : Nat) (f : Sent → Sent) : State :=
  { s with sent := s.sent.map fun q => if q.tag = tag then f q else q }

/-- A sector of a cached peer line arrives at a die's cache (R249). Where a die of this package owns the line by now, or a write with G=1 of it
waits, the reader asks again. -/
def fillArrives (s : State) (d sec : Nat) (bs : List Byte) : State :=
  let line := sec / 4
  if (sectorAt s d sec).isSome ∨ lineHeld s line ∨ (dirEntry s line).owner.isSome = true ∨ dieCut s d = true then s else
  putSector (useLine (setDir s line (sharedBy (dirEntry s line) d)) d line) d sec { bytes := padTo 64 bs }

/-- VAL: data for the access that TAG names, or for a die's cache. -/
def runVal (p : Packet) (s : State) : State :=
  match sentBy s p.tag with
  | none => s
  | some r =>
    if r.pkt.cont ≠ 0x80 then s
    else if fillCore 0 ≤ r.core ∧ r.core < fillCore 4 then fillArrives (dropSent s r.tag) (r.core - fillCore 0) r.op p.payload
    else setSent s r.tag fun q => { q with got := some p.payload }
def execVal (p : Packet) (s : State) : Out := took (releaseHeld (runVal p s))

/-- DEP: data for the requester's banks at RADDR. -/
def runDep (p : Packet) (s : State) : State :=
  match sentBy s p.tag with
  | none => s
  | some r =>
    if r.pkt.cont ≠ 0x81 then s else
    let bank := match opById s r.core r.op with | some o => o.bank | none => r.core
    match bankWrite s bank (p.raddr % 2 ^ 18) p.payload with
    | .ok _ s => setSent s r.tag fun q => { q with got := some p.payload }
    | .wait s => s.push (.dep p)
    | .bad _ s => setSent s r.tag fun q => { q with nack := some 4 }
def execDep (p : Packet) (s : State) : Out := took (releaseHeld (runDep p s))

/-- CNT: bytes of a run acknowledged (R276). -/
def runCnt (p : Packet) (s : State) : State :=
  match sentBy s p.tag with
  | none => s
  | some r =>
    if r.pkt.cont ≠ 0x82 then s else
    let s := dropSent s r.tag
    match s.exchs.find? fun e => e.core == r.core && e.op == r.op with
    | none => s
    | some e => (updExch s e.id fun e => { e with acked := e.acked + p.len }).pushOnce (.exchangeEnd e.id)
def execCnt (p : Packet) (s : State) : Out := took (releaseHeld (runCnt p s))

/-- A die cache's write-back. -/
def isWriteBack (r : Sent) : Bool := wbCore 0 ≤ r.core && r.core < wbCore 4

/-- Whether a request is one whose reply nothing waits for. -/
def unawaited (r : Sent) : Bool :=
  isWriteBack r || r.op == 2 ^ 42 || (r.pkt.op == 6 && r.pkt.flg / 16 == 0)

/-- A request completes without data: a store leaves the in-flight table, performed at system scope (R248). -/
def completed (s : State) (r : Sent) : State :=
  if r.core = gangCore then gangReply s r none
  else if unawaited r then dropSent s r.tag
  else
    match opById s r.core r.op with
    | some o =>
      if isStore o then (if o.status = 0 then dropOp (dropSent s r.tag) r.core r.op else dropSent s r.tag)
      else setSent s r.tag fun q => { q with got := some [] }
    | none => setSent s r.tag fun q => { q with got := some [] }

/-- A domain may rest once what it has told another package is answered (R325). -/
def toldOver (s : State) (r : Sent) : State :=
  if r.op = 2 ^ 42 ∧ (r.pkt.op = 6 ∨ r.pkt.op = 0x0A) then domCheck s (packetGtb r.pkt) else s

/-- DONE. -/
def runDone (p : Packet) (s : State) : State :=
  match sentBy s p.tag with
  | none => s
  | some r => if r.pkt.cont ≠ 0x83 then s else toldOver (completed s r) r
def execDone (p : Packet) (s : State) : Out := took (releaseHeld (runDone p s))

/-- A peer's core as an address of form 01. -/
def peerAddr (p : Packet) : Word := BitVec.ofNat 64 (p.faddr + p.dst * 2 ^ 50)

/-- A write-back that fails (R252): the FLUSHR that began it fails, and otherwise the firing that began it parks as for a store. -/
def writeBackFails (s : State) (r : Sent) (e : Nat) : State :=
  let ea := BitVec.ofNat 64 r.pkt.faddr
  match r.by' with
  | none => s
  | some (c, x, id) =>
    match opById s c id with
    | some o => match o.body with
      | .copy k => if k.failed.isSome then s else updOp s c id fun o => { o with body := .copy { k with failed := some (nackStop ea e) } }
      | _ => s
    | none => reportFail s c (mkOp { s with cur := (c, x) } 0 ea none (.range false [])) .store (nackStop ea e) false 0

/-- A request fails with the given EINFO (R252, R256): a store or an EVPOST parks its firing, a run fails its party, other
accesses learn it. A package that cannot be reached has its parties abandoned (R281). -/
def failed (s : State) (r : Sent) (e : Nat) : State :=
  if r.core = gangCore then gangReply s r (some e)
  else if r.pkt.op = 5 then
    let t := match s.exchs.find? fun q => q.core == r.core && q.op == r.op && q.active with
      | some q => failExch (dropSent s r.tag) q (nackStop (peerAddr r.pkt) e) 0
      | none => dropSent s r.tag
    if e = 2 then abandonParties t (fun c => c / 8192 == r.pkt.dst) Cause.fabnack.code else t
  else if r.pkt.op = 6 ∧ r.pkt.flg / 16 = 0 then
    let x := r.op - msgId 0
    let o := mkOp { s with cur := (r.core, x) } 0 (peerAddr r.pkt) none (.range false [])
    reportFail (dropSent s r.tag) r.core o .store (nackStop (peerAddr r.pkt) e) false 0
  else if isWriteBack r then writeBackFails (dropSent s r.tag) r e
  else if unawaited r then dropSent s r.tag
  else
    match opById s r.core r.op with
    | some o =>
      if isStore o then failStore (dropSent s r.tag) r.core o (nackStop o.addr e)
      else setSent s r.tag fun q => { q with nack := some e }
    | none => setSent s r.tag fun q => { q with nack := some e }

/-- NACK (R252). -/
def runNack (p : Packet) (s : State) : State :=
  match sentBy s p.tag with
  | none => s
  | some r => toldOver (failed s r (rf p.payload 0 1)) r
def execNack (p : Packet) (s : State) : Out := took (releaseHeld (runNack p s))

/-- UNKNOWN (R243). -/
def runUnknown (p : Packet) (s : State) : State :=
  match sentBy s p.tag with
  | none => s
  | some r => if r.pkt.op = 3 then endUnknown s r else s
def execUnknown (p : Packet) (s : State) : Out := took (releaseHeld (runUnknown p s))

/-! Group writes (R253-R257). -/

/-- This package's digit at a tier: its port of the switch there. -/
def digitOf (t pkid : Nat) : Nat := pkid / 16 ^ t % 16
/-- The lowest peer number that a port's subtree can hold. -/
def lowestPeer (s : State) (t port : Nat) : Nat := max 1 (s.pkid / 16 ^ (t + 1) * 16 ^ (t + 1) + port * 16 ^ t)

/-- The entry of a group at this package's switch of a tier (R254). -/
def asterismAt (s : State) (t g : Nat) : Nat := Tbl.read s.asterism (t * 256 + g) 0
def entryValid (e : Nat) : Bool := e / 2 ^ 17 % 2 == 1
def entryRoot (e : Nat) : Bool := entryValid e && e / 2 ^ 16 % 2 == 1
def downPorts (e : Nat) : List Nat := (upFrom 0 16).filter fun p => e / 2 ^ p % 2 == 1

/-- An aggregate as a MACK carries it: POS, NEG and FNEG, two bytes each. DESIGN CHOICE of the layout: log 25. -/
def mackBytes (pos neg fneg : Nat) : List Byte := natLE 2 pos ++ natLE 2 neg ++ natLE 2 fneg

/-- The root's aggregate on its way to this package's hub. -/
def rootMack (s : State) (tag pos neg fneg : Nat) : State :=
  s.push (.mack ⟨0x84, 0, s.pkid, s.pkid, 0, 0, 6, 0, 0, tag, 0, mackBytes pos neg fneg, []⟩)

/-- An aggregate of a port at a switch that waits for it (R255); a switch that has heard every port gives its own to the one above, the
root's to the source. -/
def portAck (s : State) (tag : Nat) : Nat → Nat → Nat → Nat → Nat → Nat → State
  | 0, _, _, _, _, _ => s
  | n + 1, tier, port, pos, neg, fneg =>
    match s.groups.find? fun w => w.tag == tag && w.tier == tier with
    | none => s
    | some w =>
      if ¬ w.ports.contains port then s else
      let w' := { w with ports := w.ports.filter (· != port), pos := w.pos + pos, neg := w.neg + neg, fneg := min w.fneg fneg }
      let rest := s.groups.filter fun q => !(q.tag == tag && q.tier == tier)
      if ¬ w'.ports.isEmpty then { s with groups := rest ++ [w'] }
      else if rest.any (fun q => q.tag == tag && q.tier == tier + 1) then
        portAck { s with groups := rest } tag n (tier + 1) (digitOf (tier + 1) s.pkid) w'.pos w'.neg w'.fneg
      else rootMack { s with groups := rest } tag w'.pos w'.neg w'.fneg

/-- The tier at which a write of this package turns down. -/
def turnTier (s : State) (g : Nat) : Nat :=
  if entryRoot (asterismAt s 0 g) then 0 else if entryRoot (asterismAt s 1 g) then 1 else 2

/-- A switch on this package's own path down (R254): its entry is latched, and every port of DOWN has its copy. A switch without a valid
entry, or with no port, has its aggregate at once. -/
def replicate (s : State) (p : Packet) (top : Bool) : Nat → State
  | 0 => latch s p top 0 fun s => s.push (.gwr p)
  | t + 1 => latch s p top (t + 1) fun s => replicate s p false t
where
  latch (s : State) (p : Packet) (top : Bool) (t : Nat) (below : State → State) : State :=
    let e := asterismAt s t (p.dst - 0xF00)
    let ports := if entryValid e then downPorts e else []
    let mine := digitOf t s.pkid
    if ports.isEmpty then
      let neg := bitN (!entryValid e)
      let fneg := if entryValid e then 0xFFF else max 1 (s.pkid / 16 ^ (t + 1) * 16 ^ (t + 1))
      if top then rootMack s p.tag 0 neg fneg else portAck s p.tag 3 (t + 1) (digitOf (t + 1) s.pkid) 0 neg fneg
    else
      let s := { s with groups := s.groups ++ [({ tag := p.tag, tier := t, ports := ports, since := s.time } : GroupWrite)] }
      let s := (ports.filter (· != mine)).foldl (fun s q => s.emit (.copy (t * 16 + q) p)) s
      let s := s.pushAll (ports.map fun q => .mackPortTimeout p.tag (t * 16 + q))
      if ports.contains mine then below s else s

/-- A member's answer to its board switch (R255). -/
def memberAck (s : State) (p : Packet) (own ok : Bool) : State :=
  let neg := bitN (!ok)
  let fneg := if ok then 0xFFF else s.pkid
  if own then portAck (dropInbound s p.src p.tag) p.tag 3 0 (digitOf 0 s.pkid) (1 - neg) neg fneg
  else replyTo s 0x84 p.src p.tag 6 (mackBytes (1 - neg) neg fneg)

/-- A copy that has passed this package's port: the write (R248, R254). -/
def memberWrite (s : State) (p : Packet) (own : Bool) : State :=
  let bs := p.payload.take p.len
  let done := fun (s : State) => if agentOwed s p then laterBehind (setWrote s p []) p (.gwr p) else memberAck s p own true
  if (wroteOf s p).isSome then done s
  else
    match targetPlace s p.faddr bs.length with
    | none => memberAck s p own false
    | some t =>
      match targetWrite s t bs (packetId p) (packetG p) with
      | .ok _ s => done s
      | .wait s => laterBehind s p (.gwr p)
      | .bad _ s => memberAck s p own false

/-- A copy at this package's port: the last-hop check, made once (R250, R254, R257). -/
def memberPort (s : State) (p : Packet) (own : Bool) : State :=
  if ¬ admitted s p 3 then memberAck s p own false
  else
    let i : Inbound := { src := p.src, tag := p.tag, op := 4 }
    memberWrite { s with inbound := s.inbound ++ [i] } p own

/-- GWR (R253, R254): this package's own write climbs to its turning point and down again; a copy is performed here. -/
def runGwr (p : Packet) (s : State) : State :=
  if s.pkid = 0 ∨ p.dst < 0xF00 then s
  else if p.op ≠ 4 then refuse s p 5
  else if (inboundOf s p.src p.tag).isSome then memberWrite s p (p.src == s.pkid)
  else
    let ours : Bool := p.src == s.pkid && s.sent.any fun r => r.tag == p.tag && r.pkt.op == 4
    let waits := s.groups.any fun w => w.tag == p.tag
    let latched := s.groups.any fun w => w.tag == p.tag && w.tier == 0 && w.ports.contains (digitOf 0 s.pkid)
    if ours ∧ ¬ waits then replicate s p true (turnTier s (p.dst - 0xF00))
    else if ours ∧ latched then memberPort s p true
    else
      let e := asterismAt s 0 (p.dst - 0xF00)
      if ¬ entryValid e then memberAck s p false false
      else if ¬ (downPorts e).contains (digitOf 0 s.pkid) then s
      else memberPort s p false
def execGwr (p : Packet) (s : State) : Out := took (runGwr p s)

/-- The tier of the lowest switch above this package and another. -/
def meetTier (s : State) (q : Nat) : Nat :=
  if q / 16 = s.pkid / 16 then 0 else if q / 256 = s.pkid / 256 then 1 else 2

/-- MACK (R255, R256): an aggregate from below at one of this package's switches, or the root's at the source hub, where it ends the
group write. -/
def runMack (p : Packet) (s : State) : State :=
  let pos := rf p.payload 0 2
  let neg := rf p.payload 2 2
  let fneg := rf p.payload 4 2
  if s.groups.any fun w => w.tag == p.tag then
    let t := meetTier s p.src
    portAck s p.tag 3 t (digitOf t p.src) pos neg fneg
  else
    match sentBy s p.tag with
    | none => s
    | some r =>
      if r.pkt.op ≠ 4 then s
      else if neg = 0 then completed s r
      else failed s r (min pos 0xFFF * 2 ^ 24 + min neg 0xFFF * 2 ^ 12 + fneg % 4096)
def execMack (p : Packet) (s : State) : Out := took (releaseHeld (runMack p s))

/-- MACK_PORT_TIMEOUT (R255): 20 µs after its copy a port counts as one negative. `port` is 16 times the tier and the port. -/
def runMackPortTimeout (tag port : Nat) (s : State) : State :=
  let t := port / 16
  match s.groups.find? fun w => w.tag == tag && w.tier == t with
  | none => s
  | some w =>
    if ¬ w.ports.contains (port % 16) then s else
    if s.time < w.since + halfUs 40 then s.pushOnce (.mackPortTimeout tag port)
    else portAck s tag 3 t (port % 16) 0 1 (lowestPeer s t (port % 16))
def execMackPortTimeout (tag port : Nat) (s : State) : Out := took (runMackPortTimeout tag port s)

/-! CFG (R257-R260). -/

/-- The reply of a switch: at once at this package, over Callyn to another. -/
def switchAnswer (s : State) (p : Packet) (bs : List Byte) : State :=
  if p.src = s.pkid then s.push (.val ⟨0x80, 0, s.pkid, s.pkid, 0, 0, bs.length, 0, 0, p.tag, 0, bs, []⟩)
  else replyTo s p.cont p.src p.tag bs.length bs

/-- CFG: the named switch of this package's tiers rewrites its entry once no packet of the group waits there; an access-table entry is
written at each named port. -/
def runCfg (p : Packet) (s : State) : State :=
  let a := leWord (p.payload.take 8)
  let b := leWord ((p.payload.drop 8).take 8)
  if s.pkid = 0 then s
  else if p.op ≠ 0x0B then refuse s p 5
  else match p.flg / 16 with
    | 0 =>
      let g := field a 7 0
      let t := field a 9 8
      let latched := s.groups.any fun w => w.tier == t && match sentBy s w.tag with | some r => r.pkt.dst == 0xF00 + g | none => false
      if t > 2 ∨ tierDigits t (field a 23 12) ≠ tierDigits t s.pkid then s
      else if tierDigits t p.src ≠ tierDigits t s.pkid then refuse s p 1
      else if latched then s.pushOnce (.cfg p)
      else
        let old := asterismAt s t g
        switchAnswer { s with asterism := Tbl.put s.asterism (t * 256 + g) (field b 17 0) } p (natLE 3 old)
    | 1 =>
      if p.src ≠ s.pkid then s else
      let w := fun i => leWord ((p.payload.drop (16 + 8 * i)).take 8)
      let e : AclEntry := {
        lo := w 0, hi := w 1, srclo := field (w 2) 11 0, srchi := field (w 2) 27 16, v := (w 2).getLsbD 39, rights := field (w 2) 36 32 }
      let ports := (upFrom 0 8).filter fun n => b.getLsbD n
      let s := { s with acl := ports.foldl (fun t n => Tbl.put t (n * 64 + field b 13 8) e) s.acl }
      switchAnswer s p []
    | _ => refuse s p 5
def execCfg (p : Packet) (s : State) : Out := took (runCfg p s)

/-! Link groups (R261). -/

/-- LINK_GROUP_FAIL: what the link group carried and is not answered is sent again over the others; with none left it fails, and an AMO,
which may have been performed, ends unknown at its time (R243). -/
def runLinkGroupFail (lg : Nat) (s : State) : State :=
  if lg ≥ 8 ∨ s.linkDown.contains lg = true then s else
  let s := { s with linkDown := s.linkDown ++ [lg] }
  let carried := fun (r : Sent) => r.lg == lg && r.got.isNone && r.nack.isNone
  if (liveGroups s).isEmpty then
    let s := (s.sent.filter fun r => r.got.isNone && r.nack.isNone && r.pkt.op != 3).foldl (fun s r => failed s r 2) s
    -- the pages on their way to another package stay, and the parties on others are abandoned (R64, R281)
    abandonParties { s with moves := s.moves.filter fun m => m.newPeer == 0 } (fun c => c / 8192 != 0) Cause.fabnack.code
  else
    let move := fun (r : Sent) =>
      if carried r then { r with lg := linkGroup s r.pkt.dst r.pkt.faddr, resent := r.resent || !r.held } else r
    { s with sent := s.sent.map move, out := s.out ++ (s.sent.filter fun r => carried r && !r.held).map fun r => .packet r.pkt }
def execLinkGroupFail (lg : Nat) (s : State) : Out := took (runLinkGroupFail lg s)

/-- LINK_GROUP_RESTORE (R242, R261): every reply cache is dropped, the highest executed sequences stay. -/
def runLinkGroupRestore (lg : Nat) (s : State) : State :=
  if ¬ s.linkDown.contains lg then s else
  { s with
    linkDown := s.linkDown.filter (· != lg)
    replies := s.replies.map fun e => (e.1, { e.2 with entries := [] }) }
def execLinkGroupRestore (lg : Nat) (s : State) : Out := took (runLinkGroupRestore lg s)

end Sys2Proof.Machine
end

