-- ==== Sys2Proof/Machine/Ethernet.lean ====
section
/-!
DEFINITION. The Ethernet ports (R262-R267): queues, descriptors, frames sent and received, pause frames and links.
-/
set_option linter.all false
namespace Sys2Proof.Machine
open Sys2Proof

/-! Ports and queues. -/

def State.port (s : State) (p : Nat) : EthPort := Tbl.read s.eth p {}
def State.updPort (s : State) (p : Nat) (f : EthPort → EthPort) : State := { s with eth := Tbl.put s.eth p (f (s.port p)) }
def queueOf (k : EthPort) (rx : Bool) (q : Nat) : EthQ := Tbl.read (if rx then k.rx else k.tx) q {}
def State.queue (s : State) (p : Nat) (rx : Bool) (q : Nat) : EthQ := queueOf (s.port p) rx q
def State.updQueue (s : State) (p : Nat) (rx : Bool) (q : Nat) (f : EthQ → EthQ) : State :=
  s.updPort p fun k =>
    if rx then { k with rx := Tbl.put k.rx q (f (queueOf k rx q)) } else { k with tx := Tbl.put k.tx q (f (queueOf k rx q)) }

/-- A statistics counter by its offset (R267). -/
def countPort (s : State) (p off n : Nat) : State :=
  s.updPort p fun k => { k with stats := Tbl.put k.stats off ((Tbl.read k.stats off 0 + n) % 2 ^ 64) }

/-- SIZE in its range (R263). -/
def sizeOk (n : Nat) : Bool := (upFrom 4 13).any fun k => n == 2 ^ k

/-- A queue that works on descriptors. -/
def runs (k : EthQ) : Bool := k.en && !k.stop && !k.starting
def posted (k : EthQ) : Bool := k.done != k.prod

/-! Memory as a port reaches it (R263, R264): never translated, homes 0-5. -/

def portSpan (s : State) (a n : Nat) : Bool := homeOf a ≤ 5 && (targetPlace s a n).isSome && a < 2 ^ 56

def portRead (s : State) (a n : Nat) : Got (List Byte) :=
  if ¬ portSpan s a n then .bad (stopAt .xlate 0) s else targetRead s (.dev a) n

/-- Whether writes can be made now: the cause that stands against them, or whether they wait. -/
def portWrites (s : State) (ws : List (Nat × List Byte)) (id : Nat) : Got Unit :=
  match ws.find? fun w => !portSpan s w.1 w.2.length with
  | some _ => .bad (stopAt .xlate 0) s
  | none =>
    let cut := ws.flatMap fun w => bySector w.1 w.2
    if cut.any (fun e => homeLost s e.1) ∨ spoils s cut = true then .bad (stopAt .datalost 0) s
    else
      let (ok, s) := agentTake s cut id true
      if ok then .ok () (cut.foldl (fun s e => hubWrite s e.1 e.2) s) else .wait s

/-- A name for a queue among the awaiting writes. -/
def queueId (p q : Nat) (rx : Bool) : Nat := 2 ^ 50 + p * 16 + q + 8 * bitN rx

/-- A queue stops, and the host is told (R264, R390). -/
def stopQueue (s : State) (p q : Nat) (rx : Bool) (c : Cause) : State :=
  notify (s.updQueue p rx q fun k => { k with stop := true, cause := c.code }) 7 0
    (BitVec.ofNat 64 (p + q * 8 + bitN rx * 64 + c.code * 256)) none

/-- Entry of descriptor `n`. -/
def descAddr (k : EthQ) (n : Nat) : Nat := k.base + 32 * (n % k.size)

/-- A descriptor finished: bytes 16-31 and any data written, then the consumer word, then the vector if it asks for it (R264-R266). -/
def finishDesc (s : State) (p q : Nat) (rx : Bool) (status : List Byte) (extra : List (Nat × List Byte)) (int : Bool) : Got Unit :=
  let k := s.queue p rx q
  let n := (k.done + 1) % 2 ^ 64
  match portWrites s (extra ++ [(descAddr k k.done + 16, status), (k.consa, natLE 8 n)]) (queueId p q rx) with
  | .ok _ s =>
    let s := s.updQueue p rx q fun k => { k with done := n }
    .ok () (if int then s.emit (.msix k.vec) else s)
  | r => r

/-! Transmission (R265). -/

/-- Transmit queues that have a descriptor to work on and are not held. -/
def sendable (s : State) (p : Nat) : List Nat :=
  let k := s.port p
  (upFrom 0 8).filter fun q => runs (queueOf k false q) && posted (queueOf k false q) && !k.paused.contains q

/-- Every queue of a port that can send is begun. -/
def kickPort (s : State) (p : Nat) : State := (sendable s p).foldl (fun s q => s.pushOnce (.ethTransmit p q)) s

/-- ETH_TRANSMIT (R265): one descriptor of the port's highest priority that has a frame; the port's link holds all of them while it is
down. A refused descriptor's TIME is not stated: a free value. -/
def runEthTransmit (p q : Nat) (s : State) : State :=
  let k := s.queue p false q
  let ready := sendable s p
  if ¬ s.portPresent p ∨ ¬ (s.port p).up ∨ ready.contains q = false then s
  else if ready.any (· > q) then kickPort s p
  else
    let again := fun (s : State) => s.pushOnce (.ethTransmit p q)
    match portRead s (descAddr k k.done) 32 with
    | .wait s => again s
    | .bad e s => stopQueue s p q false e.cause
    | .ok d s =>
      let n := rf d 8 4
      let shape := n < 60 || n > 9212 || rf d 12 1 ≥ 2 || rf d 13 3 != 0
      let int := rf d 12 1 % 2 == 1
      let close := fun (s : State) (status : List Byte) (sent : Option (List Byte)) =>
        match finishDesc s p q false status [] int with
        | .wait s => again s
        | .bad e s => stopQueue s p q false e.cause
        | .ok _ s =>
          let s := match sent with
            | some bs => countPort (countPort (s.emit (.frame p bs)) p 0 1) p 8 n
            | none => { s with free := s.free + 1 }
          kickPort s p
      let refused := fun (s : State) (c : Cause) =>
        close s (natLE 1 1 ++ natLE 1 c.code ++ natLE 6 0 ++ wordLE (Config.freeWord s.free)) none
      if shape then refused s .shape else
      match portRead s (rf d 0 8) n with
      | .wait s => again s
      | .bad e s => refused s e.cause
      | .ok bs s => close s (natLE 8 0 ++ natLE 8 s.time) (some bs)
def execEthTransmit (p q : Nat) (s : State) : Out := took (runEthTransmit p q s)

/-! Reception (R266). -/

/-- Queue of a frame: the priority code point of its first 802.1Q tag, or 0. -/
def frameQueue (f : List Byte) : Nat := if f.getD 12 0 = 0x81 ∧ f.getD 13 0 = 0x00 then (f.getD 14 0).toNat / 32 else 0

/-- A held frame gone. -/
def dropHeld (s : State) (p : Nat) (e : Nat × Nat × List Byte) : State := s.updPort p fun k => { k with held := k.held.erase e }

/-- The oldest frame of a priority against the queue's next descriptor: written, dropped for want of one, or held under PFC. -/
def rxStep (s : State) (p q : Nat) : State :=
  match (s.port p).held.find? fun e => e.1 == q with
  | none => s
  | some e =>
    let k := s.queue p true q
    let on := fun (s : State) => s.pushOnce (.ethProducerUpdate p q true)
    let next := fun (s : State) => if (s.port p).held.any (fun e => e.1 == q) then on s else s
    if ¬ (runs k ∧ posted k) then
      if runs k ∧ k.pfc then s else next (countPort (dropHeld s p e) p 0x28 1)
    else
      match portRead s (descAddr k k.done) 32 with
      | .wait s => on s
      | .bad x s => next (stopQueue s p q true x.cause)
      | .ok d s =>
        let a := rf d 0 8
        let cap := rf d 8 4
        let shape := cap % 64 != 0 || cap < 64 || cap > 9216 || a % 64 != 0 || rf d 12 1 ≥ 2 || rf d 13 3 != 0
        let int := rf d 12 1 % 2 == 1
        let n := e.2.2.length
        let close := fun (s : State) (status : List Byte) (dat : List (Nat × List Byte)) (took : Bool) =>
          match finishDesc s p q true status dat int with
          | .wait s => on s
          | .bad x s => next (stopQueue s p q true x.cause)
          | .ok _ s => if took then next (dropHeld s p e) else on { s with free := s.free + 1 }
        let refused := fun (s : State) (c : Cause) =>
          close s (natLE 1 1 ++ natLE 1 c.code ++ natLE 2 0 ++ natLE 4 n ++ wordLE (Config.freeWord s.free)) [] false
        let dat := e.2.2.take cap
        let status := natLE 1 (if n > cap then 2 else 0) ++ natLE 3 0 ++ natLE 4 n ++ natLE 8 e.2.1
        if shape then refused s .shape
        else if ¬ portSpan s a dat.length then refused s .xlate
        else if homeLost s a ∨ spoils s (bySector a dat) = true then refused s .datalost
        else close s status [(a, dat)] true

/-- ETH_RECEIVE (R266, R267): a frame without its FCS, and whether that checked. Frames longer than the MAC carries are none. -/
def runEthReceive (p : Nat) (f : List Byte) (fcsOk : Bool) (s : State) : State :=
  if ¬ s.portPresent p ∨ ¬ (s.port p).up ∨ f.length + 4 > 9216 then s
  else if ¬ fcsOk ∨ f.length + 4 < 64 then countPort s p 0x20 1
  else
    let s := countPort (countPort s p 0x10 1) p 0x18 f.length
    let q := frameQueue f
    let k := s.queue p true q
    let used := (s.port p).held.foldl (fun n e => n + e.2.2.length) 0
    if used + f.length > 2 ^ 20 then countPort s p 0x28 1
    else
      let s := s.updPort p fun k => { k with held := k.held ++ [(q, s.time, f)] }
      let s := if runs k ∧ k.pfc ∧ ¬ posted k then countPort (s.emit (.pause p q)) p 0x30 1 else s
      rxStep s p q
def execEthReceive (p : Nat) (frame : List Byte) (fcsOk : Bool) (s : State) : Out := took (runEthReceive p frame fcsOk s)

/-! Queues (R263, R264). -/

/-- ETH_PRODUCER_UPDATE (R264): the port reads the producer word again and works on what has been posted. -/
def runEthProducerUpdate (p q : Nat) (rx : Bool) (s : State) : State :=
  let k := s.queue p rx q
  if ¬ s.portPresent p then s
  else if ¬ runs k then (if rx then rxStep s p q else s)
  else
    match portRead s k.proda 8 with
    | .wait s => s.pushOnce (.ethProducerUpdate p q rx)
    | .bad e s => stopQueue s p q rx e.cause
    | .ok bs s =>
      let s := s.updQueue p rx q fun k => { k with prod := leNat bs }
      if rx then rxStep s p q else kickPort s p
def execEthProducerUpdate (p q : Nat) (rx : Bool) (s : State) : Out := took (runEthProducerUpdate p q rx s)

/-- ETH_QUEUE_ENABLE (R263): from the consumer word, with the producer word read; SIZE out of range leaves EN at 0. -/
def runEthQueueEnable (p q : Nat) (rx : Bool) (s : State) : State :=
  let k := s.queue p rx q
  if ¬ s.portPresent p ∨ q > 7 ∨ (k.en = true ∧ k.starting = false) ∨ ¬ sizeOk k.size then s
  else
    let s := s.updQueue p rx q fun k => { k with en := true, starting := true, stop := false, cause := 0 }
    match portRead s k.consa 8 with
    | .wait s => s.pushOnce (.ethQueueEnable p q rx)
    | .bad e s => stopQueue (s.updQueue p rx q fun k => { k with starting := false }) p q rx e.cause
    | .ok bs s =>
      runEthProducerUpdate p q rx (s.updQueue p rx q fun k => { k with starting := false, done := leNat bs, prod := leNat bs })
def execEthQueueEnable (p q : Nat) (rx : Bool) (s : State) : Out := took (runEthQueueEnable p q rx s)

/-- ETH_QUEUE_DISABLE (R263): between descriptors, without STOP. -/
def runEthQueueDisable (p q : Nat) (rx : Bool) (s : State) : State :=
  if ¬ s.portPresent p ∨ q > 7 then s
  else
    let s := { s with events := s.events.filter fun e => e != Event.ethQueueEnable p q rx }
    (s.updQueue p rx q fun k => { k with en := false, starting := false }).pushOnce (.ethProducerUpdate p q rx)
def execEthQueueDisable (p q : Nat) (rx : Bool) (s : State) : Out := took (runEthQueueDisable p q rx s)

/-! Pause frames and links. -/

/-- ETH_PAUSE_RECEIVE (R265, R267): the priority is held; the end of the hold is a move of its own, whose time the frame gives. -/
def runEthPauseReceive (p prio : Nat) (s : State) : State :=
  if ¬ s.portPresent p ∨ ¬ (s.port p).up ∨ prio > 7 then s
  else
    let s := countPort s p 0x38 1
    let s := s.updPort p fun k => { k with paused := if k.paused.contains prio then k.paused else prio :: k.paused }
    s.pushOnce (.ethPauseExpire p prio)
def execEthPauseReceive (p prio : Nat) (s : State) : Out := took (runEthPauseReceive p prio s)

/-- ETH_PAUSE_EXPIRE (R265). -/
def runEthPauseExpire (p prio : Nat) (s : State) : State :=
  if ¬ s.portPresent p then s
  else kickPort (s.updPort p fun k => { k with paused := k.paused.filter (· != prio) }) p
def execEthPauseExpire (p prio : Nat) (s : State) : Out := took (runEthPauseExpire p prio s)

/-- ETH_LINK_CHANGE (R265): a port whose link is down holds its transmit queues until the link returns. -/
def runEthLinkChange (p : Nat) (up : Bool) (s : State) : State :=
  if ¬ s.portPresent p then s else kickPort (s.updPort p fun k => { k with up := up }) p
def execEthLinkChange (p : Nat) (up : Bool) (s : State) : Out := took (runEthLinkChange p up s)

end Sys2Proof.Machine
end

