-- ==== Sys2Proof/Machine/Debug.lean ====
section
/-!
DEFINITION. MARK (R382), the debugger's steps (R374-R376), stops by GTID (R378), core dumps (R379), trace and replay registers
(R384, R385) and error injection (R387).
-/
set_option linter.all false
namespace Sys2Proof.Machine
open Sys2Proof

/-- MARK (R382): a trace record of kind 4 with the value of A. -/
def execMark (a : Reg) (s : State) : Out :=
  took (issue 4 none [a] (fun s => .ret (traceRec s s.cur.1 (gtidOf s.k) 4 0 (rd s.k a))) s)

/-! DCTL (R374-R376). -/

/-- DCTL_HALTREQ: a context between two instructions of its work halts now; another before the next that it issues. -/
def runDctlHaltreq (c x : Nat) (s : State) : State :=
  let k := s.ctx c x
  if k.dhalt then s
  else if k.work.isSome ∧ k.status = .ready then s.updCtx c x fun k => { k with dhalt := true }
  else s.updCtx c x fun k => { k with haltReq := true }
def execDctlHaltreq (core ctx : Nat) (s : State) : Out := took (runDctlHaltreq core ctx s)

/-- A debug-halted context goes on: the stop at this boundary is behind it, and a failure recorded meanwhile parks it. -/
def leaveHalt (s : State) (c x : Nat) (step : Bool) : State :=
  let k := s.ctx c x
  if ¬ k.dhalt then s else
  let s := s.updCtx c x fun k => { k with dhalt := false, pass := true, stepping := step }
  let s := { s with stalled := s.stalled.filter fun p => p != (c, x) }
  if k.pend.isSome then s.pushOnce (.park c x) else s

/-- DCTL_RESUME. -/
def runDctlResume (c x : Nat) (s : State) : State := leaveHalt s c x false
def execDctlResume (core ctx : Nat) (s : State) : Out := took (runDctlResume core ctx s)

/-- DCTL_STEP (R376). -/
def runDctlStep (c x : Nat) (s : State) : State := leaveHalt s c x true
def execDctlStep (core ctx : Nat) (s : State) : Out := took (runDctlStep core ctx s)

/-- A command that an engine has begun. -/
def begun (s : State) (c : Nat) (o : Op) : Bool :=
  match o.body with
  | .copy k => !(s.core c).copyQ.contains o.id
  | .vec k => (s.core c).vecQ.head? == some o.id && k.pos != 0
  | .mat _ => (Tbl.read s.octets (octetOf c) {}).running == some (c, o.id)
  | _ => true

/-- DCTL_CANCEL (R376): queued, unstarted commands are discarded as by a guard that resolves false. -/
def runDctlCancel (c x : Nat) (s : State) : State :=
  if ¬ (s.ctx c x).dhalt then s else
  let mine := fun (o : Op) => o.ctx == x && live o && isEngine o && !begun s c o
  let drop := fun (o : Op) => if mine o then onGuarded (fun g => { g with taken := .discard }) o else o
  let queued := s.exchs.filter fun e => e.core == c && !e.active && !e.ended && (match opById s c e.op with | some o => o.ctx == x | none => false)
  let s := s.updCore c fun k => { k with ops := k.ops.map drop }
  wakeEngines (queued.foldl cancelExch s) c
def execDctlCancel (core ctx : Nat) (s : State) : Out := took (runDctlCancel core ctx s)

/-! The state block (R365, R375). -/

/-- A windowed register of the block: the live a-, l- and o-set, then the resident frames, oldest first. -/
def putWindowed (k : Ctx) (i : Nat) (v : Word) : Ctx :=
  if i < 24 then { k with regs := Tbl.put k.regs (8 + i) v }
  else
    let n := k.frames.length
    let f := (i - 24) / 16
    if f ≥ n then k else
    let at' := n - 1 - f
    { k with frames := k.frames.set at' ((k.frames.getD at' []).set ((i - 24) % 16) v) }

/-- The guards of GRDS; code 01 is read as unresolved. -/
def putGuards (k : Ctx) (v : Word) : Ctx :=
  (upFrom 1 7).foldl (fun k q => setGuard k (BitVec.ofNat 3 q) (match field v (2 * q - 1) (2 * q - 2) with
    | 2 => some false
    | 3 => some true
    | _ => none)) k

/-- A CSR of the block, with what its own write keeps (R47, R136, R353). -/
def putBlockCsr (k : Ctx) (i : Nat) (v : Word) : Ctx :=
  match i with
  | 0 => { k with fpc := putFpc k.fpc v }
  | 1 => { k with fpf := BitVec.ofNat 64 (field v 5 0) }
  | 2 => { k with nbv := if field v 1 0 = 0 then k.nbv else field v 1 0 }
  | 3 => { k with tvec := BitVec.ofNat 64 (field v 17 2 * 4) }
  | 4 => { k with epc := BitVec.ofNat 64 (field v 17 2 * 4) }
  | 5 => { k with ecause := BitVec.ofNat 64 (field v 7 0) }
  | 6 => { k with eaddr := v }
  | 7 => { k with einfo := v }
  | 8 =>
    let loop := if k.loop.isSome then
        (if field v 3 2 = 0 then none else some ⟨field v 3 2, field v 22 22 == 1, field v 21 6 * 4⟩)
      else none
    { k with estat := putEstat k.estat v, loop := loop }
  | 9 => { k with reix := BitVec.ofNat 64 (field v 31 0) }
  | _ => { k with wins := putWins v }

/-- A double word of a handle's 48 bytes: the record; the bytes of a binding keep what they are (log 16). -/
def putHandleWord (h : Handle) (i : Nat) (v : Word) : Handle :=
  let sh := h.shape
  match i with
  | 0 => { h with shape := { sh with d0 := v } }
  | 1 => { h with shape := { sh with d1 := v } }
  | 2 => { h with shape := { sh with d2 := v } }
  | 3 => { h with shape := { sh with d3 := v } }
  | _ => h

/-- A write of a state block (R375): the PC, registers, guards, CSRs, write pointers and handle records; commands already accepted
keep what they captured. -/
def putBlock (k : Ctx) (off : Nat) (v : Word) : Ctx :=
  if off % 8 ≠ 0 then k
  else if off = 0 then { k with pc := field v 17 2 * 4, events := field v 28 21 }
  else if 0x10 ≤ off ∧ off < 0x50 then (if off = 0x10 then k else { k with regs := Tbl.put k.regs ((off - 0x10) / 8) v })
  else if 0x50 ≤ off ∧ off < 0x290 then putWindowed k ((off - 0x50) / 8) v
  else if off = 0x2B0 then putGuards k v
  else if 0x2B8 ≤ off ∧ off < 0x310 then putBlockCsr k ((off - 0x2B8) / 8) v
  else if 0x310 ≤ off ∧ off < 0x330 then { k with wp := Tbl.put k.wp ((off - 0x310) / 8) v }
  else if 0x330 ≤ off ∧ off < 0x630 then
    let h := (off - 0x330) / 48
    { k with handles := Tbl.put k.handles h (putHandleWord (Tbl.read k.handles h {}) ((off - 0x330) % 48 / 8) v) }
  else k

/-- CONTEXT_STATE_WRITE: only while the context is debug-halted. -/
def runContextStateWrite (c x off : Nat) (v : Word) (s : State) : State :=
  if ¬ (s.ctx c x).dhalt then s else dropFetch (s.updCtx c x fun k => putBlock k off v) c
def execContextStateWrite (core ctx off : Nat) (v : Word) (s : State) : Out := took (runContextStateWrite core ctx off v s)

/-! Stops (R378). -/

/-- STOP_ENTRY_WRITE: double word `k` of entry `i`. -/
def runStopEntryWrite (i k : Nat) (v : Word) (s : State) : State :=
  if i ≥ 32 then s else
  let e := Tbl.read s.stops i {}
  let e := match k with
    | 0 => { e with gtid := v }
    | 1 => { e with gmask := v }
    | 2 => { e with w2 := BitVec.ofNat 64 (field v 31 31 * 2 ^ 31 + field v 19 0) }
    | _ => e
  { s with stops := Tbl.put s.stops i e }
def execStopEntryWrite (i k : Nat) (v : Word) (s : State) : Out := took (runStopEntryWrite i k v s)

/-- STOP_REQUEST: the context that runs the work halts; saved work halts as it resumes. -/
def runStopRequest (t : Word) (s : State) : State :=
  let mine := fun (k : Ctx) => k.work.isSome && gtidOf k == t
  match s.cores.findSome? fun e => (e.2.ctxs.find? fun x => mine x.2).map fun x => (e.1, x.1) with
  | some (c, x) => runDctlHaltreq c x { s with sgNone := false, sgtid := none }
  | none =>
    let found := s.dies.any fun d => d.2.slots.any fun v => mine v.2.ctx
    let ask := fun (v : SaveSlot) => if mine v.ctx then { v with ctx := { v.ctx with haltReq := true } } else v
    { s with
      sgNone := !found, sgtid := none
      dies := s.dies.map fun d => (d.1, { d.2 with slots := d.2.slots.map fun v => (v.1, ask v.2) }) }
def execStopRequest (gtid : Word) (s : State) : Out := took (runStopRequest gtid s)

/-! Dumps (R379). -/

/-- DUMP_START: refused for no launch with that GTB, or one that is not frozen. -/
def runDumpStart (g : Nat) (s : State) : State :=
  match s.dom? g with
  | none => { s with dstat := 3 }
  | some d =>
    if ¬ d.frozen then { s with dstat := 3 }
    else if s.dstat = 1 then s
    else State.push { s with dstat := 1, dgtb := g } .dumpWrite
def execDumpStart (gtb : Nat) (s : State) : Out := took (runDumpStart gtb s)

/-- A domain's stores and commands that are neither performed at system scope nor failed. -/
def dumpWaits (s : State) (g : Nat) : Bool :=
  s.cores.any fun e => e.2.ops.any fun o => o.dom == g && o.status == 0 && !isLoad o

/-- The failure list's entry for a store or a command that failed. Data and size of a command are not stated: free values. -/
def failEntry (s : State) (i : Nat) (o : Op) : List Byte :=
  match o.body with
  | .store n v .. => wordLE o.addr ++ wordLE v ++ natLE 1 n ++ natLE 1 o.cause.code ++ natLE 6 0 ++ wordLE o.gtid
  | _ => wordLE o.addr ++ wordLE (Config.freeWord (s.free + 2 * i)) ++ (wordLE (Config.freeWord (s.free + 2 * i + 1))).take 1
      ++ natLE 1 o.cause.code ++ natLE 6 0 ++ wordLE o.gtid

/-- Bytes written into host memory from an address up, a sector at a time. -/
def writeHost (s : State) (off : Nat) (bs : List Byte) : State :=
  (bySector (hostAddr off) bs).foldl (fun s e => hubWrite s e.1 e.2) s

/-- DUMP_WRITE: header, images of the resident contexts, failure list. The header's fields are double words. DESIGN CHOICE: log 37. -/
def runDumpWrite (s : State) : State :=
  let g := s.dgtb
  if s.dstat ≠ 1 then s
  else if dumpWaits s g then s.pushOnce .dumpWrite
  else
    let imgs := s.cores.flatMap fun e => (e.2.ctxs.filter fun x => inDom x.2 g).map fun x => stateBlock s e.1 x.1 x.2
    let fails := s.cores.flatMap fun e => e.2.ops.filter fun o => o.dom == g && o.status == 2 && (isStore o || isEngine o || isExch o)
    let head := natLE 8 g ++ natLE 8 imgs.length ++ natLE 8 fails.length ++ natLE 8 s.time ++ natLE 32 0
    let list := ((upFrom 0 fails.length).zip fails).flatMap fun (i, o) => failEntry s i o
    let all := head ++ imgs.flatten ++ list
    let s := { s with free := s.free + 2 * fails.length }
    if all.length ≤ s.dlen then { writeHost s s.dbuf.toNat all with dbytes := all.length, dstat := 2 }
    else if s.dlen < 64 then { s with dbytes := 0, dstat := 4 }
    else
      let fit := head ++ (imgs.take ((s.dlen - 64) / 2048)).flatten
      { writeHost s s.dbuf.toNat fit with dbytes := fit.length, dstat := 4 }
def execDumpWrite (s : State) : Out := took (runDumpWrite s)

/-! Trace and replay registers (R384, R385). -/

/-- TRACE_ENABLE: EN set, WIDX and DROPS cleared. -/
def runTraceEnable (d : Nat) (s : State) : State :=
  if ¬ s.diePresent d then s else s.updDie d fun k => { k with ten := true, widx := 0, drops := 0 }
def execTraceEnable (die : Nat) (s : State) : Out := took (runTraceEnable die s)

/-- REPLAY_ARM: PASSM1 of 0 leaves ARM unset. A write while a replay runs is ignored. DESIGN CHOICE: log 33. -/
def runReplayArm (v : Word) (s : State) : State :=
  if s.replay.rstat = 2 then s else
  let arm := v.getLsbD 16 && field v 10 8 != 0
  let rstat := if arm then 1 else if s.replay.rstat = 1 then 0 else s.replay.rstat
  { s with replay := { s.replay with arm := arm, passm1 := field v 10 8, win := field v 5 0, rstat := rstat } }
def execReplayArm (v : Word) (s : State) : Out := took (runReplayArm v s)

/-! Injection (R387). -/

/-- ERROR_INJECT_WRITE: mode 1 stands until the next write of its word; mode 2 at the hub poisons its sector now, and is then off. -/
def runErrorInjectWrite (t : InjTarget) (addr : Nat) (mask : Word) (mode : Byte) (s : State) : State :=
  let i : Inject := ⟨BitVec.ofNat 64 addr, mask, mode.toNat⟩
  match t with
  | .core c => s.updCore c fun k => { k with inj := i }
  | .hub =>
    if mode = 2 ∧ addr < 2 ^ 56 ∧ homeOf addr ≤ 5 ∧ homePresent s (homeOf addr) = true then
      hubLog (setPoison { s with hinj := { i with mode := 0 } } (addr / 64) true) (addr / 64 * 64) 3
    else { s with hinj := i }
def execErrorInjectWrite (t : InjTarget) (addr : Nat) (mask : Word) (mode : Byte) (s : State) : Out :=
  took (runErrorInjectWrite t addr mask mode s)

end Sys2Proof.Machine
end

