-- ==== Sys2Proof/Machine/HostPort.lean ====
section
/-!
DEFINITION. The hub register block (R389) as the host reads and writes it, register writes (R46), notifications (R390), bring-up
(R392), the firmware image (R394) and attestation (R395).
-/
set_option linter.all false
namespace Sys2Proof.Machine
open Sys2Proof

/-! Reading the block (R263, R267, R334, R377-R391, R393). -/

/-- A launch window's registers. -/
def readWinReg (k : LaunchWin) (o : Nat) : Word :=
  match o with
  | 0x00 => k.wbase
  | 0x08 => BitVec.ofNat 64 (bitN k.busy * 2 + bitN k.en)
  | 0x10 => BitVec.ofNat 64 (k.whead * 256 + k.wseq)
  | 0x18 => BitVec.ofNat 64 (k.lstat * 2 ^ 56 + k.lcause * 2 ^ 48 + k.lgtb)
  | _ => 0

/-- A die's control block. -/
def readDieReg (k : Die) (o : Nat) : Word :=
  match o with
  | 0x00 => BitVec.ofNat 64 (bitN (k.isolated || k.reset.isSome))
  | 0x08 => BitVec.ofNat 64 k.rstat
  | 0x18 => BitVec.ofNat 64 k.pool.length
  | _ => 0

/-- A die's trace registers. -/
def readTraceReg (k : Die) (o : Nat) : Word :=
  match o with
  | 0x00 => BitVec.ofNat 64 k.tbase
  | 0x08 => BitVec.ofNat 64 k.tsize
  | 0x10 => BitVec.ofNat 64 (k.tgtb * 65536 + bitN k.alld * 4 + bitN k.wrap * 2 + bitN k.ten)
  | 0x18 => BitVec.ofNat 64 k.widx
  | 0x20 => BitVec.ofNat 64 k.drops
  | _ => 0

/-- An Ethernet queue's registers. -/
def readEthReg (k : EthQ) (o : Nat) : Word :=
  match o with
  | 0x00 => BitVec.ofNat 64 k.base
  | 0x08 => BitVec.ofNat 64 k.size
  | 0x10 => BitVec.ofNat 64 k.proda
  | 0x18 => BitVec.ofNat 64 k.consa
  | 0x20 => BitVec.ofNat 64 (k.vec * 65536 + k.cause * 256 + bitN k.pfc * 4 + bitN k.stop * 2 + bitN k.en)
  | 0x28 => BitVec.ofNat 64 k.done
  | _ => 0

/-- Bytes of an area that holds them in order, as the double word at an offset. -/
def areaWord (bs : List Byte) (o : Nat) : Word := leWord (padTo 8 (bs.drop o))

/-- The hub's error log, then its injection register 0x400 above. DESIGN CHOICE of the places: log 37. -/
def hubErrorArea (s : State) : List Byte :=
  padTo 0x400 (s.hlogs.flatMap logBytes) ++ wordLE s.hinj.addr ++ wordLE s.hinj.mask ++ natLE 16 s.hinj.mode

/-- A double word of the block while the BAR is open. -/
def hubReg (s : State) (off : Nat) : Word :=
  let page := off / 0x10000
  let o := off % 0x10000
  match page with
  | 0 => if o = 0 then s.devcap else if o = 8 then BitVec.ofNat 64 s.fw else if o = 0x100 then BitVec.ofNat 64 s.time else 0
  | 1 => if o < 0x1000 then readWinReg (s.win (o / 64)) (o % 64) else 0
  | 2 => if o = 0 then s.nbase else if o = 8 then s.nsize else if o = 0x10 then BitVec.ofNat 64 s.ntail
      else if o = 0x18 then BitVec.ofNat 64 s.nhead else 0
  | 3 => if o < 0x80 ∧ s.diePresent (o / 32) = true then readDieReg (s.die (o / 32)) (o % 32)
      else if 0x200 ≤ o ∧ o < 0x220 then Tbl.read s.supCmd ((o - 0x200) / 8) 0 else 0
  | 4 =>
    if o < 0x400 then
      let e := Tbl.read s.stops (o / 32) {}
      match o % 32 / 8 with
      | 0 => e.gtid
      | 1 => e.gmask
      | 2 => e.w2
      | _ => 0
    else if o = 0x408 then BitVec.ofNat 64 (bitN s.sgNone * 2 + bitN s.sgtid.isSome)
    else if o = 0x418 then s.dbuf
    else if o = 0x420 then BitVec.ofNat 64 s.dlen
    else if o = 0x428 then BitVec.ofNat 64 (s.dbytes * 2 ^ 32 + s.dstat)
    else 0
  | 5 => if o < 0x100 ∧ s.diePresent (o / 64) = true then readTraceReg (s.die (o / 64)) (o % 64) else 0
  | 6 =>
    let r := s.replay
    if o = 0 then BitVec.ofNat 64 (bitN r.arm * 65536 + r.passm1 * 256 + r.win)
    else if o = 8 then r.resa
    else if 0x10 ≤ o ∧ o < 0x50 then Tbl.read r.psel ((o - 0x10) / 8) 0
    else if o = 0x50 then BitVec.ofNat 64 (r.pass * 256 + r.rstat)
    else 0
  | 7 => if o < 0x420 then areaWord (hubErrorArea s) o else 0
  | 8 => if o < 0x2C then BitVec.ofNat 64 (Tbl.read s.weights (o / 4) 0 + (if o + 4 < 0x2C then Tbl.read s.weights (o / 4 + 1) 0 else 0) * 2 ^ 32) else 0
  | 9 =>
    let p := o / 0x800
    let r := o % 0x800
    if ¬ s.portPresent p then 0
    else if r < 0x200 then readEthReg (s.queue p false (r / 64)) (r % 64)
    else if 0x400 ≤ r ∧ r < 0x600 then readEthReg (s.queue p true ((r - 0x400) / 64)) (r % 64)
    else if r = 0x740 then BitVec.ofNat 64 (bitN (s.port p).up)
    else if 0x700 ≤ r ∧ r < 0x740 then BitVec.ofNat 64 (Tbl.read (s.port p).stats (r - 0x700) 0)
    else 0
  | _ => 0

/-- Whether the block answers at an offset (R392): before step 4 no BAR; after a failed step the identity and load pages alone. -/
def barOpen (s : State) (off : Nat) : Bool :=
  if s.fw ≥ 0x80 then off < 0x2000 else 4 ≤ s.fw

/-- A double word as the host reads it over CXL.io. -/
def hostReads (s : State) (off : Nat) : Word := if barOpen s off then hubReg s off else 0

/-! Writing the block. -/

/-- A write of a launch window's register (R334). -/
def writeWinReg (s : State) (w o : Nat) (v : Word) : State :=
  let k := s.win w
  match o with
  | 0x00 => if k.en then s else s.setWin w { k with wbase := BitVec.ofNat 64 (field v 63 16 * 65536) }
  | 0x08 =>
    let s := if v.getLsbD 2 then s.push (.windowDestroy w) else s
    if v.getLsbD 0 ∧ ¬ k.en then (if v.getLsbD 2 then s else runWindowEnable w s)
    else if ¬ v.getLsbD 0 then s.setWin w { k with en := false } else s
  | 0x10 =>
    s.setWin w { k with
      whead := if k.en then k.whead else field v 14 8
      wseq := if field v 7 0 = 0 then k.wseq else field v 7 0 }
  | _ => s

/-- A write of an Ethernet queue's register (R263). -/
def writeEthReg (s : State) (p q : Nat) (rx : Bool) (o : Nat) (v : Word) : State :=
  let k := s.queue p rx q
  let shut := fun (f : EthQ → EthQ) => if k.en then s else s.updQueue p rx q f
  match o with
  | 0x00 => shut fun k => { k with base := field v 55 5 * 32 }
  | 0x08 => shut fun k => { k with size := field v 16 0 }
  | 0x10 => shut fun k => { k with proda := field v 55 3 * 8 }
  | 0x18 => shut fun k => { k with consa := field v 55 3 * 8 }
  | 0x20 =>
    let s := s.updQueue p rx q fun k => { k with vec := field v 21 16, pfc := rx && v.getLsbD 2 }
    if v.getLsbD 0 ∧ ¬ k.en then runEthQueueEnable p q rx s
    else if ¬ v.getLsbD 0 ∧ k.en = true then runEthQueueDisable p q rx s
    else s
  | _ => s

/-- A write of a die's trace register (R384). -/
def writeTraceReg (s : State) (d o : Nat) (v : Word) : State :=
  let t := s.die d
  match o with
  | 0x00 => if t.ten then s else s.updDie d fun t => { t with tbase := field v 55 5 * 32 }
  | 0x08 => if t.ten then s else s.updDie d fun t => { t with tsize := field v 24 0 }
  | 0x10 =>
    let s := s.updDie d fun t =>
      { t with tgtb := field v 31 16, alld := v.getLsbD 2, wrap := v.getLsbD 1, ten := t.ten && v.getLsbD 0 }
    if v.getLsbD 0 ∧ ¬ t.ten then runTraceEnable d s else s
  | _ => s

/-- A double word written by the host: its register, or the move that the write starts. -/
def putHubReg (s : State) (off : Nat) (v : Word) : State :=
  let o := off % 0x10000
  match off / 0x10000 with
  | 0 => if 0x1000 ≤ o ∧ o < 0x2000 then s.push (.firmwareLoadWrite (o - 0x1000) v) else s
  | 1 => if o < 0x1000 then writeWinReg s (o / 64) (o % 64) v else s
  | 2 =>
    if o = 0 then { s with nbase := v }
    else if o = 8 then { s with nsize := v }
    else if o = 0x18 then s.push (.notificationDrain v.toNat)
    else s
  | 3 =>
    if o < 0x80 then
      if ¬ s.diePresent (o / 32) then s
      else match o % 32 with
        | 0x00 => if v.getLsbD 1 then s.push (if v.getLsbD 2 then .dieResetForced (o / 32) else .dieResetGraceful (o / 32)) else s
        | 0x10 => s.push (.poolPush (o / 32) (field v 35 0))
        | _ => s
    else if o = 0x100 then s.push (.domainAbort (field v 15 0))
    else if o = 0x200 then s.push (.hostSupervisorCommand v)
    else if 0x200 ≤ o ∧ o < 0x220 then { s with supCmd := Tbl.put s.supCmd ((o - 0x200) / 8) v }
    else s
  | 4 =>
    if o < 0x400 then s.push (.stopEntryWrite (o / 32) (o % 32 / 8) v)
    else if o = 0x400 then State.push { s with sgtid := some v } (.stopRequest v)
    else if o = 0x410 then s.push (.dumpStart (field v 15 0))
    else if o = 0x418 then { s with dbuf := BitVec.ofNat 64 (field v 63 6 * 64) }
    else if o = 0x420 then { s with dlen := field v 31 0 }
    else s
  | 5 => if o < 0x100 ∧ s.diePresent (o / 64) = true then writeTraceReg s (o / 64) (o % 64) v else s
  | 6 =>
    if o = 0 then s.push (.replayArm v)
    else if o = 8 then { s with replay := { s.replay with resa := BitVec.ofNat 64 (field v 63 6 * 64) } }
    else if 0x10 ≤ o ∧ o < 0x50 then { s with replay := { s.replay with psel := Tbl.put s.replay.psel ((o - 0x10) / 8) v } }
    else s
  | 7 =>
    if o = 0x400 then runErrorInjectWrite .hub v.toNat s.hinj.mask (BitVec.ofNat 8 s.hinj.mode) s
    else if o = 0x408 then runErrorInjectWrite .hub s.hinj.addr.toNat v (BitVec.ofNat 8 s.hinj.mode) s
    else if o = 0x410 then runErrorInjectWrite .hub s.hinj.addr.toNat s.hinj.mask (v.setWidth 8) s
    else s
  | 9 =>
    let p := o / 0x800
    let r := o % 0x800
    if ¬ s.portPresent p then s
    else if r < 0x200 then writeEthReg s p (r / 64) false (r % 64) v
    else if 0x400 ≤ r ∧ r < 0x600 then writeEthReg s p ((r - 0x400) / 64) true (r % 64) v
    else s
  | _ => s

/-- REGISTER_WRITE (R46, R389): a CSR of a context of a core, or a double word of the hub register block. -/
def runRegisterWrite (r : RegTarget) (v : Word) (s : State) : State :=
  match r with
  | .csr c x n => attempt (.registerWrite r v) (csrPut s c x n v) (csrBegin s c x n v)
  | .hub off => if off % 8 ≠ 0 ∨ ¬ barOpen s off then s else putHubReg s off v
def execRegisterWrite (r : RegTarget) (v : Word) (s : State) : Out := took (runRegisterWrite r v s)

/-! Notifications (R390). -/

/-- The oldest held record written to the ring: a record's bytes, then TAIL, then vector 0. -/
def writeRecords : List (List Byte) → State → State
  | [], s => { s with nheld := [] }
  | r :: rest, s =>
    if ¬ ringRoom s then { s with nheld := r :: rest }
    else
      let s := hubWrite s (hostAddr (s.nbase.toNat + 64 * (s.ntail % s.nsize.toNat))) r
      writeRecords rest (State.emit { s with ntail := s.ntail + 1 } (.msix 0))

/-- NOTIFICATION_DRAIN: HEAD moves, held records are written in order while the ring has room, and launches that waited for them are
tried again. -/
def runNotificationDrain (head : Nat) (s : State) : State :=
  let s := if s.nhead ≤ head ∧ head ≤ s.ntail then { s with nhead := head } else s
  let full := s.nheld.length ≥ 1024
  let s := writeRecords s.nheld s
  if full ∧ s.nheld.length < 1024 ∧ ¬ s.pendingLaunch.isEmpty then s.pushOnce .launchRetry else s
def execNotificationDrain (head : Nat) (s : State) : Out := took (runNotificationDrain head s)

/-! Bring-up (R392). -/

/-- Device memory cleared by step 3: every byte of homes 0-5 reads 0 and no sector is poisoned; host memory stays. -/
def clearMemory (s : State) : State :=
  { s with mem := s.mem.filter (fun (e : Host.Cell) => decide (8 * 2 ^ 52 ≤ e.1 ∧ e.1 < 2 ^ 64)), poison := [] }

/-- The step at which bring-up stops: as given, or 2 where a signature of the image does not verify (R394). -/
def failsAt (s : State) (failAt : Option Nat) : Option Nat :=
  let n := failAt.getD 0
  if 1 ≤ n ∧ n ≤ 2 then some n
  else if ¬ Config.signaturesVerify s.fwImage then some 2
  else if 3 ≤ n ∧ n ≤ 6 then some n else none

/-- The ports' links trained. -/
def linksUp (s : State) : State :=
  (upFrom 0 8).foldl (fun s p => if s.portPresent p then s.updPort p fun k => { k with up := true } else s) { s with linkDown := [] }

/-- POWER_GOOD: the steps in order, each after the one before it has succeeded. -/
def runPowerGood (failAt : Option Nat) (s : State) : State :=
  if s.fw ≠ 0 then s else
  let done : Nat → Bool := fun n => match failsAt s failAt with | some m => decide (n < m) | none => true
  let s' := if done 3 then clearMemory s else s
  let s' := if done 5 then linksUp s' else s'
  { s' with fw := match failsAt s failAt with | some m => 0x80 + m | none => 6 }
def execPowerGood (failAt : Option Nat) (s : State) : Out := took (runPowerGood failAt s)

/-- Moves that come from outside the package. -/
def fromOutside (e : Event) : Bool :=
  match e with
  | .rd _ | .wr _ | .amo _ | .gwr _ | .xrun _ | .msg _ | .gangReserve _ | .gangCommit _ | .gangAbort _ | .mig _ | .shoot _ | .nadir _
  | .hostCxlRead .. | .hostCxlWrite .. | .ethReceive .. | .ethPauseReceive .. | .ethLinkChange .. | .registerWrite .. | .powerGood _
  | .packageReset _ | .firmwareLoadWrite .. | .spdmRequest _ => true
  | _ => false

/-- PACKAGE_RESET: everything at its reset value but the part's own constants, the firmware image, memory until step 3 clears it, and
the highest executed sequences of peers (R242); bring-up is next. -/
def runPackageReset (failAt : Option Nat) (s : State) : State :=
  let replies := s.replies.map fun e => (e.1, ({ high := e.2.high } : ReplyCache))
  { State.reset with
    devcap := s.devcap, pkid := s.pkid, weights := s.weights, fwImage := s.fwImage, mem := s.mem, poison := s.poison
    replies := replies, events := .powerGood failAt :: s.events.filter fromOutside
    turns := s.turns, free := s.free, nextId := s.nextId, out := s.out, pcap := s.designPower, reservoir := s.designPower * 1000 }
def execPackageReset (failAt : Option Nat) (s : State) : Out := took (runPackageReset failAt s)

/-- FIRMWARE_LOAD_WRITE: a double word of the image through the load page, which holds the one image. DESIGN CHOICE: log 37. -/
def runFirmwareLoadWrite (off : Nat) (v : Word) (s : State) : State :=
  if off % 8 ≠ 0 ∨ off ≥ 0x1000 then s else { s with fwImage := patch (padTo (max s.fwImage.length (off + 8)) s.fwImage) off (wordLE v) }
def execFirmwareLoadWrite (off : Nat) (v : Word) (s : State) : Out := took (runFirmwareLoadWrite off v s)

/-! Attestation (R395). -/

/-- The response code of a request that the device answers, by the codes of SPDM 1.2. PRESUMED: log 21. -/
def spdmResponse (code : Nat) : Option Nat :=
  match code with
  | 0x81 | 0x82 | 0x83 | 0x84 | 0xE0 | 0xE1 | 0xE3 | 0xFE => some (code - 0x80)
  | _ => none

/-- SPDM_REQUEST: the response, or ERROR (0x7F) with UnsupportedRequest (0x07). -/
def runSpdmRequest (code : Nat) (s : State) : State :=
  if s.fw < 4 ∨ s.fw ≥ 0x80 then s else
  match spdmResponse code with
  | some r => State.emit { s with free := s.free + 1 } (.spdm r (Config.spdmBody s.free))
  | none => s.emit (.spdm 0x7F [0x07])
def execSpdmRequest (code : Nat) (s : State) : Out := took (runSpdmRequest code s)

end Sys2Proof.Machine
end

