-- ==== Sys2Proof/Machine/Dispatch.lean ====
section
/-!
DEFINITION. The one dispatch of every row of the opcode table to its meaning.
-/
namespace Sys2Proof.Machine
open Sys2Proof

def exec (i : Instr) (s : State) : Host.Outcome State Fault Refusal :=
  match i with
  | .nop => Sys2Proof.Machine.execNop s
  | .trap n => Sys2Proof.Machine.execTrap n s
  | .svc b a => Sys2Proof.Machine.execSvc b a s
  | .hret => Sys2Proof.Machine.execHret s
  | .evwait d => Sys2Proof.Machine.execEvwait d s
  | .evpost a => Sys2Proof.Machine.execEvpost a s
  | .brk n => Sys2Proof.Machine.execBrk n s
  | .synci => Sys2Proof.Machine.execSynci s
  | .fence scope rel acq => Sys2Proof.Machine.execFence scope rel acq s
  | .bar scope a => Sys2Proof.Machine.execBar scope a s
  | .halt => Sys2Proof.Machine.execHalt s
  | .add v b a d => Sys2Proof.Machine.execAdd v b a d s
  | .sub v b a d => Sys2Proof.Machine.execSub v b a d s
  | .and v b a d => Sys2Proof.Machine.execAnd v b a d s
  | .or v b a d => Sys2Proof.Machine.execOr v b a d s
  | .xor v b a d => Sys2Proof.Machine.execXor v b a d s
  | .andn v b a d => Sys2Proof.Machine.execAndn v b a d s
  | .shl v b a d => Sys2Proof.Machine.execShl v b a d s
  | .shr v b a d => Sys2Proof.Machine.execShr v b a d s
  | .sar v b a d => Sys2Proof.Machine.execSar v b a d s
  | .rol v b a d => Sys2Proof.Machine.execRol v b a d s
  | .slt v b a d => Sys2Proof.Machine.execSlt v b a d s
  | .sltn v b a d => Sys2Proof.Machine.execSltn v b a d s
  | .min v b a d => Sys2Proof.Machine.execMin v b a d s
  | .max v b a d => Sys2Proof.Machine.execMax v b a d s
  | .minn v b a d => Sys2Proof.Machine.execMinn v b a d s
  | .maxn v b a d => Sys2Proof.Machine.execMaxn v b a d s
  | .mul v b a d => Sys2Proof.Machine.execMul v b a d s
  | .mulh v b a d => Sys2Proof.Machine.execMulh v b a d s
  | .mulhn v b a d => Sys2Proof.Machine.execMulhn v b a d s
  | .div v b a d => Sys2Proof.Machine.execDiv v b a d s
  | .divn v b a d => Sys2Proof.Machine.execDivn v b a d s
  | .rem v b a d => Sys2Proof.Machine.execRem v b a d s
  | .remn v b a d => Sys2Proof.Machine.execRemn v b a d s
  | .clz v a d => Sys2Proof.Machine.execClz v a d s
  | .ctz v a d => Sys2Proof.Machine.execCtz v a d s
  | .popc v a d => Sys2Proof.Machine.execPopc v a d s
  | .sext v a d => Sys2Proof.Machine.execSext v a d s
  | .zext v a d => Sys2Proof.Machine.execZext v a d s
  | .movg n q a d => Sys2Proof.Machine.execMovg n q a d s
  | .bswap v a d => Sys2Proof.Machine.execBswap v a d s
  | .addi im a d => Sys2Proof.Machine.execAddi im a d s
  | .addiLit im a d => Sys2Proof.Machine.execAddiLit im a d s
  | .andi im a d => Sys2Proof.Machine.execAndi im a d s
  | .andiLit im a d => Sys2Proof.Machine.execAndiLit im a d s
  | .ori im a d => Sys2Proof.Machine.execOri im a d s
  | .oriLit im a d => Sys2Proof.Machine.execOriLit im a d s
  | .xori im a d => Sys2Proof.Machine.execXori im a d s
  | .xoriLit im a d => Sys2Proof.Machine.execXoriLit im a d s
  | .shli im a d => Sys2Proof.Machine.execShli im a d s
  | .shri im a d => Sys2Proof.Machine.execShri im a d s
  | .sari im a d => Sys2Proof.Machine.execSari im a d s
  | .roli im a d => Sys2Proof.Machine.execRoli im a d s
  | .slti im a d => Sys2Proof.Machine.execSlti im a d s
  | .sltiLit im a d => Sys2Proof.Machine.execSltiLit im a d s
  | .sltin im a d => Sys2Proof.Machine.execSltin im a d s
  | .sltinLit im a d => Sys2Proof.Machine.execSltinLit im a d s
  | .ldi im d => Sys2Proof.Machine.execLdi im d s
  | .ldl im d => Sys2Proof.Machine.execLdl im d s
  | .cadr b a d => Sys2Proof.Machine.execCadr b a d s
  | .crel b a d => Sys2Proof.Machine.execCrel b a d s
  | .cxy a d => Sys2Proof.Machine.execCxy a d s
  | .cres a d => Sys2Proof.Machine.execCres a d s
  | .wfld k a d => Sys2Proof.Machine.execWfld k a d s
  | .ld o v a d => Sys2Proof.Machine.execLd o v a d s
  | .st o g z a b => Sys2Proof.Machine.execSt o g z a b s
  | .lsxLoad l => Sys2Proof.Machine.execLsxLoad l s
  | .lsxStore l => Sys2Proof.Machine.execLsxStore l s
  | .stmap b a d => Sys2Proof.Machine.execStmap b a d s
  | .stunmap a => Sys2Proof.Machine.execStunmap a s
  | .stflush a => Sys2Proof.Machine.execStflush a s
  | .lastuse b a => Sys2Proof.Machine.execLastuse b a s
  | .discard b a => Sys2Proof.Machine.execDiscard b a s
  | .pref b a => Sys2Proof.Machine.execPref b a s
  | .tlbinv a => Sys2Proof.Machine.execTlbinv a s
  | .aadd m => Sys2Proof.Machine.execAadd m s
  | .aand m => Sys2Proof.Machine.execAand m s
  | .aor m => Sys2Proof.Machine.execAor m s
  | .axor m => Sys2Proof.Machine.execAxor m s
  | .amin m => Sys2Proof.Machine.execAmin m s
  | .amax m => Sys2Proof.Machine.execAmax m s
  | .aminn m => Sys2Proof.Machine.execAminn m s
  | .amaxn m => Sys2Proof.Machine.execAmaxn m s
  | .aswap m => Sys2Proof.Machine.execAswap m s
  | .acas m => Sys2Proof.Machine.execAcas m s
  | .afadd m => Sys2Proof.Machine.execAfadd m s
  | .bz o hx c a => Sys2Proof.Machine.execBz o hx c a s
  | .bg o hx n q => Sys2Proof.Machine.execBg o hx n q s
  | .j o => Sys2Proof.Machine.execJ o s
  | .call o => Sys2Proof.Machine.execCall o s
  | .jr a => Sys2Proof.Machine.execJr a s
  | .callr a => Sys2Proof.Machine.execCallr a s
  | .ret => Sys2Proof.Machine.execRet s
  | .loop o a => Sys2Proof.Machine.execLoop o a s
  | .cmpgEq b a g => Sys2Proof.Machine.execCmpgEq b a g s
  | .cmpgNe b a g => Sys2Proof.Machine.execCmpgNe b a g s
  | .cmpgLt b a g => Sys2Proof.Machine.execCmpgLt b a g s
  | .cmpgGe b a g => Sys2Proof.Machine.execCmpgGe b a g s
  | .cmpgLtn b a g => Sys2Proof.Machine.execCmpgLtn b a g s
  | .cmpgGen b a g => Sys2Proof.Machine.execCmpgGen b a g s
  | .gset v g => Sys2Proof.Machine.execGset v g s
  | .gclr g => Sys2Proof.Machine.execGclr g s
  | .gmov hx g => Sys2Proof.Machine.execGmov hx g s
  | .gand j hx g => Sys2Proof.Machine.execGand j hx g s
  | .gor j hx g => Sys2Proof.Machine.execGor j hx g s
  | .gnot hx g => Sys2Proof.Machine.execGnot hx g s
  | .cmpgi im a c q => Sys2Proof.Machine.execCmpgi im a c q s
  | .cmpgiLit im a c q => Sys2Proof.Machine.execCmpgiLit im a c q s
  | .hld a hx => Sys2Proof.Machine.execHld a hx s
  | .hst a hx => Sys2Proof.Machine.execHst a hx s
  | .hset n a hx => Sys2Proof.Machine.execHset n a hx s
  | .hget n j d => Sys2Proof.Machine.execHget n j d s
  | .hadv hx => Sys2Proof.Machine.execHadv hx s
  | .hcopy j hx => Sys2Proof.Machine.execHcopy j hx s
  | .part b j hx => Sys2Proof.Machine.execPart b j hx s
  | .rbind a hx => Sys2Proof.Machine.execRbind a hx s
  | .rwait b hx => Sys2Proof.Machine.execRwait b hx s
  | .radvp b hx => Sys2Proof.Machine.execRadvp b hx s
  | .radvc b hx => Sys2Proof.Machine.execRadvc b hx s
  | .rcnt hx d => Sys2Proof.Machine.execRcnt hx d s
  | .wprd c d => Sys2Proof.Machine.execWprd c d s
  | .wpwait b c => Sys2Proof.Machine.execWpwait b c s
  | .fadd x r b a d => Sys2Proof.Machine.execFadd x r b a d s
  | .fsub x r b a d => Sys2Proof.Machine.execFsub x r b a d s
  | .fmul x r b a d => Sys2Proof.Machine.execFmul x r b a d s
  | .fdiv x r b a d => Sys2Proof.Machine.execFdiv x r b a d s
  | .fsqrt x r a d => Sys2Proof.Machine.execFsqrt x r a d s
  | .fmac x r b a d => Sys2Proof.Machine.execFmac x r b a d s
  | .fmin x b a d => Sys2Proof.Machine.execFmin x b a d s
  | .fmax x b a d => Sys2Proof.Machine.execFmax x b a d s
  | .fabs x a d => Sys2Proof.Machine.execFabs x a d s
  | .fneg x a d => Sys2Proof.Machine.execFneg x a d s
  | .fcvt x r c a d => Sys2Proof.Machine.execFcvt x r c a d s
  | .fclass x a d => Sys2Proof.Machine.execFclass x a d s
  | .fcmpg x b a c g => Sys2Proof.Machine.execFcmpg x b a c g s
  | .copy c b a d => Sys2Proof.Machine.execCopy c b a d s
  | .gather c b a d => Sys2Proof.Machine.execGather c b a d s
  | .scatter c b a d => Sys2Proof.Machine.execScatter c b a d s
  | .compact c b a d => Sys2Proof.Machine.execCompact c b a d s
  | .fill c b a d => Sys2Proof.Machine.execFill c b a d s
  | .flushr c a d => Sys2Proof.Machine.execFlushr c a d s
  | .cstat d => Sys2Proof.Machine.execCstat d s
  | .copyEcx e => Sys2Proof.Machine.execCopyEcx e s
  | .gatherEcx e => Sys2Proof.Machine.execGatherEcx e s
  | .scatterEcx e => Sys2Proof.Machine.execScatterEcx e s
  | .compactEcx e => Sys2Proof.Machine.execCompactEcx e s
  | .fillEcx e => Sys2Proof.Machine.execFillEcx e s
  | .flushrEcx e => Sys2Proof.Machine.execFlushrEcx e s
  | .xstart a d => Sys2Proof.Machine.execXstart a d s
  | .xstartEcx gd a d => Sys2Proof.Machine.execXstartEcx gd a d s
  | .xwait a d => Sys2Proof.Machine.execXwait a d s
  | .xstat a d => Sys2Proof.Machine.execXstat a d s
  | .xcancel a => Sys2Proof.Machine.execXcancel a s
  | .mcwr b a d => Sys2Proof.Machine.execMcwr b a d s
  | .aclwr b a d => Sys2Proof.Machine.execAclwr b a d s
  | .fend => Sys2Proof.Machine.execFend s
  | .fendCommit core ctx => Sys2Proof.Machine.execFendCommit core ctx s
  | .lvrd a d => Sys2Proof.Machine.execLvrd a d s
  | .lvstep a => Sys2Proof.Machine.execLvstep a s
  | .lvbind a d => Sys2Proof.Machine.execLvbind a d s
  | .lvsend b a => Sys2Proof.Machine.execLvsend b a s
  | .lvrecv a d => Sys2Proof.Machine.execLvrecv a d s
  | .freeze => Sys2Proof.Machine.execFreeze s
  | .thaw => Sys2Proof.Machine.execThaw s
  | .front a d => Sys2Proof.Machine.execFront a d s
  | .spawn b a f => Sys2Proof.Machine.execSpawn b a f s
  | .tend => Sys2Proof.Machine.execTend s
  | .joinw a => Sys2Proof.Machine.execJoinw a s
  | .launch a d => Sys2Proof.Machine.execLaunch a d s
  | .vadd v => Sys2Proof.Machine.execVadd v s
  | .vsub v => Sys2Proof.Machine.execVsub v s
  | .vmul v => Sys2Proof.Machine.execVmul v s
  | .vfma v => Sys2Proof.Machine.execVfma v s
  | .vfms v => Sys2Proof.Machine.execVfms v s
  | .vmin v => Sys2Proof.Machine.execVmin v s
  | .vmax v => Sys2Proof.Machine.execVmax v s
  | .vabs v => Sys2Proof.Machine.execVabs v s
  | .vneg v => Sys2Proof.Machine.execVneg v s
  | .vdiv v => Sys2Proof.Machine.execVdiv v s
  | .vsqrt v => Sys2Proof.Machine.execVsqrt v s
  | .vrcp v => Sys2Proof.Machine.execVrcp v s
  | .vrsq v => Sys2Proof.Machine.execVrsq v s
  | .vexp2 v => Sys2Proof.Machine.execVexp2 v s
  | .vlog2 v => Sys2Proof.Machine.execVlog2 v s
  | .vtanh v => Sys2Proof.Machine.execVtanh v s
  | .vsigm v => Sys2Proof.Machine.execVsigm v s
  | .vand v => Sys2Proof.Machine.execVand v s
  | .vor v => Sys2Proof.Machine.execVor v s
  | .vxor v => Sys2Proof.Machine.execVxor v s
  | .vnot v => Sys2Proof.Machine.execVnot v s
  | .vshl v => Sys2Proof.Machine.execVshl v s
  | .vshr v => Sys2Proof.Machine.execVshr v s
  | .vsar v => Sys2Proof.Machine.execVsar v s
  | .vcmp v => Sys2Proof.Machine.execVcmp v s
  | .vsel v => Sys2Proof.Machine.execVsel v s
  | .vcvt v => Sys2Proof.Machine.execVcvt v s
  | .vred v => Sys2Proof.Machine.execVred v s
  | .vscan v => Sys2Proof.Machine.execVscan v s
  | .vbcst v => Sys2Proof.Machine.execVbcst v s
  | .vlerp v => Sys2Proof.Machine.execVlerp v s
  | .vqexp v => Sys2Proof.Machine.execVqexp v s
  | .viota v => Sys2Proof.Machine.execViota v s
  | .vcount v => Sys2Proof.Machine.execVcount v s
  | .vclamp v => Sys2Proof.Machine.execVclamp v s
  | .mma m => Sys2Proof.Machine.execMma m s
  | .mmag m => Sys2Proof.Machine.execMmag m s
  | .mzero m => Sys2Proof.Machine.execMzero m s
  | .msca m => Sys2Proof.Machine.execMsca m s
  | .mrd m => Sys2Proof.Machine.execMrd m s
  | .mpri c => Sys2Proof.Machine.execMpri c s
  | .mwait => Sys2Proof.Machine.execMwait s
  | .cntrd n d => Sys2Proof.Machine.execCntrd n d s
  | .mark a => Sys2Proof.Machine.execMark a s
  | .csrrd n d => Sys2Proof.Machine.execCsrrd n d s
  | .csrwr n a => Sys2Proof.Machine.execCsrwr n a s
  | .csrsw n a d => Sys2Proof.Machine.execCsrsw n a d s
  | .csrset n a d => Sys2Proof.Machine.execCsrset n a d s
  | .csrclr n a d => Sys2Proof.Machine.execCsrclr n a d s
  | .stszWrite v => Sys2Proof.Machine.execStszWrite v s
  | .migthWrite v => Sys2Proof.Machine.execMigthWrite v s
  | .rchkClr => Sys2Proof.Machine.execRchkClr s
  | .rchkEnWrite en => Sys2Proof.Machine.execRchkEnWrite en s
  | .qtableWrite hi v => Sys2Proof.Machine.execQtableWrite hi v s
  | .fpCsrAccess acc => Sys2Proof.Machine.execFpCsrAccess acc s
  | .pcapWrite v => Sys2Proof.Machine.execPcapWrite v s
  | .registerWrite r v => Sys2Proof.Machine.execRegisterWrite r v s
  | .contextSelect core => Sys2Proof.Machine.execContextSelect core s
  | .loadReply core id => Sys2Proof.Machine.execLoadReply core id s
  | .storePerform core id => Sys2Proof.Machine.execStorePerform core id s
  | .park core ctx => Sys2Proof.Machine.execPark core ctx s
  | .stashFill core off => Sys2Proof.Machine.execStashFill core off s
  | .dieCacheEvict die line => Sys2Proof.Machine.execDieCacheEvict die line s
  | .directoryOverflowEvent core line requester => Sys2Proof.Machine.execDirectoryOverflowEvent core line requester s
  | .directoryOvfWrite core line => Sys2Proof.Machine.execDirectoryOvfWrite core line s
  | .pageWalk core dom va => Sys2Proof.Machine.execPageWalk core dom va s
  | .migrationStart dom va die => Sys2Proof.Machine.execMigrationStart dom va die s
  | .migrationComplete id => Sys2Proof.Machine.execMigrationComplete id s
  | .crossPackageMigration dom va dat => Sys2Proof.Machine.execCrossPackageMigration dom va dat s
  | .ownershipRequest die line id => Sys2Proof.Machine.execOwnershipRequest die line id s
  | .invalidationAck die line => Sys2Proof.Machine.execInvalidationAck die line s
  | .invalidationResend die line => Sys2Proof.Machine.execInvalidationResend die line s
  | .dieUnresponsive die => Sys2Proof.Machine.execDieUnresponsive die s
  | .hostCxlRead off n => Sys2Proof.Machine.execHostCxlRead off n s
  | .hostCxlWrite off bytes => Sys2Proof.Machine.execHostCxlWrite off bytes s
  | .memoryErrorDetected addr => Sys2Proof.Machine.execMemoryErrorDetected addr s
  | .dieResetGraceful die => Sys2Proof.Machine.execDieResetGraceful die s
  | .dieResetForced die => Sys2Proof.Machine.execDieResetForced die s
  | .dieResetEnd die => Sys2Proof.Machine.execDieResetEnd die s
  | .poolPush die frame => Sys2Proof.Machine.execPoolPush die frame s
  | .copyQueueRelease core => Sys2Proof.Machine.execCopyQueueRelease core s
  | .copyBeat core ch => Sys2Proof.Machine.execCopyBeat core ch s
  | .copyCommandEnd core ch => Sys2Proof.Machine.execCopyCommandEnd core ch s
  | .vectorBeat core => Sys2Proof.Machine.execVectorBeat core s
  | .vectorCommandEnd core => Sys2Proof.Machine.execVectorCommandEnd core s
  | .matrixSelect octet => Sys2Proof.Machine.execMatrixSelect octet s
  | .matrixKstep octet => Sys2Proof.Machine.execMatrixKstep octet s
  | .matrixOvertake octet pos => Sys2Proof.Machine.execMatrixOvertake octet pos s
  | .matrixCommandEnd octet => Sys2Proof.Machine.execMatrixCommandEnd octet s
  | .ringNotification core r toProducer => Sys2Proof.Machine.execRingNotification core r toProducer s
  | .levelNotification dom blk edge lvl step fin => Sys2Proof.Machine.execLevelNotification dom blk edge lvl step fin s
  | .gateEvaluate dom blk => Sys2Proof.Machine.execGateEvaluate dom blk s
  | .firingDispatch dom actor => Sys2Proof.Machine.execFiringDispatch dom actor s
  | .nadirRefresh dom => Sys2Proof.Machine.execNadirRefresh dom s
  | .lvstall dom => Sys2Proof.Machine.execLvstall dom s
  | .domainComplete dom => Sys2Proof.Machine.execDomainComplete dom s
  | .inboxMessage id => Sys2Proof.Machine.execInboxMessage id s
  | .supervisorMessage dom => Sys2Proof.Machine.execSupervisorMessage dom s
  | .resume core gtid => Sys2Proof.Machine.execResume core gtid s
  | .resumeValue core gtid v => Sys2Proof.Machine.execResumeValue core gtid v s
  | .restart core gtid => Sys2Proof.Machine.execRestart core gtid s
  | .abort core gtid => Sys2Proof.Machine.execAbort core gtid s
  | .p0Request core => Sys2Proof.Machine.execP0Request core s
  | .contextSave core ctx => Sys2Proof.Machine.execContextSave core ctx s
  | .contextResume die slot => Sys2Proof.Machine.execContextResume die slot s
  | .taskSearch core ctx => Sys2Proof.Machine.execTaskSearch core ctx s
  | .taskSearchRestEnd core => Sys2Proof.Machine.execTaskSearchRestEnd core s
  | .joinwWake core ctx => Sys2Proof.Machine.execJoinwWake core ctx s
  | .barrierDepart id => Sys2Proof.Machine.execBarrierDepart id s
  | .exchangeStart core => Sys2Proof.Machine.execExchangeStart core s
  | .exchangeRun id => Sys2Proof.Machine.execExchangeRun id s
  | .exchangeRunDeliver id => Sys2Proof.Machine.execExchangeRunDeliver id s
  | .exchangeAck id => Sys2Proof.Machine.execExchangeAck id s
  | .closingNotice id => Sys2Proof.Machine.execClosingNotice id s
  | .abandonment id => Sys2Proof.Machine.execAbandonment id s
  | .exchangeEnd id => Sys2Proof.Machine.execExchangeEnd id s
  | .rd p => Sys2Proof.Machine.execRd p s
  | .wr p => Sys2Proof.Machine.execWr p s
  | .amo p => Sys2Proof.Machine.execAmo p s
  | .gwr p => Sys2Proof.Machine.execGwr p s
  | .xrun p => Sys2Proof.Machine.execXrun p s
  | .msg p => Sys2Proof.Machine.execMsg p s
  | .gangReserve p => Sys2Proof.Machine.execGangReserve p s
  | .gangCommit p => Sys2Proof.Machine.execGangCommit p s
  | .gangAbort p => Sys2Proof.Machine.execGangAbort p s
  | .mig p => Sys2Proof.Machine.execMig p s
  | .shoot p => Sys2Proof.Machine.execShoot p s
  | .nadir p => Sys2Proof.Machine.execNadir p s
  | .cfg p => Sys2Proof.Machine.execCfg p s
  | .val p => Sys2Proof.Machine.execVal p s
  | .dep p => Sys2Proof.Machine.execDep p s
  | .cnt p => Sys2Proof.Machine.execCnt p s
  | .done p => Sys2Proof.Machine.execDone p s
  | .mack p => Sys2Proof.Machine.execMack p s
  | .nack p => Sys2Proof.Machine.execNack p s
  | .unknown p => Sys2Proof.Machine.execUnknown p s
  | .mackPortTimeout tag port => Sys2Proof.Machine.execMackPortTimeout tag port s
  | .amoRetransmit tag => Sys2Proof.Machine.execAmoRetransmit tag s
  | .amoTimeout tag => Sys2Proof.Machine.execAmoTimeout tag s
  | .linkGroupFail lg => Sys2Proof.Machine.execLinkGroupFail lg s
  | .linkGroupRestore lg => Sys2Proof.Machine.execLinkGroupRestore lg s
  | .gangReserveTimeout gtb => Sys2Proof.Machine.execGangReserveTimeout gtb s
  | .gangCommitTimeout gtb => Sys2Proof.Machine.execGangCommitTimeout gtb s
  | .reservationExpire gtb => Sys2Proof.Machine.execReservationExpire gtb s
  | .gangAbortResend gtb => Sys2Proof.Machine.execGangAbortResend gtb s
  | .launchWindowCopy v bytes => Sys2Proof.Machine.execLaunchWindowCopy v bytes s
  | .launchRetry => Sys2Proof.Machine.execLaunchRetry s
  | .energyWindow => Sys2Proof.Machine.execEnergyWindow s
  | .energyBudgetSpent dom => Sys2Proof.Machine.execEnergyBudgetSpent dom s
  | .windowEnable v => Sys2Proof.Machine.execWindowEnable v s
  | .windowDestroy v => Sys2Proof.Machine.execWindowDestroy v s
  | .domainAbort gtb => Sys2Proof.Machine.execDomainAbort gtb s
  | .hostSupervisorCommand v => Sys2Proof.Machine.execHostSupervisorCommand v s
  | .dctlHaltreq core ctx => Sys2Proof.Machine.execDctlHaltreq core ctx s
  | .dctlResume core ctx => Sys2Proof.Machine.execDctlResume core ctx s
  | .dctlStep core ctx => Sys2Proof.Machine.execDctlStep core ctx s
  | .dctlCancel core ctx => Sys2Proof.Machine.execDctlCancel core ctx s
  | .contextStateWrite core ctx off v => Sys2Proof.Machine.execContextStateWrite core ctx off v s
  | .stopEntryWrite im k v => Sys2Proof.Machine.execStopEntryWrite im k v s
  | .stopRequest gtid => Sys2Proof.Machine.execStopRequest gtid s
  | .dumpStart gtb => Sys2Proof.Machine.execDumpStart gtb s
  | .dumpWrite => Sys2Proof.Machine.execDumpWrite s
  | .traceEnable die => Sys2Proof.Machine.execTraceEnable die s
  | .replayArm v => Sys2Proof.Machine.execReplayArm v s
  | .replayPassEnd => Sys2Proof.Machine.execReplayPassEnd s
  | .errorInjectWrite t addr mask mode => Sys2Proof.Machine.execErrorInjectWrite t addr mask mode s
  | .notificationDrain head => Sys2Proof.Machine.execNotificationDrain head s
  | .ethQueueEnable p q rx => Sys2Proof.Machine.execEthQueueEnable p q rx s
  | .ethQueueDisable p q rx => Sys2Proof.Machine.execEthQueueDisable p q rx s
  | .ethProducerUpdate p q rx => Sys2Proof.Machine.execEthProducerUpdate p q rx s
  | .ethTransmit p q => Sys2Proof.Machine.execEthTransmit p q s
  | .ethReceive p frame fcsOk => Sys2Proof.Machine.execEthReceive p frame fcsOk s
  | .ethPauseReceive p prio => Sys2Proof.Machine.execEthPauseReceive p prio s
  | .ethLinkChange p up => Sys2Proof.Machine.execEthLinkChange p up s
  | .powerGood failAt => Sys2Proof.Machine.execPowerGood failAt s
  | .packageReset failAt => Sys2Proof.Machine.execPackageReset failAt s
  | .firmwareLoadWrite off v => Sys2Proof.Machine.execFirmwareLoadWrite off v s
  | .amoPerform core id => Sys2Proof.Machine.execAmoPerform core id s
  | .backgroundRangeOperation core id => Sys2Proof.Machine.execBackgroundRangeOperation core id s
  | .cxlCacheSnoop line => Sys2Proof.Machine.execCxlCacheSnoop line s
  | .spdmRequest code => Sys2Proof.Machine.execSpdmRequest code s
  | .ethPauseExpire p prio => Sys2Proof.Machine.execEthPauseExpire p prio s

end Sys2Proof.Machine
end

