-- ==== Sys2Proof/Machine/Moves.lean ====
section
/-!
DEFINITION. A pending move carried out: each by the meaning of its row of the opcode table.
-/
set_option linter.all false
namespace Sys2Proof.Machine
open Sys2Proof

/-- A pending move is the step of the row of the same name. -/
def runEvent (e : Event) (s : State) : Out :=
  match e with
  | .fendCommit core ctx => execFendCommit core ctx s
  | .stszWrite v => execStszWrite v s
  | .migthWrite v => execMigthWrite v s
  | .rchkClr => execRchkClr s
  | .rchkEnWrite en => execRchkEnWrite en s
  | .qtableWrite hi v => execQtableWrite hi v s
  | .fpCsrAccess acc => execFpCsrAccess acc s
  | .pcapWrite v => execPcapWrite v s
  | .registerWrite r v => execRegisterWrite r v s
  | .contextSelect core => execContextSelect core s
  | .loadReply core id => execLoadReply core id s
  | .storePerform core id => execStorePerform core id s
  | .park core ctx => execPark core ctx s
  | .stashFill core off => execStashFill core off s
  | .dieCacheEvict die line => execDieCacheEvict die line s
  | .directoryOverflowEvent core line requester => execDirectoryOverflowEvent core line requester s
  | .directoryOvfWrite core line => execDirectoryOvfWrite core line s
  | .pageWalk core dom va => execPageWalk core dom va s
  | .migrationStart dom va die => execMigrationStart dom va die s
  | .migrationComplete id => execMigrationComplete id s
  | .crossPackageMigration dom va dat => execCrossPackageMigration dom va dat s
  | .ownershipRequest die line id => execOwnershipRequest die line id s
  | .invalidationAck die line => execInvalidationAck die line s
  | .invalidationResend die line => execInvalidationResend die line s
  | .dieUnresponsive die => execDieUnresponsive die s
  | .hostCxlRead off n => execHostCxlRead off n s
  | .hostCxlWrite off bytes => execHostCxlWrite off bytes s
  | .memoryErrorDetected addr => execMemoryErrorDetected addr s
  | .dieResetGraceful die => execDieResetGraceful die s
  | .dieResetForced die => execDieResetForced die s
  | .dieResetEnd die => execDieResetEnd die s
  | .poolPush die frame => execPoolPush die frame s
  | .copyQueueRelease core => execCopyQueueRelease core s
  | .copyBeat core ch => execCopyBeat core ch s
  | .copyCommandEnd core ch => execCopyCommandEnd core ch s
  | .vectorBeat core => execVectorBeat core s
  | .vectorCommandEnd core => execVectorCommandEnd core s
  | .matrixSelect octet => execMatrixSelect octet s
  | .matrixKstep octet => execMatrixKstep octet s
  | .matrixOvertake octet pos => execMatrixOvertake octet pos s
  | .matrixCommandEnd octet => execMatrixCommandEnd octet s
  | .ringNotification core rec toProducer => execRingNotification core rec toProducer s
  | .levelNotification dom blk edge lvl step fin => execLevelNotification dom blk edge lvl step fin s
  | .gateEvaluate dom blk => execGateEvaluate dom blk s
  | .firingDispatch dom actor => execFiringDispatch dom actor s
  | .nadirRefresh dom => execNadirRefresh dom s
  | .lvstall dom => execLvstall dom s
  | .domainComplete dom => execDomainComplete dom s
  | .inboxMessage id => execInboxMessage id s
  | .supervisorMessage dom => execSupervisorMessage dom s
  | .resume core gtid => execResume core gtid s
  | .resumeValue core gtid v => execResumeValue core gtid v s
  | .restart core gtid => execRestart core gtid s
  | .abort core gtid => execAbort core gtid s
  | .p0Request core => execP0Request core s
  | .contextSave core ctx => execContextSave core ctx s
  | .contextResume die slot => execContextResume die slot s
  | .taskSearch core ctx => execTaskSearch core ctx s
  | .taskSearchRestEnd core => execTaskSearchRestEnd core s
  | .joinwWake core ctx => execJoinwWake core ctx s
  | .barrierDepart id => execBarrierDepart id s
  | .exchangeStart core => execExchangeStart core s
  | .exchangeRun id => execExchangeRun id s
  | .exchangeRunDeliver id => execExchangeRunDeliver id s
  | .exchangeAck id => execExchangeAck id s
  | .closingNotice id => execClosingNotice id s
  | .abandonment id => execAbandonment id s
  | .exchangeEnd id => execExchangeEnd id s
  | .rd p => execRd p s
  | .wr p => execWr p s
  | .amo p => execAmo p s
  | .gwr p => execGwr p s
  | .xrun p => execXrun p s
  | .msg p => execMsg p s
  | .gangReserve p => execGangReserve p s
  | .gangCommit p => execGangCommit p s
  | .gangAbort p => execGangAbort p s
  | .mig p => execMig p s
  | .shoot p => execShoot p s
  | .nadir p => execNadir p s
  | .cfg p => execCfg p s
  | .val p => execVal p s
  | .dep p => execDep p s
  | .cnt p => execCnt p s
  | .done p => execDone p s
  | .mack p => execMack p s
  | .nack p => execNack p s
  | .unknown p => execUnknown p s
  | .mackPortTimeout tag port => execMackPortTimeout tag port s
  | .amoRetransmit tag => execAmoRetransmit tag s
  | .amoTimeout tag => execAmoTimeout tag s
  | .linkGroupFail lg => execLinkGroupFail lg s
  | .linkGroupRestore lg => execLinkGroupRestore lg s
  | .gangReserveTimeout gtb => execGangReserveTimeout gtb s
  | .gangCommitTimeout gtb => execGangCommitTimeout gtb s
  | .reservationExpire gtb => execReservationExpire gtb s
  | .gangAbortResend gtb => execGangAbortResend gtb s
  | .launchWindowCopy win bytes => execLaunchWindowCopy win bytes s
  | .launchRetry => execLaunchRetry s
  | .energyWindow => execEnergyWindow s
  | .energyBudgetSpent dom => execEnergyBudgetSpent dom s
  | .windowEnable win => execWindowEnable win s
  | .windowDestroy win => execWindowDestroy win s
  | .domainAbort gtb => execDomainAbort gtb s
  | .hostSupervisorCommand v => execHostSupervisorCommand v s
  | .dctlHaltreq core ctx => execDctlHaltreq core ctx s
  | .dctlResume core ctx => execDctlResume core ctx s
  | .dctlStep core ctx => execDctlStep core ctx s
  | .dctlCancel core ctx => execDctlCancel core ctx s
  | .contextStateWrite core ctx off v => execContextStateWrite core ctx off v s
  | .stopEntryWrite i k v => execStopEntryWrite i k v s
  | .stopRequest gtid => execStopRequest gtid s
  | .dumpStart gtb => execDumpStart gtb s
  | .dumpWrite => execDumpWrite s
  | .traceEnable die => execTraceEnable die s
  | .replayArm v => execReplayArm v s
  | .replayPassEnd => execReplayPassEnd s
  | .errorInjectWrite t addr mask mode => execErrorInjectWrite t addr mask mode s
  | .notificationDrain head => execNotificationDrain head s
  | .ethQueueEnable p q rx => execEthQueueEnable p q rx s
  | .ethQueueDisable p q rx => execEthQueueDisable p q rx s
  | .ethProducerUpdate p q rx => execEthProducerUpdate p q rx s
  | .ethTransmit p q => execEthTransmit p q s
  | .ethReceive p frame fcsOk => execEthReceive p frame fcsOk s
  | .ethPauseReceive p prio => execEthPauseReceive p prio s
  | .ethLinkChange p up => execEthLinkChange p up s
  | .powerGood failAt => execPowerGood failAt s
  | .packageReset failAt => execPackageReset failAt s
  | .firmwareLoadWrite off v => execFirmwareLoadWrite off v s
  | .amoPerform core id => execAmoPerform core id s
  | .backgroundRangeOperation core id => execBackgroundRangeOperation core id s
  | .cxlCacheSnoop line => execCxlCacheSnoop line s
  | .spdmRequest code => execSpdmRequest code s
  | .ethPauseExpire p prio => execEthPauseExpire p prio s

end Sys2Proof.Machine
end

