-- ==== Sys2Proof/Machine/Step.lean ====
section
/-!
DEFINITION. One step of the package: the schedule picks a pending move or the issuing context (log 1); and the state in which a given
instruction is the next one.
-/
set_option linter.all false
namespace Sys2Proof.Machine
open Sys2Proof

/-! Issue (R7, R42, R70, R378). -/

/-- Whether a stop entry halts a context before the instruction at its PC (R378). -/
def stopBefore (s : State) (k : Ctx) (isFend : Bool) : Bool :=
  !k.pass && k.work.isSome && s.stops.any fun e =>
    watches e.2 (gtidOf k) && match field e.2.w2 19 18 with
      | 0 => k.pc == field e.2.w2 17 0
      | 1 => k.first
      | 2 => isFend
      | _ => false

/-- Bytes of an instruction whose first word has that LEN. -/
def lenBytes (w0 : Nat) : Nat := 4 * lenWords (w0 % 4)

/-- The issuing context's next instruction: fetched, decoded and executed; words that decode to nothing raise ILL (R42). -/
def issueNext (s : State) : Out :=
  let (c, x) := s.cur
  let k := s.ctx c x
  if k.haltReq then .next (s.updCtx c x fun k => { k with dhalt := true, haltReq := false })
  else
    match fetchInstr s c (bankCore s c x) k.pc with
    | .error p => .next (finish 4 none (.fault p s))
    | .ok (ws, t) =>
      match decode ws with
      | .ok i =>
        if stopBefore s k (i == .fend) then .next (s.updCtx c x fun k => { k with dhalt := true }) else exec i t
      | .error _ =>
        if stopBefore s k false then .next (s.updCtx c x fun k => { k with dhalt := true })
        else .next (finish (lenBytes (ws.headD 0)) none (illegal .ill (ws.headD 0) t))

/-! Time (R344, R380, R383). -/

/-- `n` cycles pass: every core's counters of cycles, and the energy windows that begin. -/
def tick (s : State) (n : Nat) : State :=
  let s := s.cores.foldl (fun s e => countEv s e.1 (if e.1 = s.cur.1 then s.cur.2 else 16) 1 n) s
  let t := { s with time := (s.time + n) % 2 ^ 64 }
  if (s.time + n) / Config.windowCycles = s.time / Config.windowCycles then t else t.pushOnce .energyWindow

/-! Turns (log 1). -/

/-- After an issue: the context is no longer selected; whatever did not end in a wait lets every waiting context try again. -/
def afterTurn (c x : Nat) (s : State) : State :=
  let s := { s with selected := false, spun := 0 }
  if s.stalled.any (· == (c, x)) then s else { s with stalled := [] }

/-- An issue turn of `n` cycles. -/
def issueTurn (n : Nat) (s : State) : Out :=
  match issueNext s with
  | .next t => .next (afterTurn s.cur.1 s.cur.2 (tick t n))
  | r => r

/-- Whether a pending move, `e`, may not be passed by another, `f`: level notifications along one edge (R317); what a source sends to one line
or group (R248, R255); at one port, requests that have not passed it (R245). -/
def holdsBack (s : State) (e f : Event) : Bool :=
  match e, f with
  | .levelNotification g b i _ _ _, .levelNotification g' b' i' _ _ _ => g' == g && b' == b && i' == i
  | e, f => match requestOf e, requestOf f with
    | some p, some q =>
      let here := fun (p : Packet) => p.src != s.pkid && (inboundOf s p.src p.tag).isNone
      sentInOrder p q || (here p && here q && inPort p == inPort q)
    | _, _ => false

/-- The pending move to be taken for a pick: the first of those that it may not pass. -/
def pickedAt (s : State) (n : Nat) : Nat :=
  match s.events[n]? with
  | some f => min n (s.events.findIdx fun e => holdsBack s e f)
  | none => n

/-- A pending move's turn; one that stands again has only waited. -/
def eventTurn (n : Nat) (s : State) : Out :=
  match s.events[n]? with
  | none => .next s
  | some e =>
    match runEvent e { s with events := s.events.eraseIdx n } with
    | .next t =>
      let waited := t.events.contains e
      .next { t with stalled := [], spun := if waited then s.spun + 1 else 0 }
    | r => r

/-- The core after the last one that has a context to issue. -/
def nextCore (s : State) : Option Nat :=
  let can := (s.cores.filter fun e => !(issuable s e.1).isEmpty).map (·.1)
  let least := fun (l : List Nat) => l.foldl (fun (m : Option Nat) c => match m with | some v => some (min v c) | none => some c) none
  match least (can.filter (· > s.cur.1)) with
  | some c => some c
  | none => least can

/-- An issue turn where the schedule leaves it to the model: the selected context, or the choice of the next one, or an idle cycle. -/
def issueOrSelect (n : Nat) (s : State) : Out :=
  if canIssue s s.cur.1 s.cur.2 && s.selected then issueTurn n s
  else
    match nextCore s with
    | some c => execContextSelect c { s with selected := false }
    | none => .next { tick s n with spun := 0, selected := false }

/-- The turn when no schedule is given: pending moves first, each once around, then issue. -/
def defaultTurn (s : State) : Out :=
  if ¬ s.events.isEmpty ∧ s.spun < s.events.length then eventTurn 0 s else issueOrSelect 1 s

/-- A turn of the schedule. -/
def takeTurn (t : Turn) (s : State) : Out :=
  match t.pick with
  | .issue => if canIssue s s.cur.1 s.cur.2 then issueTurn t.cycles s else issueOrSelect t.cycles s
  | .event n => if n < s.events.length then eventTurn (pickedAt s n) s else defaultTurn s

/-- A move that a part answers whose bring-up has failed (R392). -/
def answeredDead (e : Event) : Bool :=
  match e with
  | .powerGood _ | .packageReset _ | .firmwareLoadWrite .. | .registerWrite (.hub _) _ => true
  | _ => false

/-- One step. Where bring-up has failed only the identity and load pages respond: without a move for them nothing happens. -/
def step (s : State) : Host.Outcome State Fault Refusal :=
  if s.fw ≥ 0x80 then
    let n := s.events.findIdx answeredDead
    if n < s.events.length then eventTurn n s else .fault (.notReady s.fw)
  else
    match s.turns with
    | t :: rest => takeTurn t { s with turns := rest }
    | [] => defaultTurn s

/-! The next instruction. -/

/-- A context that issues next. -/
def readyCtx (k : Ctx) : Ctx :=
  { k with
    status := .ready, pend := none, later := [], dhalt := false, haltReq := false, frozenHalt := false, p0halt := false, pass := true
    pc := if k.pc % 4 = 0 ∧ k.pc + 20 ≤ bankEnd then k.pc else 0 }

/-- The state with the instruction of `nbits` bits `w` where the next step fetches: in the banks of the issuing context, or of context 0 of
core 0 where none issues, at its PC; that context is ready and its core's fetch buffer empty. -/
def State.withFetchWord (s : State) (nbits w : Nat) : State :=
  let (c, x) := if canIssue s s.cur.1 s.cur.2 then s.cur else (0, 0)
  let s := s.updCtx c x readyCtx
  let b := bankCore s c x
  let pc := (s.ctx c x).pc
  let bytes := natLE 20 (w % 2 ^ nbits)
  let s := s.updCore b fun k => { k with
    mem := writeBytes k.mem pc bytes, bad := k.bad.filter fun i => !(pc / 8 ≤ i && i ≤ (pc + 19) / 8) }
  let s := dropFetch s c
  let s := if (s.die (dieOf c)).reset.isNone && !(s.die (dieOf c)).isolated then s
    else s.updDie (dieOf c) fun d => { d with reset := none, isolated := false }
  { s with
    cur := (c, x), selected := true, turns := [⟨.issue, 1⟩], fw := if s.fw ≥ 0x80 then 6 else s.fw
    stalled := s.stalled.filter fun p => p != (c, x) }

end Sys2Proof.Machine
end

