-- ==== Sys2Proof/Safety.lean ====
section
/-!
DEFINITION. The terms in which claims are stated: that an instruction runs, what it leaves unchanged, and where the program counter
goes.
-/
set_option linter.all false
namespace Sys2Proof.Machine
open Sys2Proof

/-- `exec` answers a next state, of which `P` holds. -/
def Runs (i : Instr) (s : State) (P : State → Prop) : Prop := ∃ t, exec i s = .next t ∧ P t

/-- No outstanding reply will write any of the registers, so that an instruction that names them does not wait (R84, R93). -/
abbrev Settled (s : State) (rs : List Reg) : Prop := ∀ r ∈ rs, busyReg (opsOf s s.cur.1 s.cur.2) r = false

/-! What stays. -/

/-- Every byte of every memory reads as before: device and host memory, what the die caches hold of it, and the banks of
every core. -/
def BytesKept (s t : State) : Prop :=
  (∀ a, readByte t.mem a = readByte s.mem a) ∧ (∀ d, (t.die d).sectors = (s.die d).sectors)
    ∧ ∀ c a, readByte (t.core c).mem a = readByte (s.core c).mem a

/-- Every register of the issuing context's window but those listed. -/
def RegsKept (s t : State) (but : List Reg) : Prop := ∀ r, r ∉ but → rd t.k r = rd s.k r

/-- Every guard of the issuing context but those listed. -/
def GuardsKept (s t : State) (but : List QIx) : Prop := ∀ q, q ∉ but → guardOf t.k q = guardOf s.k q

/-- The control and special registers of a context, its exception registers among them (R136, R137, R145, R353, R116, R106, R177,
R191, R329). -/
def specials (k : Ctx) : List Word × List Nat × Tbl Word × Option Nat × Option Nat :=
  ([k.fpc, k.fpf, k.widl, k.supv, k.tvec, k.epc, k.ecause, k.eaddr, k.einfo, k.estat, k.reix, k.wins], [k.nbv, k.matCls, k.events, k.depth],
    k.wp, k.lvstep, k.acc)

/-- Every other context of the package. -/
def OthersKept (s t : State) : Prop := ∀ c x, (c, x) ≠ s.cur → t.ctx c x = s.ctx c x

/-- A core but for its contexts, its fetch buffer and its counters. -/
abbrev CoreKept (a b : Core) : Prop := { b with ctxs := a.ctxs, fetch := a.fetch, pmc := a.pmc } = a

/-- The whole package but for the issuing context, its core's fetch buffer and counters, its launch's meter, and the move that
follows when that launch has spent its energy (R70, R343, R380). -/
def PackageKept (s t : State) : Prop :=
  { t with cores := s.cores, doms := s.doms, events := s.events } = s
    ∧ (∀ c, CoreKept (s.core c) (t.core c)) ∧ OthersKept s t ∧ ∀ g, { t.dom g with meter := (s.dom g).meter } = s.dom g

/-- A context but for its registers, its PC and what every retirement clears (R70, R216, R294, R374, R378). -/
abbrev ContextKept (a b : Ctx) : Prop :=
  { b with
    regs := a.regs, replies := a.replies, region := a.region, pc := a.pc, loop := a.loop, back := a.back, xwait := a.xwait
    oneDefault := a.oneDefault, first := a.first, pass := a.pass, guardWait := a.guardWait, stepping := a.stepping, dhalt := a.dhalt } = a

/-! Where the program counter goes (R8, R292, R294). -/

/-- The PC after an instruction of `len` bytes that is no transfer: the second slot of a LOOP that branches goes to the LOOP's
target; an access that was replayed goes back to where its firing had stopped (R362). -/
def nextPc (k : Ctx) (len : Nat) : Nat :=
  match k.back, k.loop with
  | (p, _) :: _, _ => p
  | [], some l => if l.slot > 1 ∧ l.taken then l.target else k.pc + len
  | [], none => k.pc + len

/-- The instruction retires and leaves everything but the issuing context as it was. -/
def Retires (len : Nat) (s t : State) : Prop := t.k.pc = nextPc s.k len ∧ PackageKept s t

/-- The instruction retires with one destination register, which holds the value; a write of g0 is discarded (R13). -/
def Writes (len : Nat) (d : Reg) (v : Word) (s t : State) : Prop :=
  rd t.k d = (if d = 0 then 0 else v) ∧ RegsKept s t [d] ∧ ContextKept s.k t.k ∧ Retires len s t

/-- The instruction retires to a target (R70, R287). -/
def Transfers (p : Nat) (s t : State) : Prop :=
  t.k.pc = p ∧ RegsKept s t [] ∧ ContextKept s.k t.k ∧ PackageKept s t

/-- The instruction retires and writes no register. -/
def OnlyRetires (len : Nat) (s t : State) : Prop := RegsKept s t [] ∧ ContextKept s.k t.k ∧ Retires len s t

/-! How an instruction stops (R353, R357, R358). -/

/-- The message of a precise park: KIND 0, the cause, the place, the firing, and the detail (R358). -/
def parkMessage (p : Stop) (s : State) : SMsg :=
  ⟨smsgHead s.cur.1 s.cur.2 s.k.pc 0 p.cause.code, gtidOf s.k, if p.cause = .fpx then 0 else p.eaddr, p.einfo⟩

/-- What neither a stop nor a wait touches: the handles, the saved frames, the write pointers, the recorded step, the accumulator slot and
class, the event count, and the control registers (R43, R122, R364). -/
abbrev Retained (a b : Ctx) : Prop :=
  (b.handles, b.frames, b.depth, b.wp, b.lvstep, b.acc, b.matCls, b.nbv, b.events, [b.fpc, b.widl, b.supv, b.tvec, b.wins])
    = (a.handles, a.frames, a.depth, a.wp, a.lvstep, a.acc, a.matCls, a.nbv, a.events, [a.fpc, a.widl, a.supv, a.tvec, a.wins])

/-- The instruction does not retire: its firing is parked with the stop in its exception registers; no register, guard, handle, control
register or byte has changed, and no other context. -/
def Parks (p : Stop) (s t : State) : Prop :=
  t.k.status = .parked ∧ t.k.pc = s.k.pc ∧ t.k.epc = BitVec.ofNat 64 s.k.pc ∧ t.k.ecause = BitVec.ofNat 64 p.cause.code
    ∧ t.k.eaddr = p.eaddr ∧ t.k.einfo = p.einfo ∧ Retained s.k t.k ∧ RegsKept s t [] ∧ GuardsKept s t [] ∧ OthersKept s t ∧ BytesKept s t

/-- The domain's supervisor is sent exactly that message; a supervisor's own stop goes to the host instead (R357, R363). -/
def Tells (p : Stop) (s t : State) : Prop :=
  if isSuper s s.k then (t.dom (domOf s.k)).frozen = true ∧ t.nheld.length = s.nheld.length + 1
  else (t.dom (domOf s.k)).waitMsgs = (s.dom (domOf s.k)).waitMsgs ++ [parkMessage p s]

/-- The instruction waits at issue: nothing has changed but that the context stands among the waiting ones (R364). -/
def Waits (s t : State) : Prop :=
  t.k.pc = s.k.pc ∧ RegsKept s t [] ∧ GuardsKept s t [] ∧ OthersKept s t ∧ BytesKept s t ∧ specials t.k = specials s.k ∧ Retained s.k t.k

end Sys2Proof.Machine
end

