-- ==== Sys2Proof/Certificates/Slice0/Obligations.lean ====
section
/-!
DEFINITION. The statements for the provers: what the rules of spec/ say that each instruction and each step of the part's units does.
-/
set_option linter.all false
namespace Sys2Proof.Claims
end Sys2Proof.Claims

section
open Sys2Proof Sys2Proof.Machine Sys2Proof.Claims

/-! ## Words, steps and the machine as a whole (R7-R15, R27-R43, R70, R392) -/

/-- The word of format A: MAJ, D, A, B, F and X at the bits that R10 gives them. -/
def Sys2Proof.Claims.formatA (maj f x b a d : Nat) : Nat := maj * 2 ^ 2 + d * 2 ^ 8 + a * 2 ^ 13 + b * 2 ^ 18 + f * 2 ^ 23 + x * 2 ^ 30

/-- R7, R10, R15, R27-R40: words written out from the encoding tables decode to the instructions that they stand for; a word of an
unassigned major, an unassigned function or a nonzero unused field does not decode (R42). -/
def Obligations.SpecWordsDecode : Prop :=
  decodeTableWord 32 (formatA 0x00 0x00 0 0 0 0) = some .nop
    ∧ decodeTableWord 32 (formatA 0x01 0x01 1 3 2 9) = some (.sub true 3 2 9)
    ∧ decodeTableWord 32 (0x02 * 4 + 9 * 2 ^ 8 + 2 * 2 ^ 13 + (2 ^ 14 - 5) * 2 ^ 18) = some (.addi (-5) 2 9)
    ∧ decodeTableWord 96 (1 + 0x09 * 4 + 7 * 2 ^ 8 + 0xCAFE0001 * 2 ^ 32 + 0x80000000 * 2 ^ 64) = some (.ldl 0x80000000CAFE0001 7)
    ∧ decodeTableWord 32 (0x0B * 4 + 8 * 2 ^ 8 + 1 * 2 ^ 13 + 4 * 2 ^ 18 + (2 ^ 11 - 1) * 2 ^ 21) = some (.ld (-1) .s32 1 8)
    ∧ decodeTableWord 32 (0x0C * 4 + 8 * 2 ^ 8 + 1 * 2 ^ 13 + 3 * 2 ^ 18 + 1 * 2 ^ 20 + 2 * 2 ^ 21) = some (.st 2 true .d 1 8)
    ∧ decodeTableWord 32 (0x10 * 4 + 5 * 2 ^ 8 + 2 * 2 ^ 13 + 1 * 2 ^ 16 + (2 ^ 15 - 3) * 2 ^ 17) = some (.bz (-3) true .lt0 5)
    ∧ decodeTableWord 32 (formatA 0x18 0x05 0 0 3 2) = some (.hcopy 3 2)
    ∧ decodeTableWord 32 (formatA 0x1C 0x00 2 3 2 9) = some (.copy 2 3 2 9)
    ∧ decodeTableWord 96 (2 + 0x21 * 4 + 0x00 * 2 ^ 8 + 1 * 2 ^ 15 + 1 * 2 ^ 19 + 2 * 2 ^ 23 + 3 * 2 ^ 27 + 1 * 2 ^ 44)
      = some (.vadd ⟨false, 3, 2, 1, .f32, 0, false, .rne, false, false, false, ⟨false, false, 0⟩, 0, 0, none⟩)
    ∧ decodeTableWord 32 (0x1B * 4) = none ∧ decodeTableWord 32 (formatA 0x01 0x06 0 0 0 0) = none
    ∧ decodeTableWord 32 (formatA 0x00 0x00 0 0 0 1) = none

/-- A row of the opcode table that is an instruction of the stream: it has words. The rest are steps of the part's units. -/
def Sys2Proof.Claims.hasWords (i : Instr) : Prop := encode i ≠ []

/-- R7, R42: decoding the encoding of a well-formed instruction gives that instruction with every operand as it was, whatever stands
behind it; and words decode to an instruction only if they are its encoding and it is well formed, so that no word has two meanings. -/
def Obligations.DecodeAndEncodeAgree : Prop :=
  (∀ (i : Instr) (rest : List Nat), hasWords i → i.wellFormed = true → decode (encode i ++ rest) = .ok i)
    ∧ ∀ (ws : List Nat) (i : Instr), decode ws = .ok i → i.wellFormed = true ∧ ws = encode i ++ ws.drop (encode i).length

/-- The issuing context's turn comes next: the schedule names it, or names nothing and no pending move goes first. The state is the one
in which it issues. -/
def Sys2Proof.Claims.issuesNext (s : State) (n : Nat) (s0 : State) : Prop :=
  s.fw < 0x80 ∧ canIssue s s.cur.1 s.cur.2 = true ∧ s.k.haltReq = false
    ∧ ((s.turns = ⟨.issue, n⟩ :: s0.turns ∧ s0 = { s with turns := s0.turns })
      ∨ (s.turns = [] ∧ s.selected = true ∧ s.events.length ≤ s.spun ∧ n = 1 ∧ s0 = s))

/-- A step runs the decoded instruction (R7, R42, R70): where the words fetched at the issuing context's PC decode to an instruction and no
stop entry holds it back, the step is `exec` of that instruction, and then the cycles of the turn pass and the context gives up its
turn.
The turn and its cycles are the model's schedule (log 1). -/
def Obligations.StepRunsTheDecodedInstruction : Prop :=
  ∀ (s s0 t : State) (n : Nat) (ws : List Nat) (i : Instr), issuesNext s n s0 →
    fetchInstr s0 s.cur.1 (bankCore s s.cur.1 s.cur.2) s.k.pc = .ok (ws, t) → decode ws = .ok i → stopBefore s s.k (i == .fend) = false →
    ∃ u, exec i t = .next u ∧ step s = .next (afterTurn s.cur.1 s.cur.2 (tick u n))

/-- What is fetched (R7, R8, R70): with an empty fetch buffer and no word in error, the words at the PC's bytes, word 0 and as many more as
its LEN names, leaving the last word's line in the fetch buffer; an instruction that runs past the end of bank C is LADDR, and a
word that stands in the buffered line is taken from there. -/
def Sys2Proof.Claims.FetchReadsTheWordsAtThePc : Prop :=
  ∀ (s : State) (c b pc : Nat), pc % 4 = 0 →
    let w := fun i => leNat (readBytes (s.core b).mem (pc + 4 * i) 4)
    let n := lenWords (w 0 % 4)
    ((s.core c).fetch = none → (s.core b).bad = [] → (s.core b).soft = [] → pc + 4 * n ≤ 0x30000 → ∃ t, fetchInstr s c b pc = .ok ((List.range n).map w, t)
      ∧ { t with cores := s.cores } = s ∧ (∀ e, e ≠ c → t.core e = s.core e) ∧ { t.core c with fetch := none } = s.core c
      ∧ (t.core c).fetch.map (·.1) = some (b * 0x40000 + (pc + 4 * n - 4) / 64 * 64))
    ∧ ((s.core c).fetch = none → (s.core b).bad = [] → (s.core b).soft = [] → pc < 0x30000 → 0x30000 < pc + 4 * n →
      fetchInstr s c b pc = .error { cause := .laddr, eaddr := BitVec.ofNat 64 (0xC000000000030000) })
    ∧ (∀ (line : Nat) (ws : List Nat), (s.core c).fetch = some (b * 0x40000 + line, ws.map some) → ws.length = 16 → line = pc / 64 * 64 → pc < 0x30000 →
      fetchWord s c b pc = .ok (ws.getD (pc % 64 / 4) 0, s))

/-- R42, R43: words that decode to no instruction park the firing with ILL and word 0 in EINFO; nothing retires and no register, guard
or byte changes. -/
def Sys2Proof.Claims.UndecodableWordsParkWithIll : Prop :=
  ∀ (s s0 t : State) (n : Nat) (ws : List Nat) (e : DecodeError), issuesNext s n s0 →
    fetchInstr s0 s.cur.1 (bankCore s s.cur.1 s.cur.2) s.k.pc = .ok (ws, t) → decode ws = .error e → stopBefore s s.k false = false →
    ∃ u, step s = .next u ∧ (u.ctx s.cur.1 s.cur.2).status = .parked ∧ (u.ctx s.cur.1 s.cur.2).pc = s.k.pc
      ∧ (u.ctx s.cur.1 s.cur.2).ecause = 1 ∧ (u.ctx s.cur.1 s.cur.2).einfo = BitVec.ofNat 64 (ws.headD 0)
      ∧ (u.ctx s.cur.1 s.cur.2).regs = s.k.regs ∧ (u.ctx s.cur.1 s.cur.2).guards = s.k.guards
      ∧ (∀ c x, (c, x) ≠ s.cur → u.ctx c x = s.ctx c x) ∧ BytesKept s u

/-- The row of the opcode table that a pending move is. -/
def Sys2Proof.Claims.rowOf (e : Event) (i : Instr) : Prop :=
  match e with
  | .fendCommit a b => i = .fendCommit a b
  | .stszWrite a => i = .stszWrite a
  | .migthWrite a => i = .migthWrite a
  | .rchkClr => i = .rchkClr
  | .rchkEnWrite a => i = .rchkEnWrite a
  | .qtableWrite a b => i = .qtableWrite a b
  | .fpCsrAccess a => i = .fpCsrAccess a
  | .pcapWrite a => i = .pcapWrite a
  | .registerWrite a b => i = .registerWrite a b
  | .contextSelect a => i = .contextSelect a
  | .loadReply a b => i = .loadReply a b
  | .storePerform a b => i = .storePerform a b
  | .park a b => i = .park a b
  | .stashFill a b => i = .stashFill a b
  | .dieCacheEvict a b => i = .dieCacheEvict a b
  | .directoryOverflowEvent a b c => i = .directoryOverflowEvent a b c
  | .directoryOvfWrite a b => i = .directoryOvfWrite a b
  | .pageWalk a b c => i = .pageWalk a b c
  | .migrationStart a b c => i = .migrationStart a b c
  | .migrationComplete a => i = .migrationComplete a
  | .crossPackageMigration a b c => i = .crossPackageMigration a b c
  | .ownershipRequest a b c => i = .ownershipRequest a b c
  | .invalidationAck a b => i = .invalidationAck a b
  | .invalidationResend a b => i = .invalidationResend a b
  | .dieUnresponsive a => i = .dieUnresponsive a
  | .hostCxlRead a b => i = .hostCxlRead a b
  | .hostCxlWrite a b => i = .hostCxlWrite a b
  | .memoryErrorDetected a => i = .memoryErrorDetected a
  | .dieResetGraceful a => i = .dieResetGraceful a
  | .dieResetForced a => i = .dieResetForced a
  | .dieResetEnd a => i = .dieResetEnd a
  | .poolPush a b => i = .poolPush a b
  | .copyQueueRelease a => i = .copyQueueRelease a
  | .copyBeat a b => i = .copyBeat a b
  | .copyCommandEnd a b => i = .copyCommandEnd a b
  | .vectorBeat a => i = .vectorBeat a
  | .vectorCommandEnd a => i = .vectorCommandEnd a
  | .matrixSelect a => i = .matrixSelect a
  | .matrixKstep a => i = .matrixKstep a
  | .matrixOvertake a b => i = .matrixOvertake a b
  | .matrixCommandEnd a => i = .matrixCommandEnd a
  | .ringNotification a b c => i = .ringNotification a b c
  | .levelNotification a b c d e f => i = .levelNotification a b c d e f
  | .gateEvaluate a b => i = .gateEvaluate a b
  | .firingDispatch a b => i = .firingDispatch a b
  | .nadirRefresh a => i = .nadirRefresh a
  | .lvstall a => i = .lvstall a
  | .domainComplete a => i = .domainComplete a
  | .inboxMessage a => i = .inboxMessage a
  | .supervisorMessage a => i = .supervisorMessage a
  | .resume a b => i = .resume a b
  | .resumeValue a b c => i = .resumeValue a b c
  | .restart a b => i = .restart a b
  | .abort a b => i = .abort a b
  | .p0Request a => i = .p0Request a
  | .contextSave a b => i = .contextSave a b
  | .contextResume a b => i = .contextResume a b
  | .taskSearch a b => i = .taskSearch a b
  | .taskSearchRestEnd a => i = .taskSearchRestEnd a
  | .joinwWake a b => i = .joinwWake a b
  | .barrierDepart a => i = .barrierDepart a
  | .exchangeStart a => i = .exchangeStart a
  | .exchangeRun a => i = .exchangeRun a
  | .exchangeRunDeliver a => i = .exchangeRunDeliver a
  | .exchangeAck a => i = .exchangeAck a
  | .closingNotice a => i = .closingNotice a
  | .abandonment a => i = .abandonment a
  | .exchangeEnd a => i = .exchangeEnd a
  | .rd a => i = .rd a
  | .wr a => i = .wr a
  | .amo a => i = .amo a
  | .gwr a => i = .gwr a
  | .xrun a => i = .xrun a
  | .msg a => i = .msg a
  | .gangReserve a => i = .gangReserve a
  | .gangCommit a => i = .gangCommit a
  | .gangAbort a => i = .gangAbort a
  | .mig a => i = .mig a
  | .shoot a => i = .shoot a
  | .nadir a => i = .nadir a
  | .cfg a => i = .cfg a
  | .val a => i = .val a
  | .dep a => i = .dep a
  | .cnt a => i = .cnt a
  | .done a => i = .done a
  | .mack a => i = .mack a
  | .nack a => i = .nack a
  | .unknown a => i = .unknown a
  | .mackPortTimeout a b => i = .mackPortTimeout a b
  | .amoRetransmit a => i = .amoRetransmit a
  | .amoTimeout a => i = .amoTimeout a
  | .linkGroupFail a => i = .linkGroupFail a
  | .linkGroupRestore a => i = .linkGroupRestore a
  | .gangReserveTimeout a => i = .gangReserveTimeout a
  | .gangCommitTimeout a => i = .gangCommitTimeout a
  | .reservationExpire a => i = .reservationExpire a
  | .gangAbortResend a => i = .gangAbortResend a
  | .launchWindowCopy a b => i = .launchWindowCopy a b
  | .launchRetry => i = .launchRetry
  | .energyWindow => i = .energyWindow
  | .energyBudgetSpent a => i = .energyBudgetSpent a
  | .windowEnable a => i = .windowEnable a
  | .windowDestroy a => i = .windowDestroy a
  | .domainAbort a => i = .domainAbort a
  | .hostSupervisorCommand a => i = .hostSupervisorCommand a
  | .dctlHaltreq a b => i = .dctlHaltreq a b
  | .dctlResume a b => i = .dctlResume a b
  | .dctlStep a b => i = .dctlStep a b
  | .dctlCancel a b => i = .dctlCancel a b
  | .contextStateWrite a b c d => i = .contextStateWrite a b c d
  | .stopEntryWrite a b c => i = .stopEntryWrite a b c
  | .stopRequest a => i = .stopRequest a
  | .dumpStart a => i = .dumpStart a
  | .dumpWrite => i = .dumpWrite
  | .traceEnable a => i = .traceEnable a
  | .replayArm a => i = .replayArm a
  | .replayPassEnd => i = .replayPassEnd
  | .errorInjectWrite a b c d => i = .errorInjectWrite a b c d
  | .notificationDrain a => i = .notificationDrain a
  | .ethQueueEnable a b c => i = .ethQueueEnable a b c
  | .ethQueueDisable a b c => i = .ethQueueDisable a b c
  | .ethProducerUpdate a b c => i = .ethProducerUpdate a b c
  | .ethTransmit a b => i = .ethTransmit a b
  | .ethReceive a b c => i = .ethReceive a b c
  | .ethPauseReceive a b => i = .ethPauseReceive a b
  | .ethLinkChange a b => i = .ethLinkChange a b
  | .powerGood a => i = .powerGood a
  | .packageReset a => i = .packageReset a
  | .firmwareLoadWrite a b => i = .firmwareLoadWrite a b
  | .amoPerform a b => i = .amoPerform a b
  | .backgroundRangeOperation a b => i = .backgroundRangeOperation a b
  | .cxlCacheSnoop a => i = .cxlCacheSnoop a
  | .spdmRequest a => i = .spdmRequest a
  | .ethPauseExpire a b => i = .ethPauseExpire a b

/-- A pending move's turn is `exec` of its row of the opcode table (log 1): the move leaves the list, the row's meaning runs, and every
context that waited may try again.
That moves stand in a list and a turn picks one is the model's schedule (log 1). -/
def Obligations.PendingMoveRunsItsRow : Prop :=
  (∀ (e : Event) (i : Instr) (s : State), rowOf e i → runEvent e s = exec i s)
    ∧ ∀ (s : State) (n c : Nat) (rest : List Turn) (e : Event) (i : Instr), s.fw < 0x80 → s.turns = ⟨.event n, c⟩ :: rest →
      s.events[n]? = some e → pickedAt s n = n → rowOf e i →
      ∃ t, exec i { s with turns := rest, events := s.events.eraseIdx n } = .next t ∧ step s = .next
        { t with stalled := [], spun := if e ∈ t.events then s.spun + 1 else 0 }

/-- Every row answers a next state, whatever the state: an instruction that faults parks its firing, which is a state (R357), and a step of a
unit that is not due stands among the pending moves again. -/
def Obligations.EveryRowAnswersANextState : Prop := ∀ (i : Instr) (s : State), ∃ t, exec i s = .next t

/-- Every memory keeps its canonical form: addresses strictly rising and no entry that equals what an unlisted byte reads as. -/
def Sys2Proof.Claims.memoriesCanonical (s : State) : Prop :=
  Memory.wf s.mem = true ∧ (∀ c, Memory.wf (s.core c).mem = true) ∧ ∀ e ∈ s.replay.images, Memory.wf e.2 = true

/-- The canonical form of memory is an invariant of the whole machine, so that equal memories are equal data.
The form is the model's own (log 6, log 63). -/
def Obligations.MemoryStaysCanonical : Prop :=
  ∀ (s t : State), memoriesCanonical s → step s = .next t → memoriesCanonical t

/-- Memory is canonical at reset: nothing is listed. -/
def Sys2Proof.Claims.ResetMemoryIsCanonical : Prop :=
  memoriesCanonical State.reset ∧ State.reset.mem = [] ∧ ∀ c, (State.reset.core c).mem = []

/-- What the spec says of reset: MIGTH 0x0400 (R60), AGESH 10 (R342), PCAP the design power (R344), no race check, no domain, no
device time, the power-on sequence next (R392); and in a context that nothing has placed, FPC has RM 1 with no trap enabled (R136), NBV is
3 (R145) and every other special register 0 (R353). -/
def Sys2Proof.Claims.ResetLeavesTheSpecsValues : Prop :=
  State.reset.migth = 0x0400 ∧ State.reset.agesh = 10 ∧ State.reset.pcap = State.reset.designPower ∧ State.reset.rchkEn = false
    ∧ State.reset.doms = [] ∧ State.reset.time = 0 ∧ State.reset.fw = 0 ∧ State.reset.events = [.powerGood none]
    ∧ (∀ c x, (State.reset.ctx c x).fpc = 1 ∧ (State.reset.ctx c x).fpf = 0 ∧ (State.reset.ctx c x).nbv = 3 ∧ (State.reset.ctx c x).status = .empty
      ∧ (State.reset.ctx c x).tvec = 0 ∧ (State.reset.ctx c x).estat = 0 ∧ (State.reset.ctx c x).supv = 0)

/-! ## Integer functions (R131, R132) -/

/-- The bit that stands `i` places below the top of `n` bits. -/
def Sys2Proof.Claims.fromTop {n : Nat} (a : BitVec n) (i : Nat) : Bool := a.getLsbD (n - 1 - i)

/-- What R131 says of the result `r` of a function of two operands on `n` bits: the sums, products and quotients are those of the
integers that the operands stand for, brought back to `n` bits. -/
def Sys2Proof.Claims.aluSays (i : Instr) (n : Nat) (a b r : BitVec n) : Prop :=
  match i with
  | .add .. => r = BitVec.ofInt n (a.toInt + b.toInt)
  | .sub .. => r = BitVec.ofInt n (a.toInt - b.toInt)
  | .and .. => ∀ j, r.getLsbD j = (a.getLsbD j && b.getLsbD j)
  | .or .. => ∀ j, r.getLsbD j = (a.getLsbD j || b.getLsbD j)
  | .xor .. => ∀ j, r.getLsbD j = (a.getLsbD j != b.getLsbD j)
  | .andn .. => ∀ j, j < n → r.getLsbD j = (a.getLsbD j && !b.getLsbD j)
  | .shl .. => r.toNat = a.toNat * 2 ^ (b.toNat % n) % 2 ^ n
  | .shr .. => r.toNat = a.toNat / 2 ^ (b.toNat % n)
  | .sar .. => r.toInt = a.toInt / 2 ^ (b.toNat % n)
  | .rol .. => ∀ j, j < n → r.getLsbD ((j + b.toNat % n) % n) = a.getLsbD j
  | .slt .. => r = if a.toInt < b.toInt then 1 else 0
  | .sltn .. => r = if a.toNat < b.toNat then 1 else 0
  | .min .. => r.toInt = Min.min a.toInt b.toInt
  | .max .. => r.toInt = Max.max a.toInt b.toInt
  | .minn .. => r.toNat = Min.min a.toNat b.toNat
  | .maxn .. => r.toNat = Max.max a.toNat b.toNat
  | .mul .. => r = BitVec.ofInt n (a.toInt * b.toInt)
  | .mulh .. => r.toInt = a.toInt * b.toInt / 2 ^ n
  | .mulhn .. => r.toNat = a.toNat * b.toNat / 2 ^ n
  | .div .. => r = if b = 0 then BitVec.allOnes n else BitVec.ofInt n (a.toInt.tdiv b.toInt)
  | .divn .. => if b = 0 then r = BitVec.allOnes n else r.toNat = a.toNat / b.toNat
  | .rem .. => if b = 0 then r = a else r.toInt = a.toInt.tmod b.toInt
  | .remn .. => if b = 0 then r = a else r.toNat = a.toNat % b.toNat
  | .clz .. => r.toNat ≤ n ∧ (∀ j, j < r.toNat → fromTop a j = false) ∧ (r.toNat < n → fromTop a r.toNat = true)
  | .ctz .. => r.toNat ≤ n ∧ (∀ j, j < r.toNat → a.getLsbD j = false) ∧ (r.toNat < n → a.getLsbD r.toNat = true)
  | .popc .. => r.toNat = ((List.range n).filter fun j => a.getLsbD j).length
  | .bswap .. => ∀ j, j < n → r.getLsbD j = a.getLsbD (8 * (n / 8 - 1 - j / 8) + j % 8)
  | _ => False

/-- The operands of an ALU function: `.w`, A, B (g0 for a function of A alone) and D. -/
def Sys2Proof.Claims.aluForm (i : Instr) : Option (Bool × Reg × Reg × Reg) :=
  match i with
  | .add w b a d | .sub w b a d | .and w b a d | .or w b a d | .xor w b a d | .andn w b a d | .shl w b a d | .shr w b a d
  | .sar w b a d | .rol w b a d | .slt w b a d | .sltn w b a d | .min w b a d | .max w b a d | .minn w b a d | .maxn w b a d
  | .mul w b a d | .mulh w b a d | .mulhn w b a d | .div w b a d | .divn w b a d | .rem w b a d | .remn w b a d => some (w, a, b, d)
  | .clz w a d | .ctz w a d | .popc w a d | .bswap w a d => some (w, a, 0, d)
  | _ => none

/-- The result on 64 bits, or under `.w` on the low 32 bits of the operands with the result sign-extended (R131). -/
def Sys2Proof.Claims.aluResult (i : Instr) (w : Bool) (a b r : Word) : Prop :=
  if w then ∃ q : BitVec 32, r = q.signExtend 64 ∧ aluSays i 32 (a.setWidth 32) (b.setWidth 32) q else aluSays i 64 a b r

/-- R131: every ALU function of A and B (ADD to REMN, CLZ, CTZ, POPC, BSWAP), in both widths, runs whenever no reply is outstanding
for its registers, writes D with the value that R131 gives, changes no other register, guard, special register or byte, and
never faults. -/
def Sys2Proof.Claims.AluFunctionsWriteTheirResult : Prop :=
  ∀ (i : Instr) (w : Bool) (a b d : Reg) (s : State), aluForm i = some (w, a, b, d) → Settled s [d, b, a] →
    ∃ v, aluResult i w (rd s.k a) (rd s.k b) v ∧ Runs i s (Writes 4 d v s)

/-- The operand A, the destination, the bytes of the instruction and the result of an instruction of one register operand and a constant
(R131 for SEXT and ZEXT, R132, R126 for WFLD). Signed comparisons and shifts are those of the integers that the words stand for. -/
def Sys2Proof.Claims.unaryForm (widl : Word) (i : Instr) : Option (Reg × Reg × Nat × (Word → Word)) :=
  match i with
  | .addi i a d => some (a, d, 4, fun v => BitVec.ofInt 64 (v.toInt + i.toInt))
  | .addiLit i a d => some (a, d, 12, fun v => BitVec.ofInt 64 (v.toInt + i.toInt))
  | .andi i a d => some (a, d, 4, fun v => v &&& i.signExtend 64)
  | .andiLit i a d => some (a, d, 12, fun v => v &&& i)
  | .ori i a d => some (a, d, 4, fun v => v ||| i.signExtend 64)
  | .oriLit i a d => some (a, d, 12, fun v => v ||| i)
  | .xori i a d => some (a, d, 4, fun v => v ^^^ i.signExtend 64)
  | .xoriLit i a d => some (a, d, 12, fun v => v ^^^ i)
  | .slti i a d => some (a, d, 4, fun v => if v.toInt < i.toInt then 1 else 0)
  | .sltiLit i a d => some (a, d, 12, fun v => if v.toInt < i.toInt then 1 else 0)
  | .sltin i a d => some (a, d, 4, fun v => if v.toNat < (i.signExtend 64).toNat then 1 else 0)
  | .sltinLit i a d => some (a, d, 12, fun v => if v.toNat < i.toNat then 1 else 0)
  | .shli i a d => some (a, d, 4, fun v => BitVec.ofNat 64 (v.toNat * 2 ^ i.toNat))
  | .shri i a d => some (a, d, 4, fun v => BitVec.ofNat 64 (v.toNat / 2 ^ i.toNat))
  | .sari i a d => some (a, d, 4, fun v => BitVec.ofInt 64 (v.toInt / 2 ^ i.toNat))
  | .roli i a d => some (a, d, 4, fun v => v.rotateLeft i.toNat)
  | .sext .b a d => some (a, d, 4, fun v => (v.setWidth 8).signExtend 64)
  | .sext .h a d => some (a, d, 4, fun v => (v.setWidth 16).signExtend 64)
  | .sext .w a d => some (a, d, 4, fun v => (v.setWidth 32).signExtend 64)
  | .zext .b a d => some (a, d, 4, fun v => v &&& 0xFF)
  | .zext .h a d => some (a, d, 4, fun v => v &&& 0xFFFF)
  | .zext .w a d => some (a, d, 4, fun v => v &&& 0xFFFFFFFF)
  | .ldi i d => some (0, d, 4, fun _ => i.signExtend 64)
  | .ldl i d => some (0, d, 12, fun _ => i)
  | .wfld k a d => some (a, d, 4, fun v => BitVec.ofNat 64
      (v.toNat / 2 ^ ((List.range k.toNat).map fun j => widl.toNat / 2 ^ (6 * j) % 64).sum % 2 ^ (widl.toNat / 2 ^ (6 * k.toNat) % 64)))
  | _ => none

/-- R132, with SEXT and ZEXT of R131 and WFLD of R126: each writes D with its value, on 64 bits and without a flag, and changes
nothing else; a literal form is 12 bytes long. -/
def Sys2Proof.Claims.ImmediateFunctionsWriteTheirResult : Prop :=
  ∀ (i : Instr) (a d : Reg) (len : Nat) (f : Word → Word) (s : State),
    unaryForm s.k.widl i = some (a, d, len, f) → Settled s [d, a] → Runs i s (Writes len d (f (rd s.k a)) s)

/-- MOVG (R131, R128): with its guard resolved, D takes A where the guard, inverted by N, is true, and stays as it is where it is
false; with the guard unresolved it waits. -/
def Sys2Proof.Claims.MovgMovesUnderItsGuard : Prop :=
  ∀ (n : Bool) (q : QIx) (a d : Reg) (s : State), Settled s [d, a] →
    (∀ g, guardOf s.k q = some g → Runs (.movg n q a d) s fun t =>
      if g = n then OnlyRetires 4 s t else Writes 4 d (rd s.k a) s t)
    ∧ (guardOf s.k q = none → Runs (.movg n q a d) s (Waits s))

/-- The coordinates of the core that an address of form 01, 10 or 11 names, for a core at (cx, cy) (R65, R126): peer, x and y, or none where
the address has form 00 or leaves the mesh. Form 11 and form 10 name cores of the own package. -/
def Sys2Proof.Claims.named (cx cy : Nat) (ea : Word) : Option (Nat × Nat × Nat) :=
  match field ea 63 62 with
  | 0 => none
  | 1 => some (field ea 61 50, field ea 49 43, field ea 42 37)
  | 2 =>
    let dx := (ea.toNat / 2 ^ 43 % 128 : Int) - if field ea 49 49 = 1 then 128 else 0
    let dy := (ea.toNat / 2 ^ 37 % 64 : Int) - if field ea 42 42 = 1 then 64 else 0
    let x := cx + dx
    let y := cy + dy
    if field ea 61 50 = 0 ∧ field ea 36 18 = 0 ∧ 0 ≤ x ∧ x ≤ 127 ∧ 0 ≤ y ∧ y ≤ 63 then some (0, x.toNat, y.toNat) else none
  | _ => if field ea 61 18 = 0 then some (0, cx, cy) else none

/-- CADR, CREL and CXY (R126): the address or packed coordinate that they build, and LADDR for operands that they refuse. -/
def Sys2Proof.Claims.AddressFunctionsBuildCoordinates : Prop :=
  ∀ (a b d : Reg) (s : State), Settled s [d, b, a] →
    (let va := rd s.k a
     let vb := rd s.k b
     Runs (.cadr b a d) s (if va.toNat < 2 ^ 25 ∧ vb.toNat < 2 ^ 18
        then Writes 4 d (BitVec.ofNat 64 (2 ^ 62 + va.toNat / 2 ^ 13 * 2 ^ 50 + va.toNat % 2 ^ 7 * 2 ^ 43
          + va.toNat / 2 ^ 7 % 2 ^ 6 * 2 ^ 37 + vb.toNat)) s
        else Parks { cause := .laddr } s)
     ∧ Runs (.crel b a d) s (if va.toNat < 2 ^ 13 ∧ vb.toNat < 2 ^ 18
        then Writes 4 d (BitVec.ofNat 64 (2 ^ 63 + va.toNat % 2 ^ 7 * 2 ^ 43 + va.toNat / 2 ^ 7 * 2 ^ 37 + vb.toNat)) s
        else Parks { cause := .laddr } s)
     ∧ Runs (.cxy a d) s (match named (coreX s.cur.1) (coreY s.cur.1) va with
        | some (p, x, y) => Writes 4 d (BitVec.ofNat 64 (x + 128 * y + 8192 * p)) s
        | none => Parks { cause := .laddr, eaddr := va } s))

/-- CRES (R126): for a form-10 or form-11 address of a core that exists, its form-01 address with the same offset; a form-01 address of
an own core that exists, or of a peer, comes back unchanged; LADDR otherwise. -/
def Sys2Proof.Claims.CresResolvesToFormOne : Prop :=
  ∀ (a d : Reg) (s : State), Settled s [d, a] →
    let ea := rd s.k a
    Runs (.cres a d) s (
      if field ea 63 62 = 1 then
        if (field ea 61 50 ≠ 0 ∧ field ea 61 50 ≠ s.pkid) ∨ s.coreExists (field ea 49 43) (field ea 42 37)
        then Writes 4 d ea s else Parks { cause := .laddr, eaddr := ea } s
      else match named (coreX s.cur.1) (coreY s.cur.1) ea with
        | some (_, x, y) => if s.coreExists x y
          then Writes 4 d (BitVec.ofNat 64 (2 ^ 62 + x * 2 ^ 43 + y * 2 ^ 37 + ea.toNat % 2 ^ 18)) s
          else Parks { cause := .laddr, eaddr := ea } s
        | none => Parks { cause := .laddr, eaddr := ea } s)

/-! ## Guards (R127, R130) -/

/-- The bool that a comparison writes (R130). -/
def Sys2Proof.Claims.compareForm (i : Instr) : Option (List Reg × QIx × Nat × (Ctx → Bool)) :=
  match i with
  | .cmpgEq b a g => some ([b, a], g, 4, fun k => decide (rd k a = rd k b))
  | .cmpgNe b a g => some ([b, a], g, 4, fun k => decide (rd k a ≠ rd k b))
  | .cmpgLt b a g => some ([b, a], g, 4, fun k => decide ((rd k a).toInt < (rd k b).toInt))
  | .cmpgGe b a g => some ([b, a], g, 4, fun k => decide ((rd k a).toInt ≥ (rd k b).toInt))
  | .cmpgLtn b a g => some ([b, a], g, 4, fun k => decide ((rd k a).toNat < (rd k b).toNat))
  | .cmpgGen b a g => some ([b, a], g, 4, fun k => decide ((rd k a).toNat ≥ (rd k b).toNat))
  | .cmpgi i a .eq g => some ([a], g, 4, fun k => decide ((rd k a).toInt = i.toInt))
  | .cmpgi i a .ne g => some ([a], g, 4, fun k => decide ((rd k a).toInt ≠ i.toInt))
  | .cmpgi i a .lt g => some ([a], g, 4, fun k => decide ((rd k a).toInt < i.toInt))
  | .cmpgi i a .ge g => some ([a], g, 4, fun k => decide ((rd k a).toInt ≥ i.toInt))
  | .cmpgiLit i a .eq g => some ([a], g, 12, fun k => decide (rd k a = i))
  | .cmpgiLit i a .ne g => some ([a], g, 12, fun k => decide (rd k a ≠ i))
  | .cmpgiLit i a .lt g => some ([a], g, 12, fun k => decide ((rd k a).toInt < i.toInt))
  | .cmpgiLit i a .ge g => some ([a], g, 12, fun k => decide ((rd k a).toInt ≥ i.toInt))
  | .gset v g => some ([], g, 4, fun _ => v)
  | _ => none

/-- What an instruction whose one result is a guard does: the guard, q0 excepted, becomes `v`; the other guards, every register, special
register and byte stay, and the PC goes on. -/
def Sys2Proof.Claims.WritesGuard (len : Nat) (g : QIx) (v : Option Bool) (s t : State) : Prop :=
  guardOf t.k g = (if g = 0 then some true else v) ∧ GuardsKept s t [g] ∧ RegsKept s t [] ∧ specials t.k = specials s.k
    ∧ t.k.pc = nextPc s.k len ∧ OthersKept s t ∧ BytesKept s t

/-- R130, the comparisons and GSET: unless a COMPACT of the context will resolve the guard (R100), it takes the comparison's value. -/
def Sys2Proof.Claims.ComparisonsWriteTheirGuard : Prop :=
  ∀ (i : Instr) (rs : List Reg) (g : QIx) (len : Nat) (f : Ctx → Bool) (s : State), compareForm i = some (rs, g, len, f) → Settled s rs →
    (resolves (opsOf s s.cur.1 s.cur.2) g = false → Runs i s (WritesGuard len g (some (f s.k)) s))
    ∧ (resolves (opsOf s s.cur.1 s.cur.2) g = true → Runs i s (Waits s))

/-- What R130 gives a GRD function of guards; none while it depends on an unresolved one. -/
def Sys2Proof.Claims.guardForm (i : Instr) : Option (QIx × (Ctx → Option (Option Bool))) :=
  match i with
  | .gclr g => some (g, fun _ => some none)
  | .gmov h g => some (g, fun k => (guardOf k h).map some)
  | .gnot h g => some (g, fun k => (guardOf k h).map fun v => some (!v))
  | .gand j h g => some (g, fun k =>
      if guardOf k j = some false ∨ guardOf k h = some false then some (some false)
      else if guardOf k j = some true ∧ guardOf k h = some true then some (some true) else none)
  | .gor j h g => some (g, fun k =>
      if guardOf k j = some true ∨ guardOf k h = some true then some (some true)
      else if guardOf k j = some false ∧ guardOf k h = some false then some (some false) else none)
  | _ => none

/-- R130, GCLR, GMOV, GNOT, GAND and GOR: the destination takes the function's value as soon as that is decided, and the instruction
waits while it is not. -/
def Sys2Proof.Claims.GuardFunctionsResolve : Prop :=
  ∀ (i : Instr) (g : QIx) (f : Ctx → Option (Option Bool)) (s : State), guardForm i = some (g, f) →
    resolves (opsOf s s.cur.1 s.cur.2) g = false →
    (∀ v, f s.k = some v → Runs i s (WritesGuard 4 g v s)) ∧ (f s.k = none → Runs i s (Waits s))

/-- R84, R93, R162: an ALU or immediate function, a comparison or a conditional branch that names a register whose reply is
outstanding waits at issue and changes nothing. -/
def Sys2Proof.Claims.NamedRegisterWithReplyDueWaits : Prop :=
  ∀ (i : Instr) (rs : List Reg) (s : State),
    ((∃ w a b d, aluForm i = some (w, a, b, d) ∧ rs = [d, b, a]) ∨ (∃ a d len f, unaryForm s.k.widl i = some (a, d, len, f) ∧ rs = [d, a])
      ∨ (∃ g len f, compareForm i = some (rs, g, len, f)) ∨ (∃ o h c a, i = .bz o h c a ∧ rs = [a]) ∨ (∃ a, i = .jr a ∧ rs = [a])) →
    (∃ r ∈ rs, busyReg (opsOf s s.cur.1 s.cur.2) r = true) → Runs i s (Waits s)

/-! ## Floating point (R133-R138, R149-R153) -/

/-- What an FPU function that raises `flags` does (R137, R138): unless one of the flags is an enabled event, or RESUME allowed this execution,
it retires, ORs the flags into FPF, and has the effect `keeps`; otherwise it parks at the instruction with FPX and every flag raised in
EINFO, D as it was, and the flags set in FPF. -/
def Sys2Proof.Claims.FpEnds (i : Instr) (flags : Nat) (s : State) (keeps : State → Prop) : Prop :=
  Runs i s fun t => t.k.fpf = s.k.fpf ||| BitVec.ofNat 64 flags
    ∧ (if flags &&& (s.k.fpc.toNat / 8 % 64) = 0 ∨ s.k.oneDefault = true
       then keeps t ∧ specials { t.k with fpf := s.k.fpf } = specials s.k ∧ t.k.pc = nextPc s.k 4 ∧ OthersKept s t ∧ BytesKept s t
       else Parks { cause := .fpx, einfo := BitVec.ofNat 64 flags } s t)

/-- The effect on one register (R149: an f32 result stands in the low half, the high half zero), every guard as it was. -/
def Sys2Proof.Claims.FpWrites (d : Reg) (p : Nat) (s t : State) : Prop :=
  rd t.k d = (if d = 0 then 0 else BitVec.ofNat 64 p) ∧ RegsKept s t [d] ∧ GuardsKept s t []

/-- The arithmetic functions of R150: format, RM, and the exact result of A, B and D in a mode, with the flags that special operands raise. -/
def Sys2Proof.Claims.fpuForm (i : Instr) : Option (FFmt × Rm × (Rm → Machine.Num → Machine.Num → Machine.Num → Machine.Num × Nat) × Reg × Reg × Reg) :=
  match i with
  | .fadd x r b a d => some (x, r, fun m u v _ => numAdd m u v, b, a, d)
  | .fsub x r b a d => some (x, r, fun m u v _ => numAdd m u (numNeg v), b, a, d)
  | .fmul x r b a d => some (x, r, fun _ u v _ => numMul u v, b, a, d)
  | .fdiv x r b a d => some (x, r, fun _ u v _ => numDiv u v, b, a, d)
  | .fsqrt x r a d => some (x, r, fun _ u _ _ => numSqrt u, a, a, d)
  | .fmac x r b a d => some (x, r, fun m u v w => numFma m u v w, b, a, d)
  | _ => none

/-- R150: FADD, FSUB, FMUL, FDIV, FSQRT and FMAC deliver one rounding of the exact result, in the mode of RM or, for 000, of FPC.RND, with the
flags of the rounding and of the special operands. -/
def Sys2Proof.Claims.FpuArithmeticRoundsOnce : Prop :=
  ∀ (i : Instr) (x : FFmt) (r : Rm) (f : Rm → Machine.Num → Machine.Num → Machine.Num → Machine.Num × Nat) (b a d : Reg) (s : State),
    fpuForm i = some (x, r, f, b, a, d) → Settled s [d, b, a] →
    let val := fun (v : Word) => match x with | .d => decodeIeee ⟨11, 52⟩ v.toNat | .s => decodeIeee ⟨8, 23⟩ (v.toNat % 2 ^ 32)
    let mode : Rm := if r ≠ .dyn then r else match s.k.fpc.toNat % 8 with | 2 => .rtz | 3 => .rdn | 4 => .rup | 5 => .rna | _ => .rne
    let e := f mode (val (rd s.k a)) (val (rd s.k b)) (val (rd s.k d))
    let p := roundIeee (match x with | .d => ⟨11, 52⟩ | .s => ⟨8, 23⟩) mode e.1
    FpEnds i (p.2 ||| e.2) s (FpWrites d p.1 s)

/-- The class of a pattern by its sign, exponent field and fraction (R152). -/
def Sys2Proof.Claims.classOf (eb fb p : Nat) : Nat :=
  let neg := p / 2 ^ (eb + fb) % 2 = 1
  let ex := p / 2 ^ fb % 2 ^ eb
  let fr := p % 2 ^ fb
  if ex = 2 ^ eb - 1 then (if fr = 0 then (if neg then 0 else 7) else if fr < 2 ^ (fb - 1) then 8 else 9)
  else if ex = 0 then (if fr = 0 then (if neg then 3 else 4) else if neg then 2 else 5)
  else if neg then 1 else 6

/-- R150-R153: FMIN and FMAX choose a pattern; FABS and FNEG move bits; FCLASS gives one bit; FCVT converts (R35, R144); FCMPG resolves its guard
and waits where a COMPACT will resolve it (R100). -/
def Sys2Proof.Claims.FpuSelectionsAndConversions : Prop :=
  ∀ (x : FFmt) (b a d : Reg) (s : State), Settled s [d, b, a] →
    let w := match x with | .d => 64 | .s => 32
    let fmt : Ieee := match x with | .d => ⟨11, 52⟩ | .s => ⟨8, 23⟩
    let pa := (rd s.k a).toNat % 2 ^ w
    let pb := (rd s.k b).toNat % 2 ^ w
    let va := decodeIeee fmt pa
    let vb := decodeIeee fmt pb
    let iv := if va = .nan true ∨ vb = .nan true then 1 else 0
    let least := if isNan va ∧ isNan vb then (fmt.nanBits, fmt.nanBits) else if isNan va then (pb, pb) else if isNan vb then (pa, pa)
      else if numCmp va vb = .lt ∨ (numCmp va vb = .eq ∧ signOf va = true ∧ signOf vb = false) then (pa, pb) else (pb, pa)
    FpEnds (.fmin x b a d) iv s (FpWrites d least.1 s) ∧ FpEnds (.fmax x b a d) iv s (FpWrites d least.2 s)
    ∧ Runs (.fabs x a d) s (Writes 4 d (BitVec.ofNat 64 (pa % 2 ^ (w - 1))) s)
    ∧ Runs (.fneg x a d) s (Writes 4 d (BitVec.ofNat 64 (if pa < 2 ^ (w - 1) then pa + 2 ^ (w - 1) else pa - 2 ^ (w - 1))) s)
    ∧ Runs (.fclass x a d) s (Writes 4 d (BitVec.ofNat 64 (2 ^ classOf fmt.eb fmt.fb pa)) s)
    ∧ (∀ (r : Rm) (c : Cvt),
      let mode := modeOf r s.k.fpc
      let src := if c.fromInt then numElem c.ty else fTy x
      let dst := if c.fromInt then fTy x else numElem c.ty
      let p := convert src dst false mode (fun _ => 0) (if c.fromInt then (rd s.k a).toNat % 2 ^ intBits src else pa)
      FpEnds (.fcvt x r c a d) p.2 s (FpWrites d (if dst = .s32 then ((BitVec.ofNat 32 p.1).signExtend 64).toNat else p.1) s))
    ∧ ∀ (c : FCond) (g : QIx),
      let nan := isNan va ∨ isNan vb
      let holds := match c with
        | .eq => ¬ nan ∧ numCmp va vb = .eq
        | .lt => ¬ nan ∧ numCmp va vb = .lt
        | .le => ¬ nan ∧ numCmp va vb ≠ .gt
        | .uo => nan
      let flag := if (c = .lt ∨ c = .le) ∧ nan then 1 else iv
      (resolves (opsOf s s.cur.1 s.cur.2) g = false →
        FpEnds (.fcmpg x b a c g) flag s fun t => RegsKept s t [] ∧ GuardsKept s t [g] ∧ (g ≠ 0 → ∃ v, guardOf t.k g = some v ∧ (v = true ↔ holds)))
      ∧ (resolves (opsOf s s.cur.1 s.cur.2) g = true → Runs (.fcmpg x b a c g) s (Waits s))

/-- A value as a whole number of half quanta 2^(l-1): a sticky magnitude lies inside its quantum. -/
def Sys2Proof.Claims.halves (l : Int) (v : Machine.Num) : Int :=
  match v with
  | .fin neg m e sticky => (if neg then -1 else 1) * ((2 * m + bitN sticky) * 2 ^ (e - l).toNat : Nat)
  | _ => 0

/-- A pattern's value in half quanta: an infinity counts as the value behind the largest finite one (R135). -/
def Sys2Proof.Claims.patternAt (f : Ieee) (l : Int) (p : Nat) : Int :=
  match decodeIeee f p with
  | .inf neg => (if neg then -1 else 1) * (2 * 2 ^ (f.bias + 1 - l).toNat : Nat)
  | v => halves l v

/-- Whether a pattern is finite, and whether it is a number. -/
def Sys2Proof.Claims.finitePattern (f : Ieee) (p : Nat) : Prop := p < 2 * f.signBit ∧ p % f.signBit < f.infBits
def Sys2Proof.Claims.numberPattern (f : Ieee) (p : Nat) : Prop := p < 2 * f.signBit ∧ p % f.signBit ≤ f.infBits

/-- R135, Round: for a nonzero exact value the result is the neighbour that the mode selects, beyond the largest finite value the infinity or
the largest finite value that the mode selects; IX is raised exactly when the value is not representable, UF when it is then below the
smallest normal, OF when the rounded value is beyond the largest finite one. A quotient or root that goes on below its quantum (`sticky`)
carries at least two bits more than the fraction. The formats are f64, f32, bf16, f16 and all of their shape. -/
def Sys2Proof.Claims.RoundingSelectsTheNeighbour : Prop :=
  ∀ (f : Ieee) (mode : Rm) (neg : Bool) (m : Nat) (e : Int) (sticky : Bool), 2 ≤ f.eb → 1 ≤ f.fb → 0 < m →
    (sticky = true → 2 ^ (f.fb + 2) ≤ m) →
    let r := roundIeee f mode (.fin neg m e sticky)
    let l := min e (1 - f.bias - f.fb)
    let v := halves l (.fin neg m e sticky)
    let w := patternAt f l r.1
    let exact := ∃ p, finitePattern f p ∧ patternAt f l p = v
    numberPattern f r.1 ∧ (decide (r.1 ≥ f.signBit) = neg)
    ∧ (match mode with
      | .dyn | .rne => ∀ p, numberPattern f p → (w - v).natAbs ≤ (patternAt f l p - v).natAbs
          ∧ ((w - v).natAbs = (patternAt f l p - v).natAbs → patternAt f l p ≠ w → r.1 % 2 = 0)
      | .rna => ∀ p, numberPattern f p → (w - v).natAbs ≤ (patternAt f l p - v).natAbs
          ∧ ((w - v).natAbs = (patternAt f l p - v).natAbs → (patternAt f l p).natAbs ≤ w.natAbs)
      | .rtz => finitePattern f r.1 ∧ w.natAbs ≤ v.natAbs ∧ ∀ p, finitePattern f p → (patternAt f l p).natAbs ≤ v.natAbs → (patternAt f l p).natAbs ≤ w.natAbs
      | .rdn => (∀ p, finitePattern f p → patternAt f l p ≤ v → finitePattern f r.1 ∧ patternAt f l p ≤ w) ∧ (finitePattern f r.1 → w ≤ v)
      | .rup => (∀ p, finitePattern f p → v ≤ patternAt f l p → finitePattern f r.1 ∧ w ≤ patternAt f l p) ∧ (finitePattern f r.1 → v ≤ w))
    ∧ (r.2.testBit 4 = true ↔ ¬ exact)
    ∧ (r.2.testBit 3 = true ↔ ¬ exact ∧ v.natAbs < 2 * 2 ^ (1 - f.bias - l).toNat)
    ∧ (r.2.testBit 2 = true ↔ ¬ finitePattern f r.1 ∨ 2 * 2 ^ (f.bias + 1 - l).toNat ≤ v.natAbs)
    ∧ r.2 % 4 = 0 ∧ r.2 < 32

/-- R150: the exact results that are rounded. Of finite operands, sums, products and fused products are the exact ones; a quotient or root is
the largest multiple of its quantum that does not exceed the exact one, sticky when it falls short, with at least 68 bits. -/
def Sys2Proof.Claims.ArithmeticIsExactBeforeRounding : Prop :=
  ∀ (mode : Rm) (p q u : Bool) (m n h : Nat) (e d g l : Int), l ≤ e → l ≤ d → l ≤ g →
    let a := Machine.Num.fin p m e false
    let b := Machine.Num.fin q n d false
    let c := Machine.Num.fin u h g false
    (halves l (numAdd mode a b).1 = halves l a + halves l b ∧ (numAdd mode a b).2 = 0)
    ∧ (2 * halves (l + l) (numMul a b).1 = halves l a * halves l b ∧ (numMul a b).2 = 0)
    ∧ (l + l ≤ l → 2 * halves (l + l) (numFma mode a b c).1 = halves l a * halves l b + 2 * halves (l + l) c)
    ∧ (0 < n → ∃ k x y st, numDiv a b = (.fin (p != q) x y st, 0) ∧ y = e - d - (k : Nat) ∧ x * n ≤ m * 2 ^ k ∧ m * 2 ^ k < (x + 1) * n
        ∧ (st = false ↔ x * n = m * 2 ^ k) ∧ (0 < m → 2 ^ 68 ≤ x))
    ∧ (0 < m → n = 0 → numDiv a b = (.inf (p != q), 2))
    ∧ (0 < m → p = false → ∃ k x y st, numSqrt a = (.fin false x y st, 0) ∧ 2 * y = e - (k : Nat) ∧ x * x ≤ m * 2 ^ k ∧ m * 2 ^ k < (x + 1) * (x + 1)
        ∧ (st = false ↔ x * x = m * 2 ^ k) ∧ 2 ^ 68 ≤ x)
    ∧ (0 < m → p = true → numSqrt a = (.nan false, 1))

/-! ## Branches, calls and loops (R287-R294) -/

/-- Beside the PC and the loop slot, a transfer changes nothing that a program can read: no register, guard or special register, no
byte, no other context. -/
def Sys2Proof.Claims.FlowKept (s t : State) : Prop := RegsKept s t [] ∧ ContextKept s.k t.k ∧ OthersKept s t ∧ BytesKept s t

/-- Where a branch to a byte offset ends (R287, R8): a word-aligned target in 0 to 2_FFFC is taken, out of any LOOP slot; another
parks the branch, with ALIGN where it is not aligned and else LADDR. -/
def Sys2Proof.Claims.BranchesTo (p : Int) (s t : State) : Prop :=
  if p % 4 ≠ 0 then ∃ ea, Parks { cause := .align, eaddr := ea } s t
  else if p < 0 ∨ p > 0x2FFFC then ∃ ea, Parks { cause := .laddr, eaddr := ea } s t
  else (t.k.pc : Int) = p ∧ t.k.loop = none ∧ FlowKept s t

/-- Where a jump to a register's value ends (R287): a plain offset or a local-form address names its low 18 bits; any other value is
LADDR with the value in EADDR. -/
def Sys2Proof.Claims.JumpsTo (v : Word) (s t : State) : Prop :=
  if v.toNat < 2 ^ 18 ∨ (v.toNat / 2 ^ 62 = 3 ∧ v.toNat / 2 ^ 18 % 2 ^ 44 = 0) then BranchesTo (v.toNat % 2 ^ 18 : Nat) s t
  else Parks { cause := .laddr, eaddr := v } s t

/-- When BZ branches on a value (R288). -/
def Sys2Proof.Claims.BzTaken (c : Cond) (v : Word) : Prop :=
  match c with
  | .eq0 => v = 0 | .ne0 => v ≠ 0 | .lt0 => v.toInt < 0 | .ge0 => v.toInt ≥ 0 | .gt0 => v.toInt > 0 | .le0 => v.toInt ≤ 0
  | .b0c => v.toNat % 2 = 0 | .b0s => v.toNat % 2 = 1

/-- BZ (R287, R288): while a reply is due into its register it waits; taken, it goes to PC + 4·offset or faults there; not taken, it retires
without checking its target. -/
def Sys2Proof.Claims.BzBranchesOnItsRegister : Prop :=
  ∀ (o : BitVec 15) (h : Bool) (c : Cond) (a : Reg) (s : State),
    (busyReg (opsOf s s.cur.1 s.cur.2) a = true → Runs (.bz o h c a) s (Waits s))
    ∧ (Settled s [a] → BzTaken c (rd s.k a) → Runs (.bz o h c a) s (BranchesTo (s.k.pc + 4 * o.toInt) s))
    ∧ (Settled s [a] → ¬ BzTaken c (rd s.k a) → Runs (.bz o h c a) s fun t => t.k.pc = nextPc s.k 4 ∧ FlowKept s t)

/-- BG (R289): it branches when its guard, inverted by N, is true; q0 is always true; it waits while the guard is unresolved. -/
def Sys2Proof.Claims.BgBranchesOnItsGuard : Prop :=
  ∀ (o : BitVec 15) (h n : Bool) (q : QIx) (s : State),
    (guardOf s.k q = some (!n) → Runs (.bg o h n q) s (BranchesTo (s.k.pc + 4 * o.toInt) s))
    ∧ (guardOf s.k q = some n → Runs (.bg o h n q) s fun t => t.k.pc = nextPc s.k 4 ∧ RegsKept s t [] ∧ GuardsKept s t [] ∧ BytesKept s t)
    ∧ (guardOf s.k q = none → Runs (.bg o h n q) s (Waits s))

/-- J and JR (R287, R290). -/
def Sys2Proof.Claims.JumpsReachTheirTarget : Prop :=
  ∀ (s : State), (∀ o : BitVec 24, Runs (.j o) s (BranchesTo (s.k.pc + 4 * o.toInt) s))
    ∧ ∀ a : Reg, Settled s [a] → Runs (.jr a) s (JumpsTo (rd s.k a) s)

/-- The register of the window with a number. -/
def Sys2Proof.Claims.regNo (n : Nat) : Reg := BitVec.ofNat 5 n

/-- The window after a call (R113, R290): the a-set is the caller's o-set, the l-set is zero but for l7, which holds the return offset;
the globals and the o-set stay; the caller's a-set and l-set are the newest saved frame. -/
def Sys2Proof.Claims.Called (s t : State) : Prop :=
  (∀ j, j < 8 → rd t.k (regNo (8 + j)) = rd s.k (regNo (24 + j))) ∧ (∀ j, j < 7 → rd t.k (regNo (16 + j)) = 0)
    ∧ rd t.k (regNo 23) = BitVec.ofNat 64 (s.k.pc + 4)
    ∧ (∀ j, j < 8 → rd t.k (regNo j) = rd s.k (regNo j) ∧ rd t.k (regNo (24 + j)) = rd s.k (regNo (24 + j)))
    ∧ t.k.depth = s.k.depth + 1
    ∧ t.k.frames.head? = some ((List.range 16).map fun j => rd s.k (regNo (8 + j)))

/-- CALL and CALLR (R287, R290): with fewer than three frames resident and no reply due into the window, a call moves the window and goes to
its target; one that faults on its target moves nothing. -/
def Sys2Proof.Claims.CallsMoveTheWindow : Prop :=
  ∀ (s : State), busyWindow (opsOf s s.cur.1 s.cur.2) = false → s.k.frames.length < 3 →
    (∀ o : BitVec 24,
      let p : Int := s.k.pc + 4 * o.toInt
      Runs (.call o) s fun t => if p % 4 = 0 ∧ 0 ≤ p ∧ p ≤ 0x2FFFC
        then (t.k.pc : Int) = p ∧ Called s t ∧ specials { t.k with depth := 0 } = specials { s.k with depth := 0 } ∧ GuardsKept s t [] ∧ OthersKept s t ∧ BytesKept s t
        else BranchesTo p s t)
    ∧ ∀ a : Reg, Settled s [a] →
      let v := (rd s.k a).toNat
      Runs (.callr a) s fun t => if (v < 2 ^ 18 ∨ (v / 2 ^ 62 = 3 ∧ v / 2 ^ 18 % 2 ^ 44 = 0)) ∧ v % 4 = 0 ∧ v % 2 ^ 18 ≤ 0x2FFFC
        then t.k.pc = v % 2 ^ 18 ∧ Called s t ∧ specials { t.k with depth := 0 } = specials { s.k with depth := 0 } ∧ GuardsKept s t []
          ∧ OthersKept s t ∧ BytesKept s t
        else JumpsTo (rd s.k a) s t

/-- RET (R113, R290): at depth 0 it is ILL with its word in EINFO; with its caller's frame resident it goes to the target in l7, brings
back the caller's a-set and l-set, and keeps the globals and the o-set, in which results come back. -/
def Sys2Proof.Claims.RetRestoresTheCaller : Prop :=
  ∀ (s : State), busyWindow (opsOf s s.cur.1 s.cur.2) = false → Settled s [regNo 23] →
    (s.k.depth = 0 → Runs .ret s (Parks { cause := .ill, einfo := BitVec.ofNat 64 ((encode .ret).headD 0) } s))
    ∧ ∀ f fs, s.k.depth ≠ 0 → s.k.frames = f :: fs → f.length = 16 →
      let v := (rd s.k (regNo 23)).toNat
      Runs .ret s fun t => if (v < 2 ^ 18 ∨ (v / 2 ^ 62 = 3 ∧ v / 2 ^ 18 % 2 ^ 44 = 0)) ∧ v % 4 = 0 ∧ v % 2 ^ 18 ≤ 0x2FFFC
        then t.k.pc = v % 2 ^ 18 ∧ t.k.depth = s.k.depth - 1 ∧ t.k.frames = fs
          ∧ (∀ j, j < 16 → rd t.k (regNo (8 + j)) = f.getD j 0)
          ∧ (∀ j, j < 8 → rd t.k (regNo j) = rd s.k (regNo j) ∧ rd t.k (regNo (24 + j)) = rd s.k (regNo (24 + j)))
          ∧ GuardsKept s t [] ∧ OthersKept s t ∧ BytesKept s t
        else JumpsTo (rd s.k (regNo 23)) s t

/-- A call followed at once by a return comes back behind the call with the caller's whole window (R113, R290). -/
def Sys2Proof.Claims.CallThenReturnRestoresTheWindow : Prop :=
  ∀ (o : BitVec 24) (s : State), busyWindow (opsOf s s.cur.1 s.cur.2) = false → s.k.frames.length < 3 →
    s.k.pc % 4 = 0 → s.k.pc < 0x2FFFC → 0 ≤ s.k.pc + 4 * o.toInt → s.k.pc + 4 * o.toInt ≤ 0x2FFFC →
    Runs (.call o) s fun t => Runs .ret t fun u =>
      u.k.pc = s.k.pc + 4 ∧ u.k.depth = s.k.depth ∧ u.k.frames = s.k.frames ∧ RegsKept s u [] ∧ GuardsKept s u [] ∧ BytesKept s u

/-- LOOP (R292, R293): with a good target and two instructions that a slot may hold, A is decremented, and the two slots are pending with the
decision taken on the decremented value; LOOP g0 decrements nothing and always branches. A forbidden slot is ILL at the LOOP. -/
def Obligations.LoopDecrementsAndSetsItsSlots : Prop :=
  ∀ (o : BitVec 15) (a : Reg) (s : State) (i1 i2 : Instr) (ws1 ws2 : List Nat) (u1 u2 : State),
    let p : Int := s.k.pc + 4 * o.toInt
    let b := bankCore s s.cur.1 s.cur.2
    Settled s [a] → p % 4 = 0 → 0 ≤ p → p ≤ 0x2FFFC → s.k.loop = none → s.k.back = [] →
    fetchInstr s s.cur.1 b (s.k.pc + 4) = .ok (ws1, u1) → decode ws1 = .ok i1 →
    fetchInstr s s.cur.1 b (s.k.pc + 4 + 4 * ws1.length) = .ok (ws2, u2) → decode ws2 = .ok i2 →
    (slotForbidden i1 = false → slotForbidden i2 = false → Runs (.loop o a) s fun t =>
      t.k.pc = s.k.pc + 4 ∧ rd t.k a = (if a = 0 then 0 else rd s.k a - 1) ∧ RegsKept s t [a] ∧ GuardsKept s t []
        ∧ t.k.loop = some ⟨1, decide (rd s.k a - 1 ≠ 0), p.toNat⟩ ∧ specials t.k = specials s.k ∧ OthersKept s t ∧ BytesKept s t)
    ∧ (slotForbidden i1 = true ∨ slotForbidden i2 = true →
      Runs (.loop o a) s (Parks { cause := .ill, einfo := BitVec.ofNat 64 ((encode (.loop o a)).headD 0) } s))

/-! ## System instructions -/

/-- The context retires at `len` bytes with its registers, guards and special registers as they were, and every byte and other context. -/
def Sys2Proof.Claims.Quietly (len : Nat) (s t : State) : Prop :=
  t.k.pc = nextPc s.k len ∧ RegsKept s t [] ∧ GuardsKept s t [] ∧ specials t.k = specials s.k ∧ OthersKept s t ∧ BytesKept s t

/-- Whether a store of the context to its own local memory has yet to be written (R71). -/
def Sys2Proof.Claims.ownStorePending (s : State) : Bool :=
  (opsOf s s.cur.1 s.cur.2).any fun o => o.status == 0 && isStore o && match o.target with
    | some t => (placeKey t.place).1 == 3 * bankCore s s.cur.1 s.cur.2
    | none => false

/-- NOP and PREF retire and change nothing (R355, R88); SYNCI does so once the context's own local stores are written, and drops the fetch
buffer (R71); until then it waits. -/
def Sys2Proof.Claims.NopPrefAndSynciOnlyRetire : Prop :=
  ∀ (s : State), Runs .nop s (OnlyRetires 4 s)
    ∧ (∀ b a : Reg, Settled s [b, a] → Runs (.pref b a) s (OnlyRetires 4 s))
    ∧ (ownStorePending s = false → Runs .synci s fun t => OnlyRetires 4 s t ∧ (t.core s.cur.1).fetch = none)
    ∧ (ownStorePending s = true → Runs .synci s (Waits s))

/-- A release or an acquire of a core at system scope finds no copy of a peer line in its die's cache or its stash, and none on its way (R77, R213). -/
def Sys2Proof.Claims.PeerFree (s : State) (c : Nat) (sc : Scope) : Prop :=
  sc = .sys → (∀ e ∈ (s.die (dieOf c)).sectors, isOwn (e.1 * 64) = true) ∧ (s.core c).stash = [] ∧ s.sent = []

/-- FENCE (R213): once every earlier load and AMO is bound for its acquire part, and everything earlier is performed at the scope for its
release part, it retires, and counts in the region number once for each part; at system scope a release needs no dirty peer line left in the
die's cache and no write-back on its way, and an acquire leaves no copy of a peer line there (R77). What is not ready waits. -/
def Obligations.FenceWaitsThenRetires : Prop :=
  ∀ (sc : Scope) (rel acq : Bool) (s : State),
    let ops := opsOf s s.cur.1 s.cur.2
    ((acq = true → ops.any (fun o => live o && (isLoad o || isAmo o)) = false) →
      (rel = true → releaseReady ops s.nextId sc = true
        ∧ (sc = .sys → peerDirty s (dieOf s.cur.1) = [] ∧ s.sent.any (fun r => r.core == wbCore (dieOf s.cur.1)) = false)) →
      (acq = true → PeerFree s s.cur.1 sc) →
      Runs (.fence sc rel acq) s fun t => Quietly 4 s t ∧ t.k.region = s.k.region + BitVec.ofNat 32 (bitN rel + bitN acq))
    ∧ (rel = true → releaseReady ops s.nextId sc = false → Runs (.fence sc rel acq) s (Waits s))
    ∧ (acq = true → ops.any (fun o => live o && (isLoad o || isAmo o)) = true → Runs (.fence sc rel acq) s (Waits s))
    ∧ (acq = true → rel = false → sc = .sys → ops.any (fun o => live o && (isLoad o || isAmo o)) = false →
      Runs (.fence sc rel acq) s fun t => t.k.pc = nextPc s.k 4 ∧ RegsKept s t [] ∧ GuardsKept s t [] ∧ specials t.k = specials s.k
        ∧ t.k.region = s.k.region + 1 ∧ ∀ e ∈ (t.die (dieOf s.cur.1)).sectors, isOwn (e.1 * 64) = true)

/-- An in-core handler is entered (R354): the return point in EPC, the cause, the detail, INH set, and the PC at TVEC's offset; the fetch buffer
is dropped, and no register, guard, byte or other context changes. -/
def Sys2Proof.Claims.EntersHandler (c : Cause) (info : Word) (ret : Nat) (s t : State) : Prop :=
  t.k.pc = s.k.tvec.toNat / 4 % 2 ^ 16 * 4 ∧ t.k.epc = BitVec.ofNat 64 ret ∧ t.k.ecause = BitVec.ofNat 64 c.code ∧ t.k.einfo = info
    ∧ t.k.estat.getLsbD 0 = true ∧ t.k.loop = none ∧ (t.core s.cur.1).fetch = none ∧ t.k.tvec = s.k.tvec ∧ t.k.eaddr = s.k.eaddr
    ∧ RegsKept s t [] ∧ GuardsKept s t [] ∧ OthersKept s t ∧ BytesKept s t

/-- Whether an in-core handler can run: TVEC names one and none runs (R354). -/
def Sys2Proof.Claims.canHandle (s : State) : Prop := s.k.tvec.toNat / 4 % 2 ^ 16 ≠ 0 ∧ s.k.estat.getLsbD 0 = false

/-- TRAP and BRK (R354, R355): where a handler can run they retire into it with their number in EINFO; else they park with their
own address in EPC. A BRK of a firing that a stop entry watches retires and halts for the debugger instead. -/
def Sys2Proof.Claims.TrapAndBrkEnterTheHandlerOrPark : Prop :=
  ∀ (n : BitVec 5) (s : State),
    (canHandle s → Runs (.trap n) s (EntersHandler .trap (n.setWidth 64) (nextPc s.k 4) s))
    ∧ (¬ canHandle s → Runs (.trap n) s (Parks { cause := .trap, einfo := n.setWidth 64 } s))
    ∧ (watched s (gtidOf s.k) = false → canHandle s → Runs (.brk n) s (EntersHandler .brk (n.setWidth 64) (nextPc s.k 4) s))
    ∧ (watched s (gtidOf s.k) = false → ¬ canHandle s → Runs (.brk n) s (Parks { cause := .brk, einfo := n.setWidth 64 } s))
    ∧ (watched s (gtidOf s.k) = true → Runs (.brk n) s fun t =>
      t.k.dhalt = true ∧ t.k.pc = nextPc s.k 4 ∧ t.k.einfo = n.setWidth 64 ∧ RegsKept s t [] ∧ OthersKept s t ∧ BytesKept s t)

/-- HRET (R356): outside a handler it is ILL; in one it clears INH and SLOT, drops the fetch buffer and goes to EPC's PC, into the LOOP slot that
ESTAT records. -/
def Sys2Proof.Claims.HretReturnsFromTheHandler : Prop :=
  ∀ (s : State),
    (s.k.estat.getLsbD 0 = false → Runs .hret s (Parks { cause := .ill, einfo := BitVec.ofNat 64 ((encode .hret).headD 0) } s))
    ∧ (s.k.estat.getLsbD 0 = true → Runs .hret s fun t =>
      t.k.pc = s.k.epc.toNat / 4 % 2 ^ 16 * 4 ∧ t.k.estat.getLsbD 0 = false ∧ t.k.estat.toNat / 4 % 4 = 0 ∧ (t.core s.cur.1).fetch = none
        ∧ (t.k.loop = if s.k.estat.toNat / 4 % 4 = 0 then none
            else some ⟨s.k.estat.toNat / 4 % 4, s.k.estat.getLsbD 22, s.k.estat.toNat / 64 % 2 ^ 16 * 4⟩)
        ∧ t.k.epc = s.k.epc ∧ t.k.ecause = s.k.ecause ∧ t.k.eaddr = s.k.eaddr ∧ t.k.einfo = s.k.einfo
        ∧ RegsKept s t [] ∧ GuardsKept s t [] ∧ OthersKept s t ∧ BytesKept s t)

/-- A trap taken and left at once by HRET comes back behind the trap with every register, guard and byte (R354, R356). -/
def Sys2Proof.Claims.TrapThenHretComesBack : Prop :=
  ∀ (n : BitVec 5) (s : State), canHandle s → s.k.loop = none → s.k.back = [] → s.k.pc % 4 = 0 → s.k.pc + 4 < 2 ^ 18 →
    Runs (.trap n) s fun t => Runs .hret t fun u =>
      u.k.pc = s.k.pc + 4 ∧ u.k.loop = none ∧ u.k.estat.getLsbD 0 = false ∧ RegsKept s u [] ∧ GuardsKept s u [] ∧ OthersKept s u ∧ BytesKept s u

/-- EVWAIT (R296): a nonzero count goes to D and the count to 0; at zero it waits. -/
def Sys2Proof.Claims.EvwaitTakesTheCount : Prop :=
  ∀ (d : Reg) (s : State), Settled s [d] →
    (s.k.events ≠ 0 → Runs (.evwait d) s fun t =>
      rd t.k d = (if d = 0 then 0 else BitVec.ofNat 64 s.k.events) ∧ t.k.events = 0 ∧ RegsKept s t [d] ∧ GuardsKept s t []
        ∧ t.k.pc = nextPc s.k 4 ∧ OthersKept s t ∧ BytesKept s t)
    ∧ (s.k.events = 0 → Runs (.evwait d) s (Waits s))

/-- EVPOST to a core of this package (R297): every context of the issuing domain there, and no other context of that core, counts one event,
saturating at 255; form 00 or a core that names nothing is LADDR. -/
def Sys2Proof.Claims.EvpostCountsOneEvent : Prop :=
  ∀ (a : Reg) (s : State), Settled s [a] →
    (∀ x y, coreNamed s (rd s.k a) = some (0, x, y) → s.coreExists x y = true →
      Runs (.evpost a) s fun t => t.k.pc = nextPc s.k 4 ∧ RegsKept s t [] ∧ BytesKept s t ∧ ∀ n, n ∈ Tbl.keys (s.core (y * 128 + x)).ctxs →
        (s.ctx (y * 128 + x) n).away = none → (t.ctx (y * 128 + x) n).events = (let k := s.ctx (y * 128 + x) n
          if k.home.map (·.1) = some (domOf s.k) then min 255 (k.events + 1) else k.events))
    ∧ (coreNamed s (rd s.k a) = none → Runs (.evpost a) s (Parks { cause := .laddr, eaddr := rd s.k a } s))
    ∧ (∀ x y, coreNamed s (rd s.k a) = some (0, x, y) → s.coreExists x y = false →
      Runs (.evpost a) s (Parks { cause := .laddr, eaddr := rd s.k a } s))

/-- BAR (R298): a malformed operand parks with SHAPE 0x90; an arrival that does not complete its episode is counted and waits; the arrival
that completes it sends every waiting context on, of a barrier whose arrivals this package counts; and a context whose barrier has departed retires. -/
def Sys2Proof.Claims.BarArrivesWaitsAndDeparts : Prop :=
  ∀ (sc : Scope) (a : Reg) (s : State), Settled s [a] →
    let v := (rd s.k a).toNat
    let n := v / 2 ^ 16 % 2 ^ 16
    let mine := fun (b : Barrier) => b.dom == domOf s.k && b.scope == sc && b.inst == instanceOf sc s.cur.1 && b.num == v % 256
    let asked := s.sent.filter fun r => r.core == s.cur.1 && r.op == msgId s.cur.2 && r.pkt.op == 6 && r.pkt.flg / 16 == 6
    (s.k.arrival = none → (v / 2 ^ 8 % 2 ^ 8 ≠ 0 ∨ v / 2 ^ 32 ≠ 0 ∨ n = 0) → Runs (.bar sc a) s (Parks { cause := .shape, einfo := 0x90 } s))
    ∧ (s.k.arrival = none → v / 2 ^ 8 % 2 ^ 8 = 0 → v / 2 ^ 32 = 0 → n ≠ 0 → PeerFree s s.cur.1 sc → releaseReady (opsOf s s.cur.1 s.cur.2) s.nextId sc = true →
      (∀ b, s.barriers.find? mine = some b → b.count ≠ n → Runs (.bar sc a) s (Parks { cause := .shape, einfo := 0x91 } s))
      ∧ (∀ b, s.barriers.find? mine = some b → b.count = n → barrierHome s (domOf s.k) sc = s.pkid → Runs (.bar sc a) s fun t =>
        t.k.pc = s.k.pc ∧ t.k.arrival = some b.id ∧ RegsKept s t [] ∧ BytesKept s t
          ∧ (if b.arrived + 1 ≥ n then Event.barrierDepart b.id ∈ t.events ∧ t.barriers.find? mine = none
             else ∃ b', t.barriers.find? mine = some b' ∧ b'.arrived = b.arrived + 1 ∧ b'.count = n ∧ b'.id = b.id))
      ∧ (s.barriers.find? mine = none → barrierHome s (domOf s.k) sc = s.pkid → Runs (.bar sc a) s fun t =>
        t.k.pc = s.k.pc ∧ t.k.arrival.isSome ∧ RegsKept s t [] ∧ BytesKept s t
          ∧ (n > 1 → ∃ b', t.barriers.find? mine = some b' ∧ b'.arrived = 1 ∧ b'.count = n ∧ t.k.arrival = some b'.id)))
    ∧ (s.k.arrival.isSome → s.k.departed = false → asked = [] → Runs (.bar sc a) s (Waits s))
    ∧ (s.k.arrival.isSome → s.k.departed = true → asked = [] → PeerFree s s.cur.1 sc →
      Runs (.bar sc a) s fun t => Quietly 4 s t ∧ t.k.arrival = none ∧ t.k.departed = false)

/-- BARRIER_DEPART (R298): every context that arrived at the episode departs, no other one does, and nothing else of it changes. -/
def Sys2Proof.Claims.BarrierDepartReleasesItsContexts : Prop :=
  ∀ (id : Nat) (s : State), Runs (.barrierDepart id) s fun t =>
    BytesKept s t ∧ ∀ c x, { t.ctx c x with departed := (s.ctx c x).departed } = s.ctx c x
      ∧ ((s.ctx c x).arrival = some id → (t.ctx c x).departed = true)
      ∧ ((s.ctx c x).arrival ≠ some id → (t.ctx c x).departed = (s.ctx c x).departed)

/-- The instructions of R41's list of supervisor functions. -/
def Sys2Proof.Claims.supervisorRow (i : Instr) : Bool :=
  match i with
  | .halt | .tlbinv _ | .freeze | .thaw | .front _ _ | .mcwr .. | .aclwr .. => true
  | _ => false

/-- The registers that a supervisor function names. -/
def Sys2Proof.Claims.supervisorRegs (i : Instr) : List Reg :=
  match i with
  | .tlbinv a => [a] | .front a d => [a, d] | .mcwr b a d => [b, a, d] | .aclwr b a d => [b, a, d]
  | _ => []

/-- R41, R43: a supervisor function in user code raises PRIV with its word in EINFO, does not retire, and changes no register, guard, byte or
other context; its supervisor is sent one message. -/
def Sys2Proof.Claims.SupervisorFunctionsInUserCodeRaisePriv : Prop :=
  ∀ (i : Instr) (s : State), supervisorRow i = true → isSuper s s.k = false → Settled s (supervisorRegs i) →
    Runs i s fun t => Parks { cause := .priv, einfo := BitVec.ofNat 64 ((encode i).headD 0) } s t
      ∧ Tells { cause := .priv, einfo := BitVec.ofNat 64 ((encode i).headD 0) } s t

/-- HALT in supervisor code (R371): it retires, and its context then halts for the debugger; no register, guard or byte changes. -/
def Sys2Proof.Claims.HaltStopsForTheDebugger : Prop :=
  ∀ (s : State), isSuper s s.k = true → Runs .halt s fun t => Quietly 4 s t ∧ t.k.dhalt = true

/-- SVC (R360): a user's message to its supervisor's core goes out with KIND 3 and its bytes 16 to 31; one to another core of the
package is LADDR with 0xB0, and one for which 256 wait already waits; a supervisor's message is the command that its double words hold. An address that is not a multiple of 32 is
ALIGN. -/
def Sys2Proof.Claims.SvcSendsItsMessage : Prop :=
  ∀ (b a : Reg) (s : State) (off x y : Nat), Settled s [b, a] →
    ((rd s.k a).toNat % 32 ≠ 0 → Runs (.svc b a) s (Parks { cause := .align, eaddr := rd s.k a } s))
    ∧ (localSpan s (rd s.k a) 32 = .ok off → coreNamed s (rd s.k b) = some (0, x, y) → s.coreExists x y = true →
      (isSuper s s.k = false → s.k.supv.toNat % 2 ^ 25 = y * 128 + x → 256 ≤ (s.dom (domOf s.k)).waitMsgs.length → Runs (.svc b a) s (Waits s))
      ∧ (isSuper s s.k = false → (s.k.supv.toNat % 2 ^ 25 ≠ y * 128 + x) →
        Runs (.svc b a) s (Parks { cause := .laddr, eaddr := rd s.k b, einfo := 0xB0 } s))
      ∧ (releaseReady (opsOf s s.cur.1 s.cur.2) s.nextId .pkg = true →
        let bs := localBytes s off 32
        (isSuper s s.k = false → s.k.supv.toNat % 2 ^ 25 = y * 128 + x → (s.dom (domOf s.k)).waitMsgs.length < 256 → Runs (.svc b a) s fun t =>
          Quietly 4 s t ∧ (t.dom (domOf s.k)).waitMsgs = (s.dom (domOf s.k)).waitMsgs
            ++ [⟨smsgHead s.cur.1 s.cur.2 s.k.pc 3 0, gtidOf s.k, leWord ((bs.drop 16).take 8), leWord ((bs.drop 24).take 8)⟩])
        ∧ (isSuper s s.k = true → holdsDom s (domOf s.k) (y * 128 + x) = true → leWord (bs.take 8) = 1 → leWord ((bs.drop 16).take 8) = 0 →
          leWord ((bs.drop 24).take 8) = 0 → (leWord ((bs.drop 8).take 8)).toNat / 2 ^ 48 = domOf s.k →
          Runs (.svc b a) s fun t => Quietly 4 s t ∧ Event.resume (y * 128 + x) (leWord ((bs.drop 8).take 8)) ∈ t.events)))

/-! ## CSRs and counters (R46, R47, R125, R136, R137, R353, R380, R381) -/

/-- The context CSRs of R353 and their like that a read takes straight from the issuing context. -/
def Sys2Proof.Claims.ctxCsr (n : CsrName) : Option (Ctx → Word) :=
  match n with
  | .fpc => some (·.fpc) | .fpf => some (·.fpf) | .nbv => some fun k => BitVec.ofNat 64 k.nbv | .widl => some (·.widl) | .gtid => some gtidOf
  | .supv => some (·.supv) | .tvec => some (·.tvec) | .epc => some (·.epc) | .ecause => some (·.ecause) | .eaddr => some (·.eaddr)
  | .einfo => some (·.einfo) | .estat => some (·.estat) | .reix => some (·.reix) | .wins => some (·.wins)
  | .dgx => some fun k => BitVec.ofNat 64 k.dgx | .dgy => some fun k => BitVec.ofNat 64 k.dgy
  | .dox => some fun k => BitVec.ofNat 64 k.dox | .doy => some fun k => BitVec.ofNat 64 k.doy
  | _ => none

/-- CSRRD (R46, R47): user and supervisor code read every present CSR into D, and a read changes nothing else. A context CSR gives the
context's own field; COORD gives x, y, die and PKID of the core (R125); DEVCAP the part's word (R5); PMC the core's counter. FPF waits for
the context's vector, matrix and AFADD operations (R137); RCHK is ABSENT on a part without race checking (R6). -/
def Sys2Proof.Claims.CsrReadsGiveTheRegister : Prop :=
  ∀ (n : CsrName) (d : Reg) (s : State), Settled s [d] →
    (n ≠ .rchk ∨ s.rchkPresent = true) → (n = .fpf → fpBusy s s.cur.1 s.cur.2 = false) →
    ∃ v, Runs (.csrrd n d) s (Writes 4 d v s) ∧ v = csrGet s s.cur.1 s.cur.2 n
      ∧ (∀ f, ctxCsr n = some f → v = f s.k)
      ∧ (n = .coord → v = BitVec.ofNat 64 (s.pkid * 2 ^ 29 + dieOf s.cur.1 * 2 ^ 25 + s.cur.1))
      ∧ (n = .devcap → v = s.devcap)
      ∧ ∀ i, n = .pmc i → v = Tbl.read (s.core s.cur.1).pmc i.toNat 0

/-- What a write of a value leaves in the register, for the CSRs of a context and the q4 tables of its core (R116, R136, R137, R143, R145, R353): the
bits that the tables mark RO keep their value, those that read as zero are zero. -/
def Sys2Proof.Claims.written (n : CsrName) (old v : Word) : Option Word :=
  match n with
  | .fpc => some ((v &&& 0x1F8) ||| (if v.toNat % 8 = 0 ∨ v.toNat % 8 ≥ 6 then old &&& 7 else v &&& 7))
  | .fpf => some (v &&& 0x3F)
  | .nbv => some (if v.toNat % 4 = 0 then old else v &&& 3)
  | .qtlo | .qthi => some v
  | .tvec | .epc => some (v &&& 0x3FFFC)
  | .ecause => some (v &&& 0xFF)
  | .eaddr | .einfo => some v
  | .estat => some ((v &&& 0x7FFFFD) ||| (old &&& 0x800002))
  | .reix => some (v &&& 0xFFFFFFFF)
  | .wins => some (v &&& 0x1FFE03FF80)
  | _ => none

/-- The value that an access of CSRWR, CSRSW, CSRSET or CSRCLR writes, and the register that takes the old value (R46). -/
def Sys2Proof.Claims.csrForm (i : Instr) : Option (CsrName × Reg × Option Reg × (Word → Word → Word)) :=
  match i with
  | .csrwr n a => some (n, a, none, fun _ v => v)
  | .csrsw n a d => some (n, a, some d, fun _ v => v)
  | .csrset n a d => some (n, a, some d, fun o v => o ||| v)
  | .csrclr n a d => some (n, a, some d, fun o v => o &&& ~~~v)
  | _ => none

/-- A CSR that user code may write, written (R46, R47, R143, R145, R353): D takes the old value, the register becomes the new value under its table,
and no other CSR of the context, q4 table, register, guard or byte changes. FPC and FPF wait for the context's vector, matrix and AFADD
operations, a q4 table for the core's commands that read q4, those of its parked and saved firings too. -/
def Obligations.CsrWritesFollowTheirTable : Prop :=
  ∀ (i : Instr) (n : CsrName) (a : Reg) (d : Option Reg) (f : Word → Word → Word) (w : Word) (s : State),
    csrForm i = some (n, a, d, f) → Settled s (d.toList ++ [a]) →
    let old := csrGet s s.cur.1 s.cur.2 n
    let q4 := tableBusy s (bankCore s s.cur.1 s.cur.2)
    (written n old (f old (rd s.k a)) = some w →
      (n = .fpc ∨ n = .fpf → fpBusy s s.cur.1 s.cur.2 = false) → (n = .qtlo ∨ n = .qthi → q4 = false) →
      Runs i s fun t => csrGet t s.cur.1 s.cur.2 n = w ∧ (∀ m g, ctxCsr m = some g → m ≠ n → g t.k = g s.k)
        ∧ (∀ m, m = .qtlo ∨ m = .qthi → m ≠ n → csrGet t s.cur.1 s.cur.2 m = csrGet s s.cur.1 s.cur.2 m)
        ∧ (∀ r, d = some r → rd t.k r = if r = 0 then 0 else old) ∧ RegsKept s t d.toList ∧ GuardsKept s t []
        ∧ t.k.pc = nextPc s.k 4 ∧ OthersKept s t ∧ BytesKept s t)
    ∧ (n = .fpc ∨ n = .fpf → fpBusy s s.cur.1 s.cur.2 = true → Runs i s (Waits s))
    ∧ (n = .qtlo ∨ n = .qthi → q4 = true → Runs i s (Waits s))

/-- CSRs that user code may not write (R47, R125): the access raises PRIV with its word and changes nothing. -/
def Sys2Proof.Claims.PrivilegedCsrWritesRaisePriv : Prop :=
  ∀ (i : Instr) (n : CsrName) (a : Reg) (d : Option Reg) (f : Word → Word → Word) (s : State),
    csrForm i = some (n, a, d, f) → (csrConst n = true ∨ csrPriv n = true) → isSuper s s.k = false →
    Runs i s (Parks { cause := .priv, einfo := BitVec.ofNat 64 ((encode i).headD 0) } s)

/-- The machine CSRs written by supervisor code (R60, R220, R342, R344, R380): MIGTH clears the migration counts, AGESH and PCAP keep their
field, PCAP between 500 and the part's design power, a PMC takes any value, and a PMCSEL code above 0x11 stores 0. -/
def Sys2Proof.Claims.SupervisorCsrWritesReachTheMachine : Prop :=
  ∀ (a : Reg) (s : State), Settled s [a] → isSuper s s.k = true →
    let v := rd s.k a
    Runs (.csrwr .migth a) s (fun t => t.migth = v.toNat % 2 ^ 16 ∧ t.migCount = [] ∧ t.k.pc = nextPc s.k 4 ∧ RegsKept s t [] ∧ BytesKept s t)
    ∧ Runs (.csrwr .agesh a) s (fun t => t.agesh = v.toNat % 32 ∧ t.k.pc = nextPc s.k 4 ∧ RegsKept s t [] ∧ BytesKept s t)
    ∧ Runs (.csrwr .pcap a) s (fun t => t.pcap = Min.min (Max.max (v.toNat % 2 ^ 16) 500) s.designPower ∧ t.k.pc = nextPc s.k 4
        ∧ RegsKept s t [] ∧ BytesKept s t)
    ∧ (∀ i : Fin 4, ((s.core s.cur.1).pmcsel.toNat / 2 ^ 37 % 2 = 1) → Runs (.csrwr (.pmc i) a) s (fun t =>
        Tbl.read (t.core s.cur.1).pmc i.val 0 = v ∧ t.k.pc = nextPc s.k 4 ∧ RegsKept s t [] ∧ BytesKept s t))
    ∧ Runs (.csrwr .pmcsel a) s (fun t => t.k.pc = nextPc s.k 4 ∧ RegsKept s t [] ∧ BytesKept s t
        ∧ (t.core s.cur.1).pmcsel.toNat / 2 ^ 32 = v.toNat / 2 ^ 32 % 2 ^ 6
        ∧ ∀ i, i < 4 → (t.core s.cur.1).pmcsel.toNat / 2 ^ (8 * i) % 256 = (let e := v.toNat / 2 ^ (8 * i) % 256; if e > 0x11 then 0 else e))
    ∧ (s.rchkPresent = true → Runs (.csrwr .rchk a) s (fun t =>
        t.rchkEn = v.getLsbD 0 ∧ t.races = s.races ∧ (v.getLsbD 1 = true ∨ v.getLsbD 0 ≠ s.rchkEn → t.tags = []) ∧ t.k.pc = nextPc s.k 4
          ∧ RegsKept s t [] ∧ BytesKept s t))

/-- CNTRD reads a performance counter of the core (R381). -/
def Sys2Proof.Claims.CntrdReadsTheCounter : Prop :=
  ∀ (n : BitVec 5) (d : Reg) (s : State), Settled s [d] →
    Runs (.cntrd n d) s (Writes 4 d (Tbl.read (s.core s.cur.1).pmc n.toNat 0) s)

/-- The moves that write a register with behaviour of its own (R61, R75, R137, R143, R220, R344), by the issuing context: each does at once what
the CSR instruction's write does, or stands again among the pending moves while it has to wait; nothing is written on a part without race
checking (R6), or where a page denies the write-back that STSZ begins (R54). -/
def Sys2Proof.Claims.RegisterWriteMovesTakeEffect : Prop :=
  ∀ (s : State) (v : Word),
    Runs (.migthWrite v) s (fun t => t.migth = v.toNat % 2 ^ 16 ∧ t.migCount = [] ∧ BytesKept s t)
    ∧ (s.rchkPresent = true →
        Runs .rchkClr s (fun t => t.tags = [] ∧ t.rchkEn = s.rchkEn ∧ t.races = s.races ∧ BytesKept s t)
        ∧ ∀ en, Runs (.rchkEnWrite en) s fun t => t.rchkEn = en ∧ (en ≠ s.rchkEn → t.tags = []) ∧ (en = s.rchkEn → t = s) ∧ BytesKept s t)
    ∧ (s.rchkPresent = false → (Runs .rchkClr s fun t => t = s) ∧ ∀ en, Runs (.rchkEnWrite en) s fun t => t = s)
    ∧ Runs (.pcapWrite v) s (fun t => t.pcap = Min.min (Max.max (v.toNat % 2 ^ 16) 500) s.designPower ∧ BytesKept s t)
    ∧ (∀ hi, let c := bankCore s s.cur.1 s.cur.2
        (tableBusy s c = false → Runs (.qtableWrite hi v) s fun t =>
          (if hi then (t.core c).qthi = v ∧ (t.core c).qtlo = (s.core c).qtlo else (t.core c).qtlo = v ∧ (t.core c).qthi = (s.core c).qthi)
            ∧ BytesKept s t)
        ∧ (tableBusy s c = true → Runs (.qtableWrite hi v) s fun t => t = s.push (.qtableWrite hi v)))
    ∧ (fpBusy s s.cur.1 s.cur.2 = false →
        (∀ d, Runs (.fpCsrAccess (.readFpf d)) s fun t => rd t.k d = (if d = 0 then 0 else s.k.fpf) ∧ RegsKept s t [d] ∧ t.k.fpf = s.k.fpf ∧ BytesKept s t)
        ∧ Runs (.fpCsrAccess (.writeFpf v)) s (fun t => t.k.fpf = v &&& 0x3F ∧ t.k.fpc = s.k.fpc ∧ RegsKept s t [] ∧ BytesKept s t)
        ∧ Runs (.fpCsrAccess (.writeFpc v)) s (fun t => some t.k.fpc = written .fpc s.k.fpc v ∧ t.k.fpf = s.k.fpf ∧ RegsKept s t [] ∧ BytesKept s t))
    ∧ (fpBusy s s.cur.1 s.cur.2 = true → ∀ acc, Runs (.fpCsrAccess acc) s fun t => t = s.push (.fpCsrAccess acc))
    ∧ ((s.core s.cur.1).windows = [] → (s.core s.cur.1).stash = [] → flushPending s s.cur.1 s.cur.2 0 bankEnd = false →
        Runs (.stszWrite v) s fun t => (t.core s.cur.1).stsz = v.toNat % 4 ∧ (t.core s.cur.1).windows = [] ∧ (t.core s.cur.1).stash = [] ∧ BytesKept s t)
    ∧ (storesThrough s s.cur.1 0 bankEnd = true → Runs (.stszWrite v) s fun t => t = s.push (.stszWrite v))
    ∧ (storesThrough s s.cur.1 0 bankEnd = false →
        let r := flushRights s s.cur.1 s.cur.2 0 bankEnd
        let u := flushSpan r.2 s.cur.1 s.cur.2 0 bankEnd
        (r.1 ≠ none → Runs (.stszWrite v) s fun t => t = r.2)
        ∧ (r.1 = none → flushPending u s.cur.1 s.cur.2 0 bankEnd = true → Runs (.stszWrite v) s fun t => t = u.push (.stszWrite v)))
    ∧ (∀ c x, let q4 := tableBusy s (bankCore s c x)
      (∀ n w, written n (csrGet s c x n) v = some w → (n = .fpc ∨ n = .fpf → fpBusy s c x = false) → (n = .qtlo ∨ n = .qthi → q4 = false) →
        Runs (.registerWrite (.csr c x n) v) s fun t => csrGet t c x n = w ∧ (∀ m g, ctxCsr m = some g → m ≠ n → g (t.ctx c x) = g (s.ctx c x))
          ∧ (∀ d y, (d, y) ≠ (c, x) → t.ctx d y = s.ctx d y) ∧ (t.ctx c x).regs = (s.ctx c x).regs ∧ (t.ctx c x).pc = (s.ctx c x).pc ∧ BytesKept s t)
      ∧ (∀ n, ((n = .fpc ∨ n = .fpf) ∧ fpBusy s c x = true) ∨ ((n = .qtlo ∨ n = .qthi) ∧ q4 = true) →
        Runs (.registerWrite (.csr c x n) v) s fun t => t = s.push (.registerWrite (.csr c x n) v))
      ∧ (∀ n, csrConst n = true ∨ (n = .rchk ∧ s.rchkPresent = false) → Runs (.registerWrite (.csr c x n) v) s fun t => t = s)
      ∧ Runs (.registerWrite (.csr c x .agesh) v) s (fun t => t = { s with agesh := v.toNat % 32 })
      ∧ Runs (.registerWrite (.csr c x .migth) v) s (fun t => t.migth = v.toNat % 2 ^ 16 ∧ t.migCount = [] ∧ BytesKept s t)
      ∧ Runs (.registerWrite (.csr c x .pcap) v) s (fun t => t.pcap = Min.min (Max.max (v.toNat % 2 ^ 16) 500) s.designPower ∧ BytesKept s t)
      ∧ Runs (.registerWrite (.csr c x .dqbase) v) s (fun t => (t.core c).dqbase = v &&& 0xFFF03FFC0 ∧ BytesKept s t ∧ ∀ d, d ≠ c → t.core d = s.core d))

/-! ## Loads, stores and atomic operations (R65, R80-R84, R200, R233-R239, R396) -/

/-- Bytes and signedness of a load's type (R11). -/
def Sys2Proof.Claims.loadType (w : MemW) : Nat × Bool :=
  match w with
  | .s8 => (1, true) | .n8 => (1, false) | .s16 => (2, true) | .n16 => (2, false) | .s32 => (4, true) | .n32 => (4, false) | .d64 => (8, false)
/-- Bytes of a store's type. -/
def Sys2Proof.Claims.storeType (z : StSz) : Nat := match z with | .b => 1 | .h => 2 | .w => 4 | .d => 8

/-- Length, base register, destination, byte offset, type and acquire scope of a load. -/
def Sys2Proof.Claims.loadForm (i : Instr) : Option (Nat × Reg × Reg × Word × MemW × Option Scope) :=
  match i with
  | .ld o w a d => some (4, a, d, BitVec.ofInt 64 (o.toInt * (loadType w).1), w, none)
  | .lsxLoad l => some (12, l.a, l.d, l.off.signExtend 64, l.w, if l.ord = .acq then some l.scope else none)
  | _ => none

/-- Length, base register, source, byte offset, type and release scope of a store. -/
def Sys2Proof.Claims.storeForm (i : Instr) : Option (Nat × Reg × Reg × Word × StSz × Option Scope) :=
  match i with
  | .st o _ z a b => some (4, a, b, BitVec.ofInt 64 (o.toInt * storeType z), z, none)
  | .lsxStore l => some (12, l.a, l.s, l.off.signExtend 64, l.w, if l.ord = .rel then some l.scope else none)
  | _ => none

/-- Nothing of the issuing context is outstanding, its core's table has room, and new names are new. -/
def Sys2Proof.Claims.Idle (s : State) : Prop :=
  s.cur.2 < 16 ∧ opsOf s s.cur.1 s.cur.2 = [] ∧ (∀ o ∈ (s.core s.cur.1).ops, o.id < s.nextId) ∧ (s.core s.cur.1).ops.length < 64
    ∧ bufferUsed s s.cur.1 < 16 ∧ ∀ a ∈ s.awaiting, a.op < s.nextId

/-- The core whose banks the issuing context's local addresses name is plain: on the core's die (R366), with no stash window, no bound ring's record, no word in error, no
stash sharer, no injection, and its memory in canonical form (MemoryStaysCanonical). -/
def Sys2Proof.Claims.PlainBanks (s : State) (b : Nat) : Prop :=
  b = bankCore s s.cur.1 s.cur.2 ∧ dieOf b = dieOf s.cur.1 ∧ (s.core b).windows = [] ∧ (s.core b).bad = [] ∧ (s.core b).soft = [] ∧ (s.core b).rings = [] ∧ (s.core b).dirl = [] ∧ (s.core b).inj.mode ≠ 1 ∧ Memory.wf (s.core b).mem = true

/-- A form-11 address of `n` bytes at offset `lo` of the banks, aligned (R65, R67). -/
def Sys2Proof.Claims.LocalAt (ea : Word) (lo n : Nat) : Prop := ea.toNat = 0xC000000000000000 + lo ∧ lo % n = 0 ∧ lo + n ≤ 0x30000

/-- A release at system scope finds no dirty peer line in the die's cache, and none on its way (R77, R213). -/
def Sys2Proof.Claims.ReleaseFree (s : State) (rel : Option Scope) : Prop :=
  rel = some .sys → peerDirty s (dieOf s.cur.1) = [] ∧ s.sent.any (fun r => r.core == wbCore (dieOf s.cur.1)) = false

/-- The access retires: the PC goes on, and no register, guard, special register or other context changes. -/
def Sys2Proof.Claims.Passes (len : Nat) (s t : State) : Prop :=
  t.k.pc = nextPc s.k len ∧ RegsKept s t [] ∧ GuardsKept s t [] ∧ specials t.k = specials s.k ∧ OthersKept s t

/-- R65, R81, R84: a load of the own banks by LD or LSX retires with its destination outstanding; its reply writes the destination with the
little-endian bytes at the address, extended as the type says, counts one event (R295), counts an acquire in the region number (R216), and
changes no other register and no byte of local or home memory. -/
def Sys2Proof.Claims.LoadThenReplyBindsLocalBytes : Prop :=
  ∀ (i : Instr) (len : Nat) (a d : Reg) (off : Word) (w : MemW) (acq : Option Scope) (s : State) (b lo : Nat),
    loadForm i = some (len, a, d, off, w, acq) → Idle s → PlainBanks s b → LocalAt (rd s.k a + off) lo (loadType w).1 →
    Runs i s fun t => Passes len s t ∧ busyReg (opsOf t t.cur.1 t.cur.2) d = (d != 0) ∧ BytesKept s t
      ∧ Runs (.loadReply s.cur.1 s.nextId) t fun u =>
        rd u.k d = (if d = 0 then 0 else
          let v := leNat (readBytes (s.core b).mem lo (loadType w).1)
          if (loadType w).2 then (BitVec.ofNat (8 * (loadType w).1) v).signExtend 64 else BitVec.ofNat 64 v)
        ∧ RegsKept s u [d] ∧ GuardsKept s u [] ∧ opsOf u u.cur.1 u.cur.2 = [] ∧ u.k.pc = t.k.pc ∧ u.k.events = Min.min 255 (s.k.events + 1)
        ∧ u.k.region = t.k.region + BitVec.ofNat 32 (bitN acq.isSome)
        ∧ (∀ c x, readByte (u.core c).mem x = readByte (s.core c).mem x) ∧ ∀ x, readByte u.mem x = readByte s.mem x

/-- R65, R81, R84, R205, R396: a store to the own banks by ST or LSX retires with every byte as it was; performed, it has written the low bytes of
its source at the address, and no other byte of any memory, no register and no guard; it is then no longer in flight. -/
def Sys2Proof.Claims.StoreThenPerformWritesItsBytes : Prop :=
  ∀ (i : Instr) (len : Nat) (a r : Reg) (off : Word) (z : StSz) (rel : Option Scope) (s : State) (b lo : Nat),
    storeForm i = some (len, a, r, off, z, rel) → Idle s → PlainBanks s b → LocalAt (rd s.k a + off) lo (storeType z) → ReleaseFree s rel →
    Runs i s fun t => Passes len s t ∧ BytesKept s t
      ∧ Runs (.storePerform s.cur.1 s.nextId) t fun u =>
        readBytes (u.core b).mem lo (storeType z) = natLE (storeType z) (rd s.k r).toNat
        ∧ (∀ x, (x < lo ∨ lo + storeType z ≤ x) → readByte (u.core b).mem x = readByte (s.core b).mem x)
        ∧ (∀ c, c ≠ b → ∀ x, readByte (u.core c).mem x = readByte (s.core c).mem x) ∧ (∀ x, readByte u.mem x = readByte s.mem x)
        ∧ (∀ e, (u.die e).sectors = (s.die e).sectors) ∧ RegsKept s u [] ∧ GuardsKept s u [] ∧ opsOf u u.cur.1 u.cur.2 = []
        ∧ u.k.region = t.k.region + BitVec.ofNat 32 (bitN rel.isSome)

/-- The AMOs (R233): the fields of the word, and the new value of `w` bits that old value, operand and comparand give; none where ACAS
fails. AFADD adds in f64 or f32 with RNE (R234). -/
def Sys2Proof.Claims.amoForm (i : Instr) : Option (AmoF × (Nat → Nat → Nat → Nat → Option Nat)) :=
  match i with
  | .aadd m => some (m, fun w old b _ => some ((old + b) % 2 ^ w))
  | .aand m => some (m, fun _ old b _ => some (old &&& b))
  | .aor m => some (m, fun _ old b _ => some (old ||| b))
  | .axor m => some (m, fun _ old b _ => some (old ^^^ b))
  | .amin m => some (m, fun w old b _ => some (if (BitVec.ofNat w old).toInt ≤ (BitVec.ofNat w b).toInt then old else b))
  | .amax m => some (m, fun w old b _ => some (if (BitVec.ofNat w b).toInt ≤ (BitVec.ofNat w old).toInt then old else b))
  | .aminn m => some (m, fun _ old b _ => some (if old ≤ b then old else b))
  | .amaxn m => some (m, fun _ old b _ => some (if b ≤ old then old else b))
  | .aswap m => some (m, fun _ _ b _ => some b)
  | .acas m => some (m, fun _ old b c => if old = c then some b else none)
  | .afadd m => some (m, fun w old b _ => some (if w = 64 then (roundIeee ⟨11, 52⟩ .rne (numAdd .rne (decodeIeee ⟨11, 52⟩ old) (decodeIeee ⟨11, 52⟩ b)).1).1
      else (roundIeee ⟨8, 23⟩ .rne (numAdd .rne (decodeIeee ⟨8, 23⟩ old) (decodeIeee ⟨8, 23⟩ b)).1).1))
  | _ => none

/-- R233, R234, R236, R239: an AMO on the own banks retires with its destination outstanding; performed, it leaves the new value at the address
in one step, no other byte changed, the old value zero-extended in its destination, an acquire and a release counted as ORD says, and one
event counted. AFADD alone sets flags. -/
def Sys2Proof.Claims.AmoReplacesItsLocationInOneStep : Prop :=
  ∀ (i : Instr) (m : AmoF) (f : Nat → Nat → Nat → Nat → Option Nat) (s : State) (b lo : Nat), amoForm i = some (m, f) → Idle s → PlainBanks s b →
    let n := if m.sz then 8 else 4
    LocalAt (rd s.k m.a + m.off.signExtend 64) lo n → ReleaseFree s (if m.ord = .rel ∨ m.ord = .acqrel then some m.scope else none) →
    let old := leNat (readBytes (s.core b).mem lo n)
    let new := (f (8 * n) old ((rd s.k m.b).toNat % 2 ^ (8 * n)) ((rd s.k m.c).toNat % 2 ^ (8 * n))).getD old
    Runs i s fun t => Passes 12 s t ∧ busyReg (opsOf t t.cur.1 t.cur.2) m.d = (m.d != 0) ∧ BytesKept s t
      ∧ Runs (.amoPerform s.cur.1 s.nextId) t fun u =>
        rd u.k m.d = (if m.d = 0 then 0 else BitVec.ofNat 64 old) ∧ RegsKept s u [m.d] ∧ GuardsKept s u [] ∧ opsOf u u.cur.1 u.cur.2 = []
        ∧ leNat (readBytes (u.core b).mem lo n) = new
        ∧ (∀ x, (x < lo ∨ lo + n ≤ x) → readByte (u.core b).mem x = readByte (s.core b).mem x)
        ∧ (∀ c, c ≠ b → ∀ x, readByte (u.core c).mem x = readByte (s.core c).mem x) ∧ (∀ x, readByte u.mem x = readByte s.mem x)
        ∧ u.k.events = Min.min 255 (s.k.events + 1) ∧ ((∀ e, i ≠ .afadd e) → u.k.fpf = s.k.fpf)
        ∧ u.k.region = t.k.region + BitVec.ofNat 32 (bitN (m.ord == .acq) + bitN (m.ord == .rel) + 2 * bitN (m.ord == .acqrel))

/-- Address, bytes, registers, and what an access reads and writes. -/
def Sys2Proof.Claims.accessForm (i : Instr) (k : Ctx) : Option (Word × Nat × List Reg × Bool × Bool) :=
  match loadForm i, storeForm i, amoForm i with
  | some (_, a, d, off, w, _), _, _ => some (rd k a + off, (loadType w).1, [d, a], true, false)
  | _, some (_, a, r, off, z, _), _ => some (rd k a + off, storeType z, [a, r], false, true)
  | _, _, some (m, _) => some (rd k m.a + m.off.signExtend 64, if m.sz then 8 else 4, [m.d, m.a, m.b, m.c], true, true)
  | _, _, _ => none

/-- R68, R80, R81, R233, R237: an access whose address is no multiple of its size parks with ALIGN and the address in EADDR; an aligned one whose
address, translation or permission fails parks with that cause, unless the fault table is full, when it waits (R58); and while an
acquire of the context or a range function is outstanding, or eight loads and AMOs are, it waits (R84, R88, R200). Nothing changes. -/
def Sys2Proof.Claims.AccessFaultsAndWaitsChangeNothing : Prop :=
  ∀ (i : Instr) (ea : Word) (n : Nat) (rs : List Reg) (r w : Bool) (s : State), accessForm i s.k = some (ea, n, rs, r, w) → Settled s rs →
    let ops := opsOf s s.cur.1 s.cur.2
    let held := acqPending ops = true ∨ rangePending ops = true ∨ (r = true ∧ loadsOut ops ≥ 8)
    let free := ¬ held ∧ (s.core s.cur.1).ops.length < 64 ∧ bufferUsed s s.cur.1 < 16 ∧ coveredBy s s.cur.1 s.cur.2 ops ea n = false
    (ea.toNat % n ≠ 0 → Runs i s (Parks { cause := .align, eaddr := ea } s))
    ∧ (ea.toNat % n = 0 → held → Runs i s (Waits s))
    ∧ (ea.toNat % n = 0 → free → ∀ p, (access s s.cur.1 s.cur.2 ea r w).1 = .error p →
      Runs i s (if faultsFull s (domOf s.k) p = true then Waits s else Parks p s))

/-- R65, R54: what an address names. Form 11 names the own banks; form 01 an existing core of this package; an absent core, a reserved bit or, for
user code, the control window is LADDR; form 00 with bits [61:57] set is XLATE; a page without the right that the access needs is PERM, and
one without U is PERM to user code; a read of a multicast group is LADDR (R253). -/
def Sys2Proof.Claims.AddressFormsResolve : Prop :=
  ∀ (s : State) (c x : Nat) (ea : Word) (r w : Bool),
    let b := bankCore s c x
    let off := ea.toNat % 2 ^ 18
    let user := isSuper s (s.ctx c x) = false
    let got := (access s c x ea r w).1
    (field ea 63 62 = 3 → field ea 61 18 = 0 → (user → off < 0x30000) → windowAt s b off = none → got = .ok { place := .loc b off })
    ∧ (field ea 63 62 = 3 → (field ea 61 18 ≠ 0 ∨ (user ∧ 0x30000 ≤ off)) → got = .error { cause := .laddr, eaddr := ea })
    ∧ (field ea 63 62 = 1 → field ea 36 18 = 0 → (field ea 61 50 = 0 ∨ field ea 61 50 = s.pkid) →
      let t := field ea 42 37 * 128 + field ea 49 43
      (s.coreExists (field ea 49 43) (field ea 42 37) = true → (user → off < 0x30000) → (t = b → windowAt s t off = none) →
        got = .ok { place := .loc t off })
      ∧ (s.coreExists (field ea 49 43) (field ea 42 37) = false ∨ (user ∧ 0x30000 ≤ off) → got = .error { cause := .laddr, eaddr := ea }))
    ∧ (field ea 63 62 = 1 ∨ field ea 63 62 = 2 → field ea 36 18 ≠ 0 → got = .error { cause := .laddr, eaddr := ea })
    ∧ (field ea 63 62 = 0 → field ea 61 57 ≠ 0 → got = .error { cause := .xlate, eaddr := ea })
    ∧ (field ea 63 62 = 0 → field ea 61 57 = 0 → faulted s (domOf (s.ctx c x)) (ea.toNat / 2 ^ 16) = false →
      ∀ leaf, tlbHit s c (domOf (s.ctx c x)) ea.toNat = some (leaf, false) →
        let ok := (user → leaf.getLsbD 3 = true) ∧ (r = true → leaf.getLsbD 1 = true) ∧ (w = true → leaf.getLsbD 2 = true)
        (r = true → field leaf 19 8 ≥ 0xF00 → got = .error { cause := .laddr, eaddr := ea })
        ∧ ((r = true → field leaf 19 8 < 0xF00) → ¬ ok → got = .error { cause := .perm, eaddr := ea })
        ∧ (ok → field leaf 19 8 = 0 → got.toOption.map (·.place) = some (.dev (field leaf 23 20 * 2 ^ 52 + field leaf 63 28 * 2 ^ 16 + ea.toNat % 2 ^ 16))))

/-! ## Stash, die cache and range functions (R72-R79, R85-R90) -/

/-- The first offset of the stash that STSZ's size code gives (R75). -/
def Sys2Proof.Claims.stashFrom (sz : Nat) : Nat := if sz = 0 then 0x30000 else if sz = 1 then 0x2C000 else if sz = 2 then 0x28000 else 0x20000

/-- Whether a source address names the issuing core's own banks (R85). -/
def Sys2Proof.Claims.ownSource (s : State) (src : Word) : Prop :=
  field src 63 62 = 3 ∨ (field src 63 62 ≠ 0 ∧ ∃ off, formOf s s.cur.1 s.cur.1 false false src = .ok (.loc s.cur.1 off))

/-- STMAP, STUNMAP and STFLUSH (R85-R87): what each refuses, in R85's order, with its reason in EINFO; a new window is added; a window whose
sectors are clean, with nothing of it outstanding, goes with its stash sectors; a flush leaves no dirty sector, waits while a
write-back is outstanding, and parks where a page denies the write-back (R54). -/
def Sys2Proof.Claims.StashFunctionsKeepTheWindows : Prop :=
  ∀ (b a d : Reg) (s : State),
    let c := s.cur.1
    let win := rd s.k a
    let src := rd s.k b
    let len := (rd s.k d).toNat
    let off := win.toNat % 2 ^ 18
    let why := fun (n : Nat) => ({ cause := .laddr, eaddr := win, einfo := BitVec.ofNat 64 n } : Stop)
    let misaligned := win.toNat % 256 ≠ 0 ∨ src.toNat % 256 ≠ 0 ∨ len % 256 ≠ 0 ∨ len = 0
    let outside := win.toNat / 2 ^ 18 ≠ 0 ∨ off < stashFrom (s.core c).stsz ∨ off + len > 0x30000
    let taken := ∃ w ∈ (s.core c).windows, w.off < off + len ∧ off < w.off + w.len
    (Settled s [b, a, d] →
      (misaligned → Runs (.stmap b a d) s (Parks { cause := .align, eaddr := win } s))
      ∧ (¬ misaligned → ownSource s src → Runs (.stmap b a d) s (Parks { cause := .laddr, eaddr := src } s))
      ∧ (¬ misaligned → ¬ ownSource s src → outside → Runs (.stmap b a d) s (Parks (why 1) s))
      ∧ (¬ misaligned → ¬ ownSource s src → ¬ outside → taken → Runs (.stmap b a d) s (Parks (why 2) s))
      ∧ (¬ misaligned → ¬ ownSource s src → ¬ outside → ¬ taken → (s.core c).windows.length ≥ 8 → Runs (.stmap b a d) s (Parks (why 3) s))
      ∧ (¬ misaligned → ¬ ownSource s src → ¬ outside → ¬ taken → (s.core c).windows.length < 8 → Runs (.stmap b a d) s fun t =>
        Quietly 4 s t ∧ (t.core c).windows = (s.core c).windows ++ [⟨off, len, src⟩] ∧ (t.core c).stash = (s.core c).stash))
    ∧ (Settled s [a] →
      let clean := fun (o n : Nat) => (∀ e ∈ (s.core c).stash, o ≤ e.1 * 64 → e.1 * 64 < o + n → e.2.dirty = false)
      (windowFrom s c win = none → Runs (.stunmap a) s (Parks (why 4) s) ∧ (a ≠ 0 → Runs (.stflush a) s (Parks (why 4) s)))
      ∧ (∀ w, windowFrom s c win = some w → clean w.off w.len → flushPending s c s.cur.2 w.off w.len = false →
        (Runs (.stunmap a) s fun t => Quietly 4 s t ∧ (t.core c).windows = (s.core c).windows.filter (· != w)
          ∧ (t.core c).stash = (s.core c).stash.filter fun e => !(w.off ≤ e.1 * 64 && e.1 * 64 < w.off + w.len))
        ∧ (a ≠ 0 → Runs (.stflush a) s (Quietly 4 s)))
      ∧ (∀ w, windowFrom s c win = some w → clean w.off w.len → flushPending s c s.cur.2 w.off w.len = true →
        Runs (.stunmap a) s (Waits s) ∧ (a ≠ 0 → Runs (.stflush a) s (Waits s))))
    ∧ (storesThrough s c 0 0x30000 = false →
        let r := flushRights s c s.cur.2 0 0x30000
        (∀ p, r.1 = some p → p.page = none → Runs (.stflush 0) s (Parks p s))
        ∧ (r.1 = none → flushPending (flushSpan r.2 c s.cur.2 0 0x30000) c s.cur.2 0 0x30000 = false → Runs (.stflush 0) s fun t =>
        t.k.pc = nextPc s.k 4 ∧ RegsKept s t [] ∧ GuardsKept s t [] ∧ specials t.k = specials s.k ∧ (∀ x e, readByte (t.core x).mem e = readByte (s.core x).mem e)
          ∧ ((∀ e ∈ (s.core c).stash, e.1 * 64 < 0x30000) → (s.core c).stash.Pairwise (fun e f => e.1 ≠ f.1) →
            ∀ e ∈ (t.core c).stash, e.2.dirty = false)))

/-- STASH_FILL (R76, R78): without a window nothing happens; a sector that is present stays as it is; an absent one whose source is another core's
bank comes to hold that bank's 64 bytes, clean, and the source's home directory points to the core. -/
def Sys2Proof.Claims.StashFillBringsTheSourceSector : Prop :=
  ∀ (c off : Nat) (s : State),
    (windowAt s c off = none → Runs (.stashFill c off) s fun t => t = s)
    ∧ ∀ (w : Window) (tg : Target) (h o : Nat), windowAt s c off = some w → access s c s.cur.2 (localAddr off) true false = (.ok tg, s) → bankCore s c s.cur.2 = c →
      tg.place = .loc h o → h ≠ c → o % 64 = off % 64 → o < 0x30000 → (s.core h).bad = [] → (s.core h).rings = [] → (s.core h).dirl = [] → dieCut s (dieOf h) = false → memoriesCanonical s →
      ((Tbl.find (s.core c).stash (off / 64)).isSome = true → Runs (.stashFill c off) s fun t => t = s)
      ∧ (Tbl.find (s.core c).stash (off / 64) = none → Runs (.stashFill c off) s fun t =>
        readBytes (t.core c).mem (off / 64 * 64) 64 = readBytes (s.core h).mem (o / 64 * 64) 64
        ∧ (∀ x, (x < off / 64 * 64 ∨ off / 64 * 64 + 64 ≤ x) → readByte (t.core c).mem x = readByte (s.core c).mem x)
        ∧ (∀ e, e ≠ c → (t.core e).mem = (s.core e).mem) ∧ t.mem = s.mem
        ∧ (Tbl.find (t.core c).stash (off / 64)).map (·.dirty) = some false ∧ (Tbl.read (t.core h).dirl (o / 256) {}).ptrs = [c])

/-- LASTUSE and DISCARD (R88, R89): an empty range retires with nothing done; a DISCARD of no whole sectors is ALIGN; a range that begins no
background work retires; another is handed over as one operation, to be performed after the context's earlier accesses. -/
def Sys2Proof.Claims.RangeFunctionsAreHandedOver : Prop :=
  ∀ (b a : Reg) (s : State), Settled s [b, a] →
    let ea := rd s.k a
    let n := (rd s.k b).toNat
    let c := s.cur.1
    let held := acqPending (opsOf s c s.cur.2) = true ∨ ¬ (s.core c).ops.length < 64
    (n = 0 → Runs (.lastuse b a) s (OnlyRetires 4 s) ∧ Runs (.discard b a) s (OnlyRetires 4 s))
    ∧ (n ≠ 0 → (ea.toNat % 64 ≠ 0 ∨ n % 64 ≠ 0) → Runs (.discard b a) s (Parks { cause := .align, eaddr := ea } s))
    ∧ ∀ disc : Bool, (disc = true → ea.toNat % 64 = 0 ∧ n % 64 = 0) → n ≠ 0 →
      let i : Instr := if disc then .discard b a else .lastuse b a
      let ts := (rangeTargets s c s.cur.2 (!disc) disc ((sectorsOf ea.toNat n).map fun x => BitVec.ofNat 64 x)).1
      (held → Runs i s (Waits s))
      ∧ (¬ held → ts = .ok [] → Runs i s fun t => Quietly 4 s t ∧ (t.core c).ops = (s.core c).ops)
      ∧ (¬ held → ∀ l, ts = .ok l → l ≠ [] → Runs i s fun t => Quietly 4 s t ∧ Event.backgroundRangeOperation c s.nextId ∈ t.events
        ∧ ∃ o, (t.core c).ops = (s.core c).ops ++ [o] ∧ o.id = s.nextId ∧ o.ctx = s.cur.2 ∧ o.body = .range disc l)

/-- BACKGROUND_RANGE_OPERATION (R88-R90): it waits for the context's earlier accesses; LASTUSE's leaves every byte and marks the lines first to
evict in every die that holds them; DISCARD's waits for lines that owe acknowledgements or are being granted, and leaves home memory, and each cached sector holds what it held or what its home holds. -/
def Sys2Proof.Claims.BackgroundRangeKeepsOrForgetsTheNewest : Prop :=
  ∀ (c id : Nat) (o : Op) (disc : Bool) (ts : List Target) (s : State), opById s c id = some o → o.body = .range disc ts →
    let before := (mates s c o).any fun q => q.id < id && q.status == 0 && (isLoad q || isStore q || isAmo q)
    (before = true → Runs (.backgroundRangeOperation c id) s fun t => t = s.push (.backgroundRangeOperation c id))
    ∧ (disc = true → ts.any (discardWaits s) = true → Runs (.backgroundRangeOperation c id) s fun t => t = s.push (.backgroundRangeOperation c id))
    ∧ (before = false → (disc = true → ts.any (discardWaits s) = false) → Runs (.backgroundRangeOperation c id) s fun t => opById t c id = none ∧ t.mem = s.mem
        ∧ (∀ e, (t.core e).mem = (s.core e).mem)
        ∧ (disc = false → (∀ e, (t.die e).sectors = (s.die e).sectors)
          ∧ ∀ tg ∈ ts, ∀ x e, tg.place = .dev x → e < 4 → x / 256 ∈ (s.die e).lru → x / 256 ∈ (t.die e).first)
        ∧ (disc = true → ∀ e sec x, sectorAt s e sec = some x → ∃ y, sectorAt t e sec = some y
          ∧ (y.bytes = x.bytes ∨ y.bytes = readBytes s.mem (sec * 64) 64)))

/-! ## Translation, coherence, resets and the host's memory (R48-R64, R72-R79, R222-R230, R386-R391) -/

/-- TLBINV and PAGE_WALK (R52, R56, R58, R59): a supervisor's TLBINV of an address beyond 57 bits is XLATE; it waits for the context's earlier
stores and for accesses translated through the page; then every translation and fault-table entry of the domain for the page (all of them
for g0) is gone, and those of other domains stay. A walk of a domain's page that no TLB holds caches the leaf that the tables give, and
changes no memory. -/
def Sys2Proof.Claims.TranslationsAreFilledAndDropped : Prop :=
  (∀ (a : Reg) (s : State), Settled s [a] → isSuper s s.k = true →
    let g := domOf s.k
    let v := rd s.k a
    let va := if a = 0 then none else some (v.toNat % 2 ^ 57)
    let early := (opsOf s s.cur.1 s.cur.2).any fun o => isStore o && o.status == 0 && !doneAt o .pkg
    (a ≠ 0 → v.toNat / 2 ^ 57 ≠ 0 → Runs (.tlbinv a) s (Parks { cause := .xlate, eaddr := v } s))
    ∧ ((a = 0 ∨ v.toNat / 2 ^ 57 = 0) → early = true → Runs (.tlbinv a) s (Waits s))
    ∧ ((a = 0 ∨ v.toNat / 2 ^ 57 = 0) → early = false → (∀ p ∈ (s.dom g).pkgs, p = s.pkid) → translatedOut s g (namedPage s g va) = false →
      s.sent = [] → Runs (.tlbinv a) s fun t =>
        t.k.pc = nextPc s.k 4 ∧ RegsKept s t [] ∧ BytesKept s t
        ∧ (∀ e ∈ t.tlb, e ∈ s.tlb ∧ ¬ (e.dom = g ∧ (a = 0 ∨ e.page = v.toNat / 2 ^ 16))) ∧ (∀ e ∈ s.tlb, e.dom ≠ g → e ∈ t.tlb)
        ∧ ∀ f ∈ t.faults, f ∈ s.faults ∧ ¬ (f.dom = g ∧ (a = 0 ∨ f.page = v.toNat / 2 ^ 16))))
  ∧ ∀ (c g va : Nat) (d : Dom) (s : State), s.dom? g = some d → va < 2 ^ 57 →
    ((tlbHit s c g va).isSome = true → Runs (.pageWalk c g va) s fun t => t = s)
    ∧ (tlbHit s c g va = none → ∀ e big, walk s d.root va = some (e, big) → Runs (.pageWalk c g va) s fun t =>
      tlbHit t c g va = some (e, big) ∧ t.faults = s.faults ∧ BytesKept s t)
    ∧ (tlbHit s c g va = none → walk s d.root va = none → Runs (.pageWalk c g va) s fun t => t.tlb = s.tlb ∧ t.faults = s.faults ∧ BytesKept s t)

/-- The byte address of a frame. -/
def Sys2Proof.Claims.frameAt (home pfn : Nat) : Nat := home * 2 ^ 52 + pfn * 65536

/-- No line of a page stands in the directory. -/
def Sys2Proof.Claims.pageUncached (s : State) (base : Nat) : Prop := ∀ l ∈ Tbl.keys s.dir, ¬ (base ≤ l * 256 ∧ l * 256 < base + 65536)

/-- Page moves (R61-R64): a page whose die's counter has reached MIGTH takes the oldest frame of that die's pool, and nothing starts from an
empty pool; at its end the frame holds the page's bytes, the leaf names it, no TLB holds the old leaf, the old frame is in its home's pool, and a
move whose leaf has changed leaves memory and gives its frame back; a page of another package is asked for with a MIG packet; POOL_PUSH
adds a frame. -/
def Sys2Proof.Claims.PagesMoveToTheDieThatUsesThem : Prop :=
  (∀ (g va d at' frame : Nat) (q : Dom) (e : Word) (rest : List Nat) (s : State), s.dom? g = some q → va < 2 ^ 57 →
    ((s.die d).pool = [] → Runs (.migrationStart g va d) s fun t => t = s)
    ∧ (walk s q.root va = some (e, false) → leafAddr s q.root va = some at' → (s.die d).pool = frame :: rest → e.getLsbD 26 = true →
      pteMode e = 0 → ptePeer e = 0 → pteHome e ≠ d → s.migth ≠ 0 →
      s.migth ≤ Tbl.read s.migCount ((g * 2 ^ 48 + va / 65536) * 4 + d) 0 → moving s (frameAt (pteHome e) (ptePfn e)) = false →
      (s.die d).isolated = false → (s.die d).reset = none →
      Runs (.migrationStart g va d) s fun t => (t.die d).pool = rest ∧ BytesKept s t ∧ ∃ m, t.moves = s.moves ++ [m]
        ∧ (m.dom, m.va, m.leafAddr, m.leaf) = (g, va / 65536 * 65536, at', e) ∧ (m.oldPfn, m.oldHome, m.newPfn, m.newHome) = (ptePfn e, pteHome e, frame, d)
        ∧ Event.migrationComplete m.id ∈ t.events ∧ moving t (frameAt (pteHome e) (ptePfn e)) = true))
  ∧ (∀ (id : Nat) (m : Move) (s : State), s.moves.find? (fun m => m.id == id && m.oldPeer == 0 && m.newPeer == 0) = some m →
    let old := frameAt m.oldHome m.oldPfn
    let new := frameAt m.newHome m.newPfn
    (readEntry s m.leafAddr ≠ m.leaf → Runs (.migrationComplete id) s fun t => t.mem = s.mem ∧ (∀ n ∈ t.moves, n.id ≠ id)
      ∧ (m.newHome < 4 → (s.die m.newHome).pool.length < 256 → m.newPfn ∈ (t.die m.newHome).pool))
    ∧ (readEntry s m.leafAddr = m.leaf → Memory.wf s.mem = true → pageUncached s old → pageUncached s new → old ≠ new → old % 65536 = 0 → new % 65536 = 0 →
      dirEntry s (m.leafAddr / 256) = {} → m.leafAddr % 8 = 0 → m.leafAddr / 65536 ≠ new / 65536 → m.leafAddr / 65536 ≠ old / 65536 →
      Runs (.migrationComplete id) s fun t =>
        (∀ o, o < 65536 → readByte t.mem (new + o) = readByte s.mem (old + o))
        ∧ (let l := leWord (readBytes t.mem m.leafAddr 8)
           ptePfn l = m.newPfn % 2 ^ 36 ∧ pteHome l = m.newHome % 16 ∧ ptePeer l = 0 ∧ pteMode l = 0 ∧ ∀ b, b < 28 → b ∉ [6, 7, 8, 9, 10, 11, 12, 13, 14, 15, 16, 17, 18, 19, 20, 21, 22, 23] →
             l.getLsbD b = m.leaf.getLsbD b)
        ∧ (∀ e ∈ t.tlb, ¬ (e.dom = m.dom ∧ e.page = m.va / 65536)) ∧ (∀ n ∈ t.moves, n.id ≠ id)
        ∧ (m.oldHome < 4 → (s.die m.oldHome).pool.length < 256 → m.oldPfn ∈ (t.die m.oldHome).pool)))
  ∧ (∀ (g va d f at' : Nat) (q : Dom) (e : Word) (s : State), s.dom? g = some q → va < 2 ^ 57 → va % 65536 = 0 →
      (∀ m ∈ s.moves, ¬ (m.dom = g ∧ m.va = va ∧ m.oldPeer ≠ 0)) → walk s q.root va = some (e, false) → leafAddr s q.root va = some at' →
      poolDie s = some (d, f) → pteMode e = 3 → ptePeer e ≠ 0 → ptePeer e ≠ s.pkid → ptePeer e < 0xF00 → s.migth ≠ 0 →
      s.migth ≤ Tbl.read s.migPage (ptePeer e * 2 ^ 64 + (frameAt (pteHome e) (ptePfn e)) / 65536) 0 → unreachable s = none →
      lineResent s (ptePeer e) (frameAt (pteHome e) (ptePfn e)) = false →
      Runs (.crossPackageMigration g va []) s fun t => BytesKept s t ∧ ∃ m p, t.moves = s.moves ++ [m] ∧ m.oldPeer = ptePeer e ∧ m.newPfn = f
        ∧ t.out = s.out ++ [.packet p] ∧ p.op = 0x08 ∧ p.dst = ptePeer e ∧ p.faddr = frameAt (pteHome e) (ptePfn e))
  ∧ ∀ (d frame : Nat) (s : State), d < 4 → frame < 2 ^ 36 → Runs (.poolPush d frame) s fun t =>
      (t.die d).pool = (if (s.die d).pool.length < 256 then (s.die d).pool ++ [frame] else (s.die d).pool) ∧ BytesKept s t

/-- The hub directory and the die caches (R72, R73, R78, R79, R222-R227): an evicted line leaves its die, its dirty sectors at their home; a store
that its die has accepted is performed once the die owns the line, every other holder being owed an invalidation, at once for G=0 and after
every acknowledgement for G=1; an acknowledgement removes the die's copy; a resend counts; and the home directory of local lines
records a fifth sharer or answers it uncached, and forgets every sharer before the write that waits. -/
def Obligations.DirectoryKeepsOneOwner : Prop :=
  (∀ (d line : Nat) (s : State), memoriesCanonical s → (∀ e x, sectorAt s d e = some x → x.bytes.length = 64) → isOwn (line * 256 + 255) = true →
    ((s.die d).accepted.any (fun a => a.addr / 256 == line) = true → Runs (.dieCacheEvict d line) s fun t => t = s.push (.dieCacheEvict d line))
    ∧ ((s.die d).accepted.any (fun a => a.addr / 256 == line) = false → Runs (.dieCacheEvict d line) s fun t =>
      (∀ e, e / 4 = line → sectorAt t d e = none) ∧ (∀ e, e / 4 ≠ line → sectorAt t d e = sectorAt s d e)
      ∧ (∀ e x, e / 4 = line → sectorAt s d e = some x → readBytes t.mem (e * 64) 64 = if x.dirty then x.bytes else readBytes s.mem (e * 64) 64)
      ∧ (∀ a, a / 256 ≠ line → readByte t.mem a = readByte s.mem a)
      ∧ (dirEntry t line).owner ≠ some d ∧ d ∉ (dirEntry t line).sharers))
  ∧ (∀ (d line id : Nat) (a : Accepted) (s : State), (s.die d).accepted.find? (fun a => a.addr / 256 == line) = some a → a.op = id →
    homeLost s a.addr = false → dieCut s d = false → homeBlocked s a.addr = false → (homeOf a.addr = 8 → Config.hostFails s.free = false) → victim s d line = none → moving s a.addr = false → s.awaiting.all (fun q => q.line != line) = true →
    (dirEntry s line).owner = none → (dirEntry s line).owed = [] → sectorAt s d (a.addr / 64) = none → poisoned s a.addr = false → isOwn a.addr = true →
    s.hinj.mode ≠ 1 → s.replay.rstat ≠ 2 →
    let others := (dirEntry s line).sharers.filter (· != d)
    Runs (.ownershipRequest d line id) s fun t =>
      (∀ h ∈ others, Event.invalidationAck h line ∈ t.events ∧ (h, 1, s.time) ∈ (dirEntry t line).owed)
      ∧ (a.g = false ∨ others = [] → (dirEntry t line).owner = some d ∧ (dirEntry t line).sharers = []
        ∧ sectorAt t d (a.addr / 64) = some { bytes := patch (readBytes s.mem (a.addr / 64 * 64) 64) (a.addr % 64) a.bytes, dirty := true }
        ∧ t.mem = s.mem ∧ a ∉ (t.die d).accepted)
      ∧ (a.g = true → others ≠ [] → (t.die d).sectors = (s.die d).sectors ∧ a ∈ (t.die d).accepted ∧ t.mem = s.mem
        ∧ Event.ownershipRequest d line id ∈ t.events))
  ∧ (∀ (d line : Nat) (s : State),
    let owes := (dirEntry s line).owed.any fun h => h.1 == d
    (owes = false ∨ (s.die d).isolated = true → Runs (.invalidationAck d line) s fun t => t = s)
    ∧ (owes = true → (s.die d).isolated = false → Runs (.invalidationAck d line) s fun t => (∀ e, e / 4 = line → sectorAt t d e = none)
      ∧ (dirEntry t line).owed = (dirEntry s line).owed.filter (fun h => h.1 != d) ∧ (dirEntry t line).owner = (dirEntry s line).owner ∧ t.mem = s.mem)
    ∧ (owes = false → Runs (.invalidationResend d line) s fun t => t = s)
    ∧ (∀ n first, (dirEntry s line).owed = [(d, n, first)] → n < 4 → Runs (.invalidationResend d line) s fun t =>
      (dirEntry t line).owed = [(d, if s.time < first + 650 * n then n else n + 1, first)] ∧ Event.invalidationResend d line ∈ t.events ∧ t.mem = s.mem))
  ∧ ∀ (c line req : Nat) (s : State),
    let e := Tbl.read (s.core c).dirl line {}
    (Runs (.directoryOverflowEvent c line req) s fun t => BytesKept s t ∧
      let f := Tbl.read (t.core c).dirl line {}
      f.ptrs = e.ptrs ∧ ((f.ovf = true ∧ req ∈ f.table ∧ f.uncached = e.uncached) ∨ (f.ovf = e.ovf ∧ f.table = e.table ∧ req ∈ f.uncached)))
    ∧ Runs (.directoryOvfWrite c line) s fun t => BytesKept s t ∧
      let f := Tbl.read (t.core c).dirl line {}
      f.ovf = false ∧ f.ptrs = [] ∧ f.table = []
      ∧ ∀ h, h ∈ e.ptrs ∨ h ∈ e.table → ∀ x ∈ (t.core h).stash, ∀ o, x.2.target.place = .loc c o → o / 256 ≠ line

/-- R49, R227, R229, R230, R386, R388, R391: a die is declared unresponsive only 2 µs after an invalidation that it has not acknowledged: it is isolated,
its cache and accepted stores are gone, and the host is told; a memory error poisons its sector, changes no byte, and is told once for a
new log entry; a graceful reset of a die with work is refused with status 1, of one without work
waits for its stores and resets it, its lines at nobody and its
banks' bytes kept; a forced reset takes its work, slots and queue; the end of a reset clears it; a host read answers the bytes and their
poison, a host write less than a poisoned sector is an error, another writes its bytes and no other, with no cache holding the sector;
a place that is none is an error; and a snoop leaves no die a copy of the line, dirty bytes at their home.
That the banks' bytes stay through a die reset (log 36), the cache's sets (log 82) and the fate of another die's access to an isolated die (log 67) are the model's choices. -/
def Obligations.DiesFailResetAndAnswerTheHost : Prop :=
  (∀ (d : Nat) (s : State),
    ((s.die d).isolated = true → Runs (.dieUnresponsive d) s fun t => t = s)
    ∧ ((s.die d).isolated = false → (∀ e ∈ s.dir, ∀ h ∈ e.2.owed, h.1 ≠ d) → Runs (.dieUnresponsive d) s fun t => t = s)
    ∧ ((s.die d).isolated = false → (∃ e ∈ s.dir, ∃ h ∈ e.2.owed, h.1 = d ∧ h.2.2 + 2600 ≤ s.time) →
      (∀ e ∈ s.cores, dieOf e.1 = d → ∀ x ∈ e.2.ctxs, x.2.work = none) → (s.die d).slots = [] → s.exchs = [] → Runs (.dieUnresponsive d) s fun t =>
      (t.die d).isolated = true ∧ (t.die d).sectors = [] ∧ (t.die d).accepted = [] ∧ s.nheld.length < t.nheld.length))
  ∧ (∀ (addr : Nat) (s : State), addr < 2 ^ 56 → homeOf addr ≤ 5 → homePresent s (homeOf addr) = true →
      Runs (.memoryErrorDetected addr) s fun t => poisoned t addr = true ∧ BytesKept s t ∧ (∀ x, x / 64 ≠ addr / 64 → poisoned t x = poisoned s x)
        ∧ (∀ e ∈ s.hlogs, e.addr ≠ BitVec.ofNat 64 (addr / 64 * 64)) → t.nheld.length = s.nheld.length + 1)
  ∧ (∀ (d : Nat) (s : State), s.diePresent d = true → (s.die d).reset = none →
    (dieResident s d = true → Runs (.dieResetGraceful d) s fun t => (t.die d).rstat = 1 ∧ (t.die d).reset = none ∧ BytesKept s t)
    ∧ (dieResident s d = false → storesLeft s d = true → Runs (.dieResetGraceful d) s fun t => t = s.pushOnce (.dieResetGraceful d))
    ∧ (dieResident s d = false → storesLeft s d = false → Runs (.dieResetGraceful d) s fun t => (t.die d).reset = some false ∧ (t.die d).sectors = [] ∧ (t.die d).accepted = []
      ∧ (t.die d).rstat = 2 ∧ (t.die d).isolated = false ∧ Event.dieResetEnd d ∈ t.events ∧ (∀ l, (dirEntry t l).owner ≠ some d)
      ∧ ∀ c, dieOf c = d → c ∈ Tbl.keys s.cores → (t.core c).ctxs = [] ∧ (t.core c).ops = [] ∧ (t.core c).mem = (s.core c).mem)
    ∧ (Runs (.dieResetForced d) s fun t => (t.die d).reset = some true ∧ (t.die d).sectors = [] ∧ (t.die d).slots = [] ∧ (t.die d).queue = []
      ∧ Event.dieResetEnd d ∈ t.events ∧ (∀ l, (dirEntry t l).owner ≠ some d) ∧ ∀ c, dieOf c = d → (t.core c).ctxs = [] ∧ (t.core c).ops = []))
  ∧ (∀ (d : Nat) (s : State), ((s.die d).reset = none → Runs (.dieResetEnd d) s fun t => t = s)
    ∧ ((s.die d).reset ≠ none → Runs (.dieResetEnd d) s fun t => (t.die d).reset = none ∧ (t.die d).rstat = 0 ∧ BytesKept s t))
  ∧ (∀ (off n a : Nat) (s : State), hostPlace s off = some a → homeBlocked s a = false → homeLost s a = false → 0 < n → a % 64 + n ≤ 64 →
    (Runs (.hostCxlRead off n) s fun t => t = s.emit (.hostRead off (hubRead s a n) (hubPoison s a n)))
    ∧ ∀ bs : List Byte, bs.length = n → moving s a = false → s.awaiting = [] →
      (n < 64 → hubPoison s a n = true → Runs (.hostCxlWrite off bs) s fun t => t = s.emit (.hostError off))
      ∧ ((n = 64 ∨ hubPoison s a n = false) → dirEntry s (a / 256) = {} → s.replay.rstat ≠ 2 → memoriesCanonical s → Runs (.hostCxlWrite off bs) s fun t =>
        readBytes t.mem a n = bs ∧ (∀ x, (x < a ∨ a + n ≤ x) → readByte t.mem x = readByte s.mem x) ∧ (∀ e, sectorAt t e (a / 64) = none ∨ e ≥ 4)
          ∧ ∀ c, (t.core c).mem = (s.core c).mem))
  ∧ (∀ (off n : Nat) (bs : List Byte) (s : State), hostPlace s off = none → (Runs (.hostCxlRead off n) s fun t => t = s.emit (.hostError off))
      ∧ Runs (.hostCxlWrite off bs) s fun t => t = s.emit (.hostError off))
  ∧ ∀ (line : Nat) (s : State), s.awaiting = [] → (Runs (.cxlCacheSnoop line) s fun t =>
      (∀ e x, e / 4 = line → x < 4 → sectorAt t x e = none) ∧ (dirEntry t line).owner = none ∧ (dirEntry t line).sharers = []
        ∧ ∀ e x, (dirEntry s line).owner = some x → e / 4 = line → isOwn (line * 256 + 255) = true → ∀ y, sectorAt s x e = some y → y.dirty = true → memoriesCanonical s →
          (∀ f z, sectorAt s x f = some z → z.bytes.length = 64) → readBytes t.mem (e * 64) 64 = y.bytes)

/-! ## The spill area (R114-R116, R354) -/

/-- What follows a SPILL or FILL transfer (R114, R354): with WINS.NOTE set and a handler that can run, the handler, with the cause, the record's
offset and the PC at which the call or return goes on; otherwise that PC. -/
def Sys2Proof.Claims.GoesOnAfter (c : Cause) (rec p : Nat) (s t : State) : Prop :=
  (s.k.wins.toNat / 2 ^ 36 % 2 = 1 ∧ canHandle s → t.k.pc = s.k.tvec.toNat / 4 % 2 ^ 16 * 4 ∧ t.k.epc = BitVec.ofNat 64 p
    ∧ t.k.ecause = BitVec.ofNat 64 c.code ∧ t.k.einfo = BitVec.ofNat 64 rec ∧ t.k.estat.getLsbD 0 = true)
  ∧ (¬ (s.k.wins.toNat / 2 ^ 36 % 2 = 1 ∧ canHandle s) → t.k.pc = p ∧ t.k.epc = s.k.epc ∧ t.k.ecause = s.k.ecause ∧ t.k.einfo = s.k.einfo
    ∧ t.k.estat = s.k.estat)

/-- R114, R115: a CALL with three saved frames resident writes the oldest at WINS.PTR, its a-set below its l-set, adds 128 to PTR and completes; past
END it is LIMIT, and outside the banks LADDR. A RET whose caller's frame is not resident subtracts 128 from PTR, takes the record there as the
caller's a-set and l-set and completes; a record outside the banks is LADDR. A call or return that faults leaves PTR, window and frames.
That both wait for own stores to the record is the model's reading (log 45). -/
def Obligations.FramesSpillAndFill : Prop :=
  ∀ (s : State) (x : Nat), Idle s → PlainBanks s x →
    let ptr := s.k.wins.toNat % 2 ^ 18
    let lim := s.k.wins.toNat / 2 ^ 18 % 2 ^ 18
    (∀ (o : BitVec 24) (p : Nat) (f0 f1 f2 : List Word), s.k.pc + 4 * o.toInt = p → p % 4 = 0 → p ≤ 0x2FFFC → s.k.frames = [f2, f1, f0] → f0.length = 16 →
      (lim < ptr + 128 → Runs (.call o) s fun t => ∃ ea, Parks { cause := .limit, eaddr := ea } s t)
      ∧ (ptr + 128 ≤ lim → 0x30000 < ptr + 128 → Runs (.call o) s fun t => ∃ ea, Parks { cause := .laddr, eaddr := ea } s t)
      ∧ (ptr + 128 ≤ lim → ptr + 128 ≤ 0x30000 → Runs (.call o) s fun t =>
        GoesOnAfter .spill ptr p s t ∧ Called s t ∧ t.k.frames.drop 1 = [f2, f1]
        ∧ (∀ j, j < 16 → leNat (readBytes (t.core x).mem (ptr + 8 * j) 8) = (f0.getD j 0).toNat)
        ∧ (∀ a, a < ptr ∨ ptr + 128 ≤ a → readByte (t.core x).mem a = readByte (s.core x).mem a)
        ∧ (∀ c a, c ≠ x → readByte (t.core c).mem a = readByte (s.core c).mem a) ∧ (∀ a, readByte t.mem a = readByte s.mem a)
        ∧ t.k.wins.toNat % 2 ^ 18 = ptr + 128 ∧ t.k.wins.toNat / 2 ^ 18 = s.k.wins.toNat / 2 ^ 18 ∧ GuardsKept s t []))
    ∧ (let v := (rd s.k (regNo 23)).toNat
      s.k.depth ≠ 0 → s.k.frames = [] → (v < 2 ^ 18 ∨ (v / 2 ^ 62 = 3 ∧ v / 2 ^ 18 % 2 ^ 44 = 0)) → v % 4 = 0 → v % 2 ^ 18 ≤ 0x2FFFC →
      (ptr < 128 ∨ 0x30000 < ptr → Runs .ret s fun t => ∃ ea, Parks { cause := .laddr, eaddr := ea } s t)
      ∧ (128 ≤ ptr → ptr ≤ 0x30000 → Runs .ret s fun t =>
        GoesOnAfter .fill (ptr - 128) (v % 2 ^ 18) s t ∧ t.k.depth = s.k.depth - 1 ∧ t.k.frames = []
        ∧ (∀ j, j < 16 → (rd t.k (regNo (8 + j))).toNat = leNat (readBytes (s.core x).mem (ptr - 128 + 8 * j) 8))
        ∧ (∀ j, j < 8 → rd t.k (regNo j) = rd s.k (regNo j) ∧ rd t.k (regNo (24 + j)) = rd s.k (regNo (24 + j)))
        ∧ t.k.wins.toNat % 2 ^ 18 = ptr - 128 ∧ t.k.wins.toNat / 2 ^ 18 = s.k.wins.toNat / 2 ^ 18 ∧ GuardsKept s t [] ∧ BytesKept s t ∧ OthersKept s t))

/-! ## Handles, rings and write pointers (R106-R111, R118-R124) -/

/-- Extent `d` of a record, its TYPE code and the double words (R118). -/
def Sys2Proof.Claims.shapeExtent (r : Shape) (d : Nat) : Nat := r.d1.toNat / 2 ^ (16 * d) % 2 ^ 16
def Sys2Proof.Claims.typeCode (r : Shape) : Nat := r.d3.toNat / 2 ^ 48 % 16
def Sys2Proof.Claims.doubleWord (r : Shape) (k : Nat) : Word := match k with | 0 => r.d0 | 1 => r.d1 | 2 => r.d2 | _ => r.d3
/-- Element size for alignment by TYPE code (R118). -/
def Sys2Proof.Claims.sizeOfCode (t : Nat) : Nat :=
  match t with | 0 | 13 | 14 => 8 | 1 | 11 | 12 => 4 | 2 | 3 | 9 | 10 => 2 | 5 => 16 | _ => 1
/-- R120: why a record does not validate. -/
def Sys2Proof.Claims.refusal (r : Shape) : Option Cause :=
  if shapeExtent r 0 = 0 ∨ shapeExtent r 1 = 0 ∨ shapeExtent r 2 = 0 ∨ shapeExtent r 3 = 0 ∨ typeCode r = 15 ∨ r.d3.toNat / 2 ^ 54 ≠ 0 then some .shape
  else
    let n := sizeOfCode (typeCode r)
    if r.d0.toNat % n ≠ 0 ∨ r.d2.toNat % 2 ^ 32 % n ≠ 0 ∨ r.d2.toNat / 2 ^ 32 % n ≠ 0 ∨ r.d3.toNat % 2 ^ 32 % n ≠ 0 then some .align else none
/-- A record with RB clear. -/
def Sys2Proof.Claims.unbound (r : Shape) : Shape := { r with d3 := r.d3 &&& ~~~ (BitVec.ofNat 64 (2 ^ 52)) }

/-- The instruction retires with one handle set and no other change. -/
def Sys2Proof.Claims.SetsHandle (h : HIx) (v : Handle) (s t : State) : Prop :=
  Quietly 4 s t ∧ handleOf t.k h = v ∧ ∀ j, j ≠ h → handleOf t.k j = handleOf s.k j

/-- R123: a destination handle that holds a ring binding raises RING, reason 8, and keeps what it holds. -/
def Sys2Proof.Claims.BoundHandleIsNoDestination : Prop :=
  ∀ (i : Instr) (h : HIx) (rs : List Reg) (s : State),
    ((∃ a, i = .hld a h ∧ rs = [a]) ∨ (∃ n a, i = .hset n a h ∧ rs = [a]) ∨ (i = .hadv h ∧ rs = []) ∨ (∃ j, i = .hcopy j h ∧ rs = [])
      ∨ (∃ b j, i = .part b j h ∧ rs = [b])) →
    Settled s rs → (handleOf s.k h).bind ≠ none → Runs i s (Parks { cause := .ring, einfo := 8 } s)

/-- R120-R123: HSET replaces a double word of the record and validates it; HGET reads one; HADV advances BASE when ADVE is set and refuses a null
handle; HCOPY copies record and EMPTY with RB 0; HLD loads and validates the 32 bytes at an aligned address of the own banks; HST stores
them there by four stores. A failing one changes no handle. -/
def Sys2Proof.Claims.HandleFunctionsMoveRecords : Prop :=
  ∀ (h j : HIx) (a d : Reg) (s : State),
    let v := handleOf s.k h
    let u := handleOf s.k j
    (∀ n : BitVec 5, n.toNat ≤ 3 → v.bind = none → Settled s [a] →
      let r : Shape := match n.toNat with
        | 0 => { v.shape with d0 := rd s.k a } | 1 => { v.shape with d1 := rd s.k a } | 2 => { v.shape with d2 := rd s.k a } | _ => { v.shape with d3 := rd s.k a }
      Runs (.hset n a h) s (match refusal r with | some c => Parks { cause := c } s | none => SetsHandle h { shape := r } s))
    ∧ (∀ n : BitVec 5, n.toNat ≤ 3 → Settled s [d] →
      (u.bind = none → Runs (.hget n j d) s (Writes 4 d (doubleWord u.shape n.toNat) s))
      ∧ (∀ b r, u.bind = some b → ringOf s b = some r → n = 0 →
        Runs (.hget n j d) s (Writes 4 d (r.base + BitVec.ofNat 64 (((if b.producer then r.pidx else r.cidx) + b.pending) % r.count * r.slot)) s)))
    ∧ (v.bind = none → Runs (.hadv h) s (if v.shape = {} then Parks { cause := .shape } s
        else SetsHandle h (if v.shape.d3.getLsbD 53 then
          { v with shape := { v.shape with d0 := v.shape.d0 + BitVec.ofInt 64 ((BitVec.ofNat 16 (v.shape.d3.toNat / 2 ^ 32)).toInt * 64) } } else v) s))
    ∧ (v.bind = none → u.bind = none → Runs (.hcopy j h) s (SetsHandle h { shape := unbound u.shape, empty := u.empty } s))
    ∧ (v.bind = none → Settled s [a] → (rd s.k a).toNat % 32 ≠ 0 → Runs (.hld a h) s (Parks { cause := .align, eaddr := rd s.k a } s))
    ∧ (Settled s [a] → (rd s.k a).toNat % 32 ≠ 0 → Runs (.hst a h) s (Parks { cause := .align, eaddr := rd s.k a } s))
    ∧ ∀ b lo, Idle s → PlainBanks s b → LocalAt (rd s.k a) lo 32 →
      (v.bind = none →
        let w := fun (i : Nat) => BitVec.ofNat 64 (leNat (readBytes (s.core b).mem (lo + 8 * i) 8))
        let r : Shape := ⟨w 0, w 1, w 2, w 3⟩
        Runs (.hld a h) s (match refusal r with | some c => Parks { cause := c } s | none => SetsHandle h { shape := unbound r } s))
      ∧ (v.bind = none → (s.core s.cur.1).ops.length ≤ 60 → bufferUsed s s.cur.1 ≤ 12 → Runs (.hst a h) s fun t => Quietly 4 s t
        ∧ ∀ i, i < 4 → Event.storePerform s.cur.1 (s.nextId + i) ∈ t.events ∧ ∃ o, opById t s.cur.1 (s.nextId + i) = some o
          ∧ o.body = .store 8 (doubleWord v.shape i) false none false false ∧ o.target.map (·.place) = some (.loc b (lo + 8 * i)))

/-- R124, PART: SHAPE for operand bits above 2 or a source with an extent of 0; otherwise the destination takes the core's share of the dimension,
from lo to hi of E, its BASE moved by lo units, EMPTY when the share is empty. Everything else of the record is the source's, with RB 0. -/
def Sys2Proof.Claims.PartTakesTheCoresShare : Prop :=
  ∀ (b : Reg) (j h : HIx) (s : State), Settled s [b] → (handleOf s.k h).bind = none → (handleOf s.k j).bind = none →
    let r := (handleOf s.k j).shape
    let v := (rd s.k b).toNat
    let dim := v % 4
    let size := if v / 4 % 2 = 1 then s.k.dgy else s.k.dgx
    let c : Int := if v / 4 % 2 = 1 then (s.cur.1 / 128 : Nat) - (s.k.doy : Int) else (s.cur.1 % 128 : Nat) - (s.k.dox : Int)
    let q4 := dim = 0 ∧ typeCode r = 6
    let e := if q4 then (shapeExtent r 0 + 1) / 2 else shapeExtent r dim
    let inside := 0 ≤ c ∧ c < size
    let lo := if inside then c.toNat * e / size else 0
    let hi := if inside then (c.toNat + 1) * e / size else 0
    let step : Int := if dim = 0 then (if typeCode r = 5 then 48 else sizeOfCode (typeCode r))
      else (BitVec.ofNat 32 (if dim = 1 then r.d2.toNat else if dim = 2 then r.d2.toNat / 2 ^ 32 else r.d3.toNat)).toInt
    let bad := v / 8 ≠ 0 ∨ typeCode r = 15 ∨ shapeExtent r 0 = 0 ∨ shapeExtent r 1 = 0 ∨ shapeExtent r 2 = 0 ∨ shapeExtent r 3 = 0
    (bad → Runs (.part b j h) s (Parks { cause := .shape } s))
    ∧ (¬ bad → Runs (.part b j h) s fun t => Quietly 4 s t ∧ (∀ i, i ≠ h → handleOf t.k i = handleOf s.k i)
      ∧ let w := handleOf t.k h
        w.bind = none ∧ w.empty = decide (lo = hi) ∧ w.shape.d0 = r.d0 + BitVec.ofInt 64 (lo * step) ∧ w.shape.d2 = r.d2 ∧ w.shape.d3 = (unbound r).d3
        ∧ shapeExtent w.shape dim = (if q4 then Min.min (2 * hi) (shapeExtent r 0) - 2 * lo else hi - lo)
        ∧ ∀ i, i < 4 → i ≠ dim → shapeExtent w.shape i = shapeExtent r i)

/-- R107-R109, RBIND of a record in the own banks: bits [5:1] of A are ALIGN; then the refusals in R109's order: a record that breaks R107, or one whose consumer
is another core, RING 1; a role of another core, RING 2; one that another actor holds, RING 3; a handle with a pending advance, RING 6; a 33rd live ring, RING 7; a
null handle, SHAPE. Otherwise the handle is bound to the ring, live or as its record reads, its shape's RB is set, and the ring's role is taken. -/
def Sys2Proof.Claims.RbindTakesARole : Prop :=
  ∀ (a : Reg) (h : HIx) (s : State), Settled s [a] →
    let v := rd s.k a
    let prod := v.getLsbD 0
    let ring := fun (n : Nat) => Runs (.rbind a h) s (Parks { cause := .ring, einfo := BitVec.ofNat 64 n } s)
    (v.toNat % 64 / 2 ≠ 0 → Runs (.rbind a h) s (Parks { cause := .align, eaddr := v } s))
    ∧ (v.toNat % 64 / 2 = 0 → ∀ b lo, b = bankCore s s.cur.1 s.cur.2 → dieOf b = dieOf s.cur.1 → v.toNat / 64 * 64 = 0xC000000000000000 + lo → lo < 0x30000 →
      opsOf s s.cur.1 s.cur.2 = [] → (s.core b).bad = [] →
      let me := roleOf s s.cur.1 s.cur.2
      let u := handleOf s.k h
      let known := Tbl.find (s.core b).rings lo
      let record := ringRecord (overRings s b lo (readBytes (s.core b).mem lo 64))
      (record = none → ring 1)
      ∧ ∀ w, record = some w →
        let r := known.getD (ringPlaced s s.k.dox s.k.doy w)
        let held := if prod then r.prod else r.cons
        (r.consCore ≠ b → ring 1)
        ∧ (r.consCore = b → (if prod then r.prodCore else r.consCore) ≠ b → ring 2)
        ∧ (r.consCore = b → (if prod then r.prodCore else r.consCore) = b →
          (held ≠ none → held ≠ some me → ring 3)
          ∧ (held = none ∨ held = some me →
            (∀ x, u.bind = some x → x.pending ≠ 0 → ring 6)
            ∧ ((∀ x, u.bind = some x → x.pending = 0) → known = none → (s.core b).rings.length ≥ 32 → ring 7)
            ∧ ((∀ x, u.bind = some x → x.pending = 0) → (known ≠ none ∨ (s.core b).rings.length < 32) →
              (u.shape = {} → u.bind = none → Runs (.rbind a h) s (Parks { cause := .shape } s))
              ∧ (¬ (u.shape = {} ∧ u.bind = none) → Runs (.rbind a h) s fun t =>
                t.k.pc = nextPc s.k 4 ∧ RegsKept s t [] ∧ GuardsKept s t [] ∧ specials t.k = specials s.k ∧ OthersKept s t
                ∧ (handleOf t.k h).bind = some ⟨b, lo, prod, 0, true⟩ ∧ unbound (handleOf t.k h).shape = unbound u.shape
                ∧ (handleOf t.k h).shape.d3.getLsbD 52 = true ∧ (∀ i, i ≠ h → handleOf t.k i = handleOf s.k i)
                ∧ ((Tbl.find (t.core b).rings lo).bind fun r => if prod then r.prod else r.cons) = some me
                ∧ (u.bind = none → BytesKept s t
                  ∧ Tbl.find (t.core b).rings lo = some (if prod then { r with prod := some me } else { r with cons := some me })))))))

/-- R106, R108, R110, R111: RCNT reads what the handle's side may still use; RWAIT goes on, as an acquire, when that suffices, and refuses more than
COUNT; RADVP and RADVC add a pending advance for their role, up to it; an unbound handle is RING 5; WPRD and WPWAIT read a write pointer; and
a notification tells a side the live count, and its context, where it stands at home, counts an event. -/
def Obligations.RingFunctionsKeepTheCounts : Prop :=
  (∀ (b d : Reg) (h : HIx) (s : State), Settled s [d, b] →
    let v := handleOf s.k h
    let n := (rd s.k b).toNat
    let ring := fun (m : Nat) => Parks { cause := .ring, einfo := BitVec.ofNat 64 m } s
    (v.bind = none → Runs (.rcnt h d) s (ring 5) ∧ Runs (.rwait b h) s (ring 5) ∧ Runs (.radvp b h) s (ring 5) ∧ Runs (.radvc b h) s (ring 5))
    ∧ ∀ x r, v.bind = some x → ringOf s x = some r →
      let may := (if x.producer then r.seenFree else r.seenFill) - x.pending
      Runs (.rcnt h d) s (Writes 4 d (BitVec.ofNat 64 may) s)
      ∧ (n > r.count → Runs (.rwait b h) s (ring 4))
      ∧ (n ≤ r.count → n ≤ may → PeerFree s s.cur.1 r.scope → Runs (.rwait b h) s fun t => Quietly 4 s t ∧ t.k.region = (readReplies s.k [b]).region + 1)
      ∧ (n ≤ r.count → n > may → Runs (.rwait b h) s (Waits s))
      ∧ ∀ prod : Bool, let i : Instr := if prod then .radvp b h else .radvc b h
        (x.producer ≠ prod → Runs i s (ring 2)) ∧ (x.producer = prod → n > may → Runs i s (ring 4))
        ∧ (x.producer = prod → n ≤ may → Runs i s (SetsHandle h { v with bind := some { x with pending := x.pending + n } } s)))
  ∧ (∀ (c : BitVec 5) (b d : Reg) (s : State), Settled s [d, b] →
    Runs (.wprd c d) s (Writes 4 d (Tbl.read s.k.wp c.toNat 0) s)
    ∧ ((rd s.k b).toNat ≤ (Tbl.read s.k.wp c.toNat 0).toNat → Runs (.wpwait b c) s fun t => Quietly 4 s t ∧ t.k.region = (readReplies s.k [b]).region + 1)
    ∧ ((rd s.k b).toNat > (Tbl.read s.k.wp c.toNat 0).toNat → Runs (.wpwait b c) s (Waits s)))
  ∧ ∀ (c off : Nat) (toP : Bool) (s : State),
    (Tbl.find (s.core c).rings off = none → Runs (.ringNotification c off toP) s fun t => t = s)
    ∧ ∀ r, Tbl.find (s.core c).rings off = some r → Runs (.ringNotification c off toP) s fun t =>
      Tbl.find (t.core c).rings off = some (if toP then { r with seenFree := r.freec } else { r with seenFill := r.fillc }) ∧ BytesKept s t
      ∧ ∀ g a w, (if toP then r.prod else r.cons) = some (g, a) → Tbl.find (s.dom g).actors a = some w →
        Event.firingDispatch g a ∈ t.events ∧ ((s.ctx w.core w.ctx).home = some (g, some a) → (s.ctx w.core w.ctx).away = none →
        (s.die (dieOf w.core)).slots = [] → (∀ e ∈ s.cores, ∀ k ∈ e.2.ctxs, k.2.away = none) → (t.ctx w.core w.ctx).events = Min.min 255 ((s.ctx w.core w.ctx).events + 1))

/-! ## The copy engine (R91-R105) -/

/-- New names are new: an accepted command is told apart from every operation of its core. -/
def Sys2Proof.Claims.NewName (s : State) : Prop := ∀ o ∈ (s.core s.cur.1).ops, o.id < s.nextId

/-- What keeps any engine command waiting at issue: an outstanding acquire or range function of its context, or a full in-flight table
(R91, R96, R200, R377). -/
def Sys2Proof.Claims.engineHeld (s : State) : Bool :=
  let ops := opsOf s s.cur.1 s.cur.2
  acqPending ops || rangePending ops || !((s.core s.cur.1).ops.length + 1 ≤ 64)

/-- The command of an ECX word (R94): P is the literal or register B, none in FLUSHR. -/
def Sys2Proof.Claims.ecxCommand (fn : CopyFn) (k : Ctx) (e : Ecx) : Nat × List Reg × CopyWord :=
  (if e.lit.isSome then 20 else 12, e.d :: e.a :: (if e.lit.isSome ∨ fn = .flushr then [] else [e.b]),
    { fn := fn, ch := e.ch.toNat, a := e.a, d := e.d, p := e.lit.getD (rd k e.b), g := e.g, rel := e.rel, acq := e.acq, scope := e.scope,
      gd := e.gd, res := if e.imm.getLsbD 3 then some (e.imm.setWidth 3) else none })

/-- Length, registers named and command of a copy-engine word (R91, R94). -/
def Sys2Proof.Claims.copyForm (k : Ctx) (i : Instr) : Option (Nat × List Reg × CopyWord) :=
  let word := fun (fn : CopyFn) (c : BitVec 2) (b a d : Reg) =>
    some (4, [d, a, b], ({ fn := fn, ch := c.toNat, a := a, d := d, p := rd k b } : CopyWord))
  match i with
  | .copy c b a d => word .copy c b a d
  | .gather c b a d => word .gather c b a d
  | .scatter c b a d => word .scatter c b a d
  | .compact c b a d => word .compact c b a d
  | .fill c b a d => word .fill c b a d
  | .flushr c a d => some (4, [d, a], { fn := .flushr, ch := c.toNat, a := a, d := d, p := 0 })
  | .copyEcx e => some (ecxCommand .copy k e)
  | .gatherEcx e => some (ecxCommand .gather k e)
  | .scatterEcx e => some (ecxCommand .scatter k e)
  | .compactEcx e => some (ecxCommand .compact k e)
  | .fillEcx e => some (ecxCommand .fill k e)
  | .flushrEcx e => some (ecxCommand .flushr k e)
  | _ => none

/-- R98: what the operands of a function must satisfy. -/
def Sys2Proof.Claims.CopyFits (fn : CopyFn) (p : Word) (dst src idx : Operand) : Prop :=
  let m := fun (o : Operand) => if p = 0 then elems o else p.toNat
  let index := opTy idx ∈ [ElemTy.n8, .n16, .n32, .s32]
  match fn with
  | .copy => unitBits src = unitBits dst ∧ m src ≤ elems src ∧ m src ≤ elems dst
  | .gather => rowBytes src = rowBytes dst ∧ index ∧ m idx ≤ elems idx ∧ m idx ≤ rows dst
  | .scatter => rowBytes src = rowBytes dst ∧ index ∧ m idx ≤ elems idx ∧ m idx ≤ rows src
  | .compact => unitBits src = unitBits dst ∧ elems src ≤ elems idx ∧ elems src ≤ elems dst
  | .fill | .flushr => True

/-- R91-R94, R97, R98, R100, R102, R122: a command waits while the queue holds two or the guard that it resolves is already claimed; operands that do
not fit, or hold the reserved TYPE 15 (log 78), raise SHAPE 0, unless one is empty; otherwise it is accepted: captured with its operands, at the queue's end, its destination outstanding, each
of its handles advanced once. CSTAT reads the status word.
SHAPE for the reserved TYPE 15 (log 78) and the span of a ring-bound shape (log 75) are the model's. -/
def Obligations.CopyCommandsAreAcceptedWhole : Prop :=
  (∀ (i : Instr) (len : Nat) (rs : List Reg) (w : CopyWord) (s : State), copyForm s.k i = some (len, rs, w) → Settled s rs →
    let c := s.cur.1
    let names := copyHandles w.fn (rd s.k w.a)
    let o := fun (n : Nat) => match names[n]? with | some h => capture s s.k h | none => noOperand
    let used := names.map (capture s s.k)
    let held := engineHeld s = true ∨ (s.core c).copyQ.length ≥ 2 ∨ ∃ q, w.res = some q ∧ resolves (opsOf s c s.cur.2) q = true
    let fits := (∀ p ∈ used, nullOperand p = false ∧ typeCode p.shape ≠ 15 ∧ ringFits p = true) ∧ CopyFits w.fn w.p (o 0) (o 1) (o 2)
    let empty := ∃ p ∈ used, p.empty = true
    (held → Runs i s (Waits s))
    ∧ (¬ held → ¬ empty → ¬ fits → Runs i s (Parks { cause := .shape } s))
    ∧ (¬ held → (empty ∨ fits) → NewName s → Runs i s fun t =>
      Quietly len s t ∧ (t.core c).copyQ = (s.core c).copyQ ++ [s.nextId] ∧ Event.copyQueueRelease c ∈ t.events
      ∧ (∀ h, handleOf t.k h = if h ∈ names then advanceHandle (handleOf s.k h) else handleOf s.k h)
      ∧ (∀ r, r ≠ 0 → r = w.d → busyReg (opsOf t c s.cur.2) r = true)
      ∧ ∃ op k, opById t c s.nextId = some op ∧ op.ctx = s.cur.2 ∧ op.body = .copy k ∧ k.fn = w.fn ∧ k.ch = w.ch ∧ k.p = w.p ∧ k.dest = w.d
        ∧ k.dst = o 0 ∧ k.src = o 1 ∧ k.idx = o 2 ∧ (k.g, k.rel, k.acq, k.scope) = (w.g, w.rel, w.acq, w.scope) ∧ k.res = w.res
        ∧ k.guarded.gd = w.gd ∧ k.guarded.taken = (if w.gd.ge then match guardOf s.k w.gd.gq with
            | none => .waiting | some b => if b ≠ w.gd.gn then .run else .discard else .run)))
  ∧ ∀ (d : Reg) (s : State), Settled s [d] → Runs (.cstat d) s fun t => Writes 4 d (BitVec.ofNat 64 (cstatWord s s.cur.1 s.cur.2)) s t

/-- The reply of a command (R93): STATUS in bits 63:56, CAUSE in 55:48, COUNT below. -/
def Sys2Proof.Claims.commandReply (status cause n : Nat) : Word := BitVec.ofNat 64 (status * 2 ^ 56 + cause * 2 ^ 48 + n % 2 ^ 48)

/-- R92, R93, R95, R99, R100, R103: an empty queue, a head whose guard is unresolved and one whose channel is busy stay; a head discarded by its guard ends
with STATUS 1; another goes to its channel. A FILL of one row of bytes in the own banks writes them all in one beat and counts them. A channel's command
with nothing left that released nothing ends with STATUS 0 and its count, one event, and the channel idle; a COMPACT's guard becomes whether P elements
were kept.
One event for an end with its reply (log 38), what a beat covers (log 70), FLUSHR's rights and its write pointer (log 29, log 77) and a discarded COMPACT's guard (log 76) are the model's readings and choices. -/
def Obligations.CopyEngineRunsItsQueueAndReplies : Prop :=
  (∀ (c : Nat) (s : State), (s.core c).copyQ = [] → Runs (.copyQueueRelease c) s fun t => t = s)
  ∧ (∀ (c id : Nat) (rest : List Nat) (o : Op) (k : CopyCmd) (s : State), (s.core c).copyQ = id :: rest → opById s c id = some o → o.id = id →
    o.body = .copy k → o.ctx < 16 →
    (k.guarded.taken = .waiting → Runs (.copyQueueRelease c) s fun t => t = s)
    ∧ (k.guarded.taken = .discard → (∀ a ∈ s.awaiting, a.op ≠ id) → Runs (.copyQueueRelease c) s fun t => (t.core c).copyQ = rest ∧ opById t c id = none
      ∧ rd (t.ctx c o.ctx) k.dest = (if k.dest = 0 then 0 else commandReply 1 0 0) ∧ (t.ctx c o.ctx).events = Min.min 255 ((s.ctx c o.ctx).events + 1)
      ∧ (∀ q, guardOf (t.ctx c o.ctx) q = guardOf (s.ctx c o.ctx) q) ∧ BytesKept s t)
    ∧ (k.guarded.taken = .run → (Tbl.find (s.core c).chans k.ch).isSome = true → Runs (.copyQueueRelease c) s fun t => t = s)
    ∧ (k.guarded.taken = .run → Tbl.find (s.core c).chans k.ch = none → releaseBefore s c o = false → k.acq = false →
      Runs (.copyQueueRelease c) s fun t => (t.core c).copyQ = rest ∧ Tbl.find (t.core c).chans k.ch = some id ∧ Event.copyBeat c k.ch ∈ t.events
        ∧ BytesKept s t))
  ∧ ∀ (c ch id : Nat) (o : Op) (k : CopyCmd) (s : State), Tbl.find (s.core c).chans ch = some id → opById s c id = some o → o.id = id → o.body = .copy k →
    k.ch = ch → o.ctx < 16 → k.failed = none → o.cause ≠ .visfail → (∀ a ∈ s.awaiting, a.op ≠ id) →
    (o.held = false → (∃ p ∈ copyOperands k, p.empty = true) → Runs (.copyBeat c ch) s fun t => Event.copyCommandEnd c ch ∈ t.events ∧ BytesKept s t)
    ∧ (∀ lo n, k.fn = .fill → opTy k.dst = .n8 → k.dst.bind = none → k.dst.empty = false → k.pos = 0 → k.bytes = 0 → rows k.dst = 1 → ext k.dst 0 = n →
      k.dst.shape.d0.toNat = 0xC000000000000000 + lo → 0 < n → lo % 64 + n ≤ 64 → lo + n ≤ 0x30000 → o.held = false → (s.core o.bank).windows = [] →
      (s.core o.bank).rings = [] → (s.core o.bank).dirl = [] → (s.core o.bank).inj.mode ≠ 1 → (s.core o.bank).bad = [] → dieOf o.bank = dieOf c → memoriesCanonical s →
      storesBefore s c o = false → vectorsBefore s c o = false →
      Runs (.copyBeat c ch) s fun t => readBytes (t.core o.bank).mem lo n = List.replicate n (k.p.setWidth 8)
        ∧ (∀ x, (x < lo ∨ lo + n ≤ x) → readByte (t.core o.bank).mem x = readByte (s.core o.bank).mem x) ∧ (∀ e, e ≠ o.bank → (t.core e).mem = (s.core e).mem)
        ∧ t.mem = s.mem ∧ Tbl.read (t.ctx c o.ctx).wp ch 0 = Tbl.read (s.ctx c o.ctx).wp ch 0 + BitVec.ofNat 64 n ∧ Event.copyBeat c ch ∈ t.events
        ∧ ∃ p k', opById t c id = some p ∧ p.body = .copy k' ∧ k'.bytes = n)
    ∧ (k.rel = false → k.fn ≠ .flushr → let count := if k.fn = .compact then k.kept else k.bytes
      Runs (.copyCommandEnd c ch) s fun t => Tbl.find (t.core c).chans ch = none ∧ opById t c id = none ∧ Event.copyQueueRelease c ∈ t.events
        ∧ rd (t.ctx c o.ctx) k.dest = (if k.dest = 0 then 0 else commandReply 0 0 count) ∧ (k.dest ≠ 0 → k.dest.toNat ∈ (t.ctx c o.ctx).replies)
        ∧ (t.ctx c o.ctx).events = Min.min 255 ((s.ctx c o.ctx).events + 1) ∧ BytesKept s t
        ∧ (∀ q, k.res = some q → q ≠ 0 → guardOf (t.ctx c o.ctx) q = some (decide (k.p.toNat ≤ count)))
        ∧ ∀ q, k.res ≠ some q → guardOf (t.ctx c o.ctx) q = guardOf (s.ctx c o.ctx) q)

/-! ## The vector engine (R154-R175) -/

/-- The function and fields of a vector command's word (R154). -/
def Sys2Proof.Claims.vecForm (i : Instr) : Option (VFn × Vx) :=
  match i with
  | .vadd v => some (.vadd, v)
  | .vsub v => some (.vsub, v)
  | .vmul v => some (.vmul, v)
  | .vfma v => some (.vfma, v)
  | .vfms v => some (.vfms, v)
  | .vmin v => some (.vmin, v)
  | .vmax v => some (.vmax, v)
  | .vabs v => some (.vabs, v)
  | .vneg v => some (.vneg, v)
  | .vdiv v => some (.vdiv, v)
  | .vsqrt v => some (.vsqrt, v)
  | .vrcp v => some (.vrcp, v)
  | .vrsq v => some (.vrsq, v)
  | .vexp2 v => some (.vexp2, v)
  | .vlog2 v => some (.vlog2, v)
  | .vtanh v => some (.vtanh, v)
  | .vsigm v => some (.vsigm, v)
  | .vand v => some (.vand, v)
  | .vor v => some (.vor, v)
  | .vxor v => some (.vxor, v)
  | .vnot v => some (.vnot, v)
  | .vshl v => some (.vshl, v)
  | .vshr v => some (.vshr, v)
  | .vsar v => some (.vsar, v)
  | .vcmp v => some (.vcmp, v)
  | .vsel v => some (.vsel, v)
  | .vcvt v => some (.vcvt, v)
  | .vred v => some (.vred, v)
  | .vscan v => some (.vscan, v)
  | .vbcst v => some (.vbcst, v)
  | .vlerp v => some (.vlerp, v)
  | .vqexp v => some (.vqexp, v)
  | .viota v => some (.viota, v)
  | .vcount v => some (.vcount, v)
  | .vclamp v => some (.vclamp, v)
  | _ => none

/-- The integer types (R140). -/
def Sys2Proof.Claims.intTypes : List ElemTy := [.n8, .n16, .n32, .n64, .s8, .s16, .s32, .s64]

/-- The handles that a function uses, destination first where it has one, with the types that each may have (R158, R159, R167-R175). -/
def Sys2Proof.Claims.vecUses (fn : VFn) (v : Vx) : List (HIx × List ElemTy) :=
  let d := (v.hd, [v.ty])
  let a := (v.ha, [v.ty])
  let b := if v.bs then [] else [(v.hb, [v.ty])]
  let c := (v.hc, [v.ty])
  match fn with
  | .vadd | .vsub | .vmul | .vmin | .vmax | .vdiv | .vand | .vor | .vxor | .vshl | .vshr | .vsar => d :: a :: b
  | .vfma | .vfms | .vlerp | .vclamp => d :: a :: c :: b
  | .vcmp => (v.hd, intTypes) :: a :: b
  | .vsel => d :: a :: (v.hc, intTypes) :: b
  | .vcvt => [(v.hd, [(elemOfCode (v.imm.toNat % 16)).getD .f64]), a]
  | .vqexp => [d, (v.ha, [.q4])]
  | .vred => if v.imm.getLsbD 8 then [a] else [d, a]
  | .vbcst => if v.bs then [d] else [d, a]
  | .viota => [d]
  | .vcount => [a]
  | .vabs | .vneg | .vsqrt | .vrcp | .vrsq | .vexp2 | .vlog2 | .vtanh | .vsigm | .vnot | .vscan => [d, a]

/-- R155, R173: how many elements the operands must have. -/
def Sys2Proof.Claims.VecCounts (fn : VFn) (v : Vx) (os : List Operand) : Prop :=
  match fn, os with
  | .vbcst, _ | .viota, _ | .vcount, _ => True
  | .vred, [d, a] =>
    let e := fun (n : Nat) => if v.imm.toNat / 2 ^ (4 + n) % 2 = 1 then 1 else if n = 0 then rowEls a else ext a n
    count d = e 0 * e 1 * e 2 * e 3
  | .vred, _ => True
  | _, d :: l => ∀ o ∈ l, count o = count d ∨ count o = 1
  | _, [] => True

/-- The register that a command writes at its end (R173, R175), and the register that gives its scalar (R158). -/
def Sys2Proof.Claims.vecDest (fn : VFn) (v : Vx) : List Reg :=
  match fn with
  | .vcount => [v.sb]
  | .vred => if v.imm.getLsbD 8 then [v.sb] else []
  | _ => []
def Sys2Proof.Claims.vecScalar (v : Vx) : List Reg := if v.bs ∧ v.lit = none then [v.sb] else []

/-- R148, R154, R158, R159, R161: a t6 command under NBV 1 is ILL; a vector command waits while the queue holds two; operands of wrong types or counts
raise SHAPE 0, unless one is empty; a last-read mark on a ring role that it may not have raises RING; otherwise the command is accepted at the queue's end
with its operands, its scalar, FPC and NBV captured, and its handles advance once.
SHAPE for the reserved TYPE 15 (log 78) and the span of a ring-bound shape (log 75) are the model's. -/
def Obligations.VectorCommandsAreAcceptedWhole : Prop :=
  ∀ (i : Instr) (fn : VFn) (v : Vx) (s : State), vecForm i = some (fn, v) →
    let c := s.cur.1
    let uses := vecUses fn v
    let os := uses.map fun u => capture s s.k u.1
    let len := if v.lit.isSome then 20 else 12
    let t6 := v.ty = .t6 ∨ (fn = .vcvt ∧ elemOfCode (v.imm.toNat % 16) = some .t6)
    let held := engineHeld s = true ∨ (s.core c).vecQ.length ≥ 2 ∨ ∃ o ∈ s.k.kept, isVec o = true
    let fits := (∀ o ∈ os, nullOperand o = false ∧ ringFits o = true ∧ typeCode o.shape ≠ 15) ∧ (∀ u ∈ uses, opTy (capture s s.k u.1) ∈ u.2) ∧ VecCounts fn v os
    let empty := ∃ o ∈ os, o.empty = true
    let marks := ((if v.la then [v.ha] else []) ++ (if v.lb then [v.hb] else []) ++ (if v.lc then [v.hc] else [])).map (capture s s.k)
    (t6 → s.k.nbv = 1 → Runs i s (Parks { cause := .ill, einfo := BitVec.ofNat 64 ((encode i).headD 0) } s))
    ∧ (¬ (t6 ∧ s.k.nbv = 1) → Settled s (vecDest fn v ++ vecScalar v) →
      (held → Runs i s (Waits s))
      ∧ (¬ held → ¬ empty → ¬ fits → Runs i s (Parks { cause := .shape } s))
      ∧ (¬ held → ¬ empty → fits → ∀ p, marks.findSome? (markFault s) = some p → Runs i s (Parks p s))
      ∧ (¬ held → (empty ∨ (fits ∧ marks.findSome? (markFault s) = none)) → NewName s → Runs i s fun t =>
        Quietly len s t ∧ (t.core c).vecQ = (s.core c).vecQ ++ [s.nextId] ∧ Event.vectorBeat c ∈ t.events
        ∧ (∀ h, handleOf t.k h = if h ∈ uses.map (·.1) then advanceHandle (handleOf s.k h) else handleOf s.k h)
        ∧ (∀ r ∈ vecDest fn v, r ≠ 0 → busyReg (opsOf t c s.cur.2) r = true)
        ∧ ∃ op k, opById t c s.nextId = some op ∧ op.ctx = s.cur.2 ∧ op.body = .vec k ∧ k.fn = fn ∧ k.v = v ∧ k.scalar = v.lit.getD (rd s.k v.sb)
          ∧ (k.fpc, k.ver) = (s.k.fpc, s.k.nbv) ∧ (∀ u ∈ uses, capture s s.k u.1 ∈ [k.d, k.a, k.b, k.c])
          ∧ k.guarded.taken = (if v.gd.ge then match guardOf s.k v.gd.gq with
              | none => .waiting | some b => if b ≠ v.gd.gn then .run else .discard else .run)))

/-- One row of `n` byte-sized elements within one sector of the banks, at offset `lo`. -/
def Sys2Proof.Claims.LocalRow (o : Operand) (n lo : Nat) : Prop :=
  o.bind = none ∧ o.empty = false ∧ rows o = 1 ∧ ext o 0 = n ∧ elemBits (opTy o) % 8 = 0 ∧ o.shape.d0.toNat = 0xC000000000000000 + lo
    ∧ lo % 64 + n * (elemBits (opTy o) / 8) ≤ 64 ∧ lo + n * (elemBits (opTy o) / 8) ≤ 0x30000

/-- Element `j` of such a row. -/
def Sys2Proof.Claims.elementAt (s : State) (b : Nat) (o : Operand) (lo j : Nat) : Nat :=
  leNat (readBytes (s.core b).mem (lo + j * (elemBits (opTy o) / 8)) (elemBits (opTy o) / 8))

/-- The same, or 0 for an operand that the function does not use. -/
def Sys2Proof.Claims.sourceAt (s : State) (b : Nat) (o : Operand) (lo j : Nat) : Nat := if o = noOperand then 0 else elementAt s b o lo j

/-- The result of a function that works by element on integers of `w` bits, without saturation (R167-R170, R175). -/
def Sys2Proof.Claims.intElement (fn : VFn) (w : Nat) (signed : Bool) (p q r : Nat) : Option Nat :=
  let lt := fun (x y : Nat) => if signed then (BitVec.ofNat w x).slt (BitVec.ofNat w y) else decide (x < y)
  let least := fun (x y : Nat) => if lt x y then x else y
  let most := fun (x y : Nat) => if lt x y then y else x
  match fn with
  | .vadd => some ((p + q) % 2 ^ w)
  | .vsub => some ((p + (2 ^ w - q)) % 2 ^ w)
  | .vmul => some (p * q % 2 ^ w)
  | .vfma => some ((p * q + r) % 2 ^ w)
  | .vfms => some ((p * q + (2 ^ w - r)) % 2 ^ w)
  | .vmin => some (least p q)
  | .vmax => some (most p q)
  | .vclamp => some (least (most p q) r)
  | .vand => some (p &&& q)
  | .vor => some (p ||| q)
  | .vxor => some (p ^^^ q)
  | .vnot => some (2 ^ w - 1 - p)
  | .vneg => some ((2 ^ w - p) % 2 ^ w)
  | .vabs => some (if signed ∧ 2 ^ (w - 1) ≤ p then (2 ^ w - p) % 2 ^ w else p)
  | .vshl => some (p * 2 ^ (q % w) % 2 ^ w)
  | .vshr => some (p / 2 ^ (q % w))
  | .vsar => some ((BitVec.ofNat w p).sshiftRight (q % w)).toNat
  | .vsel => some (if r = 0 then q else p)
  | _ => none

/-- A function that gives each element of its destination from the same element of its sources. -/
def Sys2Proof.Claims.byElement (fn : VFn) : Bool := match fn with | .vred | .vscan | .vcount | .vbcst => false | _ => true

/-- R154, R155, R157, R160, R163, R167-R170, R175: an empty queue and a head whose guard is unresolved stay; a discarded head leaves with one event and nothing
written; in one beat a function by element writes each element of its row with the result of the elements read, and no other byte; an integer function
without saturation gives the wrapped result; a command that has finished raises its flags in FPF, writes its register, counts one event and leaves. -/
def Obligations.VectorEngineWritesItsElements : Prop :=
  (∀ (c : Nat) (s : State), (s.core c).vecQ = [] → (Runs (.vectorBeat c) s fun t => t = s) ∧ (Runs (.vectorCommandEnd c) s fun t => t = s))
  ∧ (∀ (c id : Nat) (rest : List Nat) (o : Op) (k : VecCmd) (s : State), (s.core c).vecQ = id :: rest → opById s c id = some o → o.id = id → o.body = .vec k →
    o.ctx < 16 → (∀ e ∈ (s.core c).ctxs, e.2.kept = []) → (∀ a ∈ s.awaiting, a.op ≠ id) → o.cause ≠ .visfail →
    (k.guarded.taken = .waiting → Runs (.vectorBeat c) s fun t => t = s)
    ∧ (k.guarded.taken = .discard → Runs (.vectorBeat c) s fun t => (t.core c).vecQ = rest ∧ opById t c id = none ∧ BytesKept s t
      ∧ (t.ctx c o.ctx).events = Min.min 255 ((s.ctx c o.ctx).events + 1) ∧ (t.ctx c o.ctx).fpf = (s.ctx c o.ctx).fpf)
    ∧ (k.guarded.taken = .run → o.held = false → (vecEmpty k = true ∨ k.pos ≥ vecTotal k) → Runs (.vectorBeat c) s fun t =>
      Event.vectorCommandEnd c ∈ t.events ∧ BytesKept s t)
    ∧ (∀ n ld la lb lc', k.guarded.taken = .run → o.held = false → byElement k.fn = true → k.pos = 0 → 0 < n → vecEmpty k = false → storesBefore s c o = false →
      releaseBefore s c o = false → LocalRow k.d n ld → (k.a = noOperand ∨ LocalRow k.a n la) → (k.v.bs = true ∨ k.b = noOperand ∨ LocalRow k.b n lb) →
      (k.c = noOperand ∨ LocalRow k.c n lc') → k.subst = none → k.undo = [] → dieOf o.bank = dieOf c → (s.core o.bank).windows = [] → (s.core o.bank).rings = [] → (s.core o.bank).dirl = [] →
      (s.core o.bank).bad = [] → (s.core o.bank).inj.mode ≠ 1 → memoriesCanonical s →
      let out := fun (j : Nat) => vecElem k j (sourceAt s o.bank k.a la j)
        (if k.v.bs then k.scalar.toNat % 2 ^ elemBits k.v.ty else sourceAt s o.bank k.b lb j) (sourceAt s o.bank k.c lc' j)
      (∀ j, j < n → (out j).2 &&& (k.fpc.toNat / 8 % 64) = 0) → Runs (.vectorBeat c) s fun t =>
        (∀ j, j < n → elementAt t o.bank k.d ld j = (out j).1 % 2 ^ elemBits (opTy k.d))
        ∧ (∀ x, (x < ld ∨ ld + n * (elemBits (opTy k.d) / 8) ≤ x) → readByte (t.core o.bank).mem x = readByte (s.core o.bank).mem x)
        ∧ (∀ e, e ≠ o.bank → (t.core e).mem = (s.core e).mem) ∧ t.mem = s.mem ∧ Event.vectorCommandEnd c ∈ t.events
        ∧ ∃ p k', opById t c id = some p ∧ p.body = .vec k' ∧ k'.pos = n
          ∧ ∀ b, (BitVec.ofNat 64 k'.flags).getLsbD b = true ↔ b < 64 ∧ ((BitVec.ofNat 64 k.flags).getLsbD b = true ∨ ∃ j, j < n ∧ (out j).2.testBit b = true))
    ∧ (k.guarded.taken = .run → (vecEmpty k = true ∨ k.pos ≥ vecTotal k) → k.v.la = false → k.v.lb = false → k.v.lc = false → Runs (.vectorCommandEnd c) s fun t =>
      (t.core c).vecQ = rest ∧ opById t c id = none ∧ BytesKept s t ∧ (t.ctx c o.ctx).fpf = (s.ctx c o.ctx).fpf ||| BitVec.ofNat 64 k.flags
      ∧ (t.ctx c o.ctx).events = Min.min 255 ((s.ctx c o.ctx).events + 1)
      ∧ (∀ r, r ∉ vecDest k.fn k.v → rd (t.ctx c o.ctx) r = rd (s.ctx c o.ctx) r)
      ∧ ∀ r ∈ vecDest k.fn k.v, ∀ w l, k.part = w :: l → rd (t.ctx c o.ctx) r = if r = 0 then 0 else w))
  ∧ ∀ (k : VecCmd) (i p q r x : Nat), k.v.ty ∈ intTypes → k.v.sat = false →
    let w := elemBits k.v.ty
    p < 2 ^ w → q < 2 ^ w → r < 2 ^ w → intElement k.fn w (k.v.ty ∈ [ElemTy.s8, .s16, .s32, .s64]) p q r = some x → vecElem k i p q r = (x, 0)

/-! ## The matrix unit (R176-R197) -/

/-- The function and fields of a queued matrix command's word (R176, R184). -/
def Sys2Proof.Claims.matForm (i : Instr) : Option (MFn × Mx) :=
  match i with
  | .mma m => some (.mma, m)
  | .mmag m => some (.mmag, m)
  | .mzero m => some (.mzero, m)
  | .msca m => some (.msca, m)
  | .mrd m => some (.mrd, m)
  | _ => none

/-- The handles that a function uses with their types (R184, R185). -/
def Sys2Proof.Claims.matUses (fn : MFn) (m : Mx) : List (HIx × List ElemTy) :=
  match fn with
  | .mma => [(m.ha, [m.ta]), (m.hb, [m.tb])]
  | .mmag => [(m.ha, [m.ta]), (m.hb, [m.tb]), (m.hx, [.n8, .n16, .n32, .s32])]
  | .mzero => []
  | .msca => [(m.hx, [m.ta]), (m.hs, [.f32]), (m.ht, [.f32])]
  | .mrd => [(m.hx, [m.ta])]

/-- R185: the sizes of the operands of an M by N command over K. -/
def Sys2Proof.Claims.MatSizes (fn : MFn) (m : Mx) (o : HIx → Operand) : Prop :=
  let M := m.m.toNat + 1
  let N := m.n.toNat + 1
  let K := m.k.toNat
  let flat := fun (x : Operand) => ext x 2 = 1 ∧ ext x 3 = 1
  let product := K ≤ rowEls (o m.ha) ∧ flat (o m.ha) ∧ N ≤ rowEls (o m.hb) ∧ K ≤ ext (o m.hb) 1 ∧ flat (o m.hb)
  let dest := N ≤ rowEls (o m.hx) ∧ M ≤ ext (o m.hx) 1 ∧ flat (o m.hx)
  match fn with
  | .mma => product ∧ M ≤ ext (o m.ha) 1
  | .mmag => product ∧ M ≤ count (o m.hx)
  | .mzero => True
  | .msca => dest ∧ (count (o m.hs) = M ∨ count (o m.hs) = 1) ∧ (count (o m.ht) = N ∨ count (o m.ht) = 1)
  | .mrd => dest

/-- R148, R176-R178, R180, R184, R185, R191, R192, R366: a queued matrix command of a firing away from home is not issued there; under NBV 1 its t6 operands
are ILL; it waits while the queue holds two; its operands must fit (SHAPE 0) and lie in the own banks outside every window (LADDR), unless one is empty; its
context binds an accumulator slot, and waits for one where none is free, slot 3 being for class 0. MPRI sets the class, no lower than the launch's; MWAIT
waits for the context's matrix commands and acquires.
SHAPE for the reserved TYPE 15 (log 78) and the span of a ring-bound shape (log 75) are the model's. -/
def Obligations.MatrixCommandsAreAcceptedWhole : Prop :=
  (∀ (i : Instr) (fn : MFn) (m : Mx) (s : State), matForm i = some (fn, m) →
    let c := s.cur.1
    let uses := matUses fn m
    let o := captureFlat s s.k
    let os := uses.map fun u => o u.1
    let t6 := (fn = .mma ∨ fn = .mmag) ∧ (m.ta = .t6 ∨ m.tb = .t6) ∧ s.k.nbv = 1
    let held := engineHeld s = true ∨ (s.core c).matQ.length ≥ 2 ∨ ∃ o ∈ s.k.kept, isMat o = true
    let fits := (∀ x ∈ os, nullOperand x = false ∧ typeCode x.shape ≠ 15) ∧ (∀ u ∈ uses, opTy (o u.1) ∈ u.2) ∧ MatSizes fn m o
    let empty := ∃ x ∈ os, x.empty = true
    let marks := ((if m.la then [o m.ha] else []) ++ (if m.lb then [o m.hb] else [])).findSome? (markFault s)
    let class0 := runClass (s.dom (domOf s.k)) = 0
    let mayBind := fun (i : Nat) => i < 4 ∧ (Tbl.read (s.core c).accs i {}).owner = none ∧ (i = 3 → class0)
    let good := empty ∨ (fits ∧ (∀ x ∈ os, liesLocal s c s.cur.2 x = true) ∧ marks = none)
    (t6 → Runs i s (Parks { cause := .ill, einfo := BitVec.ofNat 64 ((encode i).headD 0) } s))
    ∧ (¬ t6 → (∃ h, s.k.away = some h ∧ h.1 ≠ c) → Runs i s fun t => t.k.pc = s.k.pc ∧ t.k.homeOnly = true ∧ t.k.p0halt = true ∧ RegsKept s t [] ∧ BytesKept s t
        ∧ Event.contextSave c s.cur.2 ∈ t.events)
    ∧ (¬ t6 → (∀ h, s.k.away = some h → h.1 = c) →
      (held → Runs i s (Waits s))
      ∧ (¬ held → ¬ empty → ¬ fits → Runs i s (Parks { cause := .shape } s))
      ∧ (¬ held → ¬ empty → fits → ∀ x, os.find? (fun x => !liesLocal s c s.cur.2 x) = some x → Runs i s (Parks { cause := .laddr, eaddr := rowEa x 0 } s))
      ∧ (¬ held → ¬ empty → fits → (∀ x ∈ os, liesLocal s c s.cur.2 x = true) → ∀ p, marks = some p → Runs i s (Parks p s))
      ∧ (¬ held → good → s.k.acc = none → (∀ i, ¬ mayBind i) → Runs i s (Waits s))
      ∧ (¬ held → good → NewName s → (s.k.acc.isSome = true ∨ ∃ i, mayBind i) → Runs i s fun t =>
        t.k.pc = nextPc s.k 12 ∧ RegsKept s t [] ∧ GuardsKept s t [] ∧ BytesKept s t ∧ OthersKept s t
        ∧ (t.core c).matQ = (s.core c).matQ ++ [s.nextId] ∧ Event.matrixSelect (octetOf c) ∈ t.events
        ∧ (∀ h, handleOf t.k h = if h ∈ uses.map (·.1) then advanceHandle (handleOf s.k h) else handleOf s.k h)
        ∧ (∀ i, s.k.acc = some i → t.k.acc = some i ∧ (t.core c).accs = (s.core c).accs)
        ∧ (s.k.acc = none → ∃ i, mayBind i ∧ t.k.acc = some i ∧ Tbl.read (t.core c).accs i {} = { owner := some s.cur.2 }
          ∧ ∀ j, j ≠ i → Tbl.find (t.core c).accs j = Tbl.find (s.core c).accs j)
        ∧ ∃ op k, opById t c s.nextId = some op ∧ op.ctx = s.cur.2 ∧ op.body = .mat k ∧ k.fn = fn ∧ k.m = m ∧ t.k.acc = some k.slot
          ∧ (k.fpc, k.ver, k.cls) = (s.k.fpc, s.k.nbv, s.k.matCls) ∧ ∀ u ∈ uses, o u.1 ∈ [k.a, k.b, k.x, k.s, k.t])))
  ∧ ∀ (s : State),
    (∀ n : BitVec 3, Runs (.mpri n) s fun t => t.k.pc = nextPc s.k 12 ∧ RegsKept s t [] ∧ GuardsKept s t [] ∧ PackageKept s t
      ∧ t.k.matCls = Max.max n.toNat (runClass (s.dom (domOf s.k))) ∧ ContextKept s.k { t.k with matCls := s.k.matCls })
    ∧ ((∃ o ∈ opsOf s s.cur.1 s.cur.2, live o = true ∧ isMat o = true) → Runs .mwait s (Waits s))
    ∧ ((∀ o ∈ opsOf s s.cur.1 s.cur.2, ¬ (live o = true ∧ isMat o = true)) → Runs .mwait s fun t => Quietly 12 s t ∧ t.k.region = s.k.region + 1)

/-- A matrix of single bytes in the banks: rows of `n` at `lo` and every `st` bytes further. -/
def Sys2Proof.Claims.LocalMatrix (o : Operand) (rs n lo st : Nat) : Prop :=
  o.bind = none ∧ o.empty = false ∧ rs ≤ ext o 1 ∧ elemBits (opTy o) = 8 ∧ o.shape.d0.toNat = 0xC000000000000000 + lo ∧ stride o.shape 1 = st
    ∧ lo + (rs - 1) * st + n ≤ 0x30000 ∧ ext o 2 = 1 ∧ ext o 3 = 1

/-- Element of such a matrix as s8. -/
def Sys2Proof.Claims.byteAt (s : State) (b lo st i j : Nat) : Int := (readByte (s.core b).mem (lo + i * st + j)).toInt

/-- Cell of an accumulator slot. -/
def Sys2Proof.Claims.cell (s : State) (c slot i j : Nat) : BitVec 32 := Tbl.read (Tbl.read (s.core c).accs slot {}).cells (i * 64 + j) 0

/-- R181, R182, R186, R188, R190, R195: the idle array takes, of the heads that are ready, the next in turn that has a credit, the credits being given
anew by class where none has any; MZERO zeroes its M by N cells; a k-step of MMA over s8 adds the products to its cells (to zero under Z) modulo 2^32; MRD
writes an s32 row of cells; a head of lower class that became ready later takes the array at a k-step's end, no other does; a completed command raises its
flags in FPF, counts one event, and leaves the array idle. -/
def Obligations.MatrixUnitTurnsAndAccumulates : Prop :=
  (∀ (o : Nat) (s : State), (octet s o).running = none → (∀ p, p < 8 → matHead s (octetCore o p) = none) → Runs (.matrixSelect o) s fun t => t = s)
  ∧ (∀ (o : Nat) (s : State), (octet s o).running = none →
    let ready := (upFrom 0 8).filter fun p => matReady s (octetCore o p)
    let class' := fun (p : Nat) => match matHead s (octetCore o p) with | some (_, k) => effClass s k | none => 8
    let old := fun (p : Nat) => Tbl.read (octet s o).credit p 0
    let credit := fun (p : Nat) => if ready.any (fun p => 0 < old p) then old p else if p ∈ ready then 8 - class' p else old p
    let turn := fun (p : Nat) => (p + 8 - ((octet s o).last + 1) % 8) % 8
    ready ≠ [] → (∀ p q k, p < 8 → matHead s (octetCore o p) = some (q, k) → k.guarded.taken ≠ .discard ∧ k.since.isSome = true ∧ k.cls ≤ 7) →
    Runs (.matrixSelect o) s fun t => ∃ p q k, p ∈ ready ∧ matHead s (octetCore o p) = some (q, k) ∧ 0 < credit p
      ∧ (∀ r ∈ ready, 0 < credit r → turn p ≤ turn r) ∧ (octet t o).running = some (octetCore o p, q.id) ∧ (octet t o).last = p
      ∧ (∀ r, Tbl.read (octet t o).credit r 0 = if r = p ∧ k.overtaken = false then credit r - 1 else credit r)
      ∧ Event.matrixKstep o ∈ t.events ∧ BytesKept s t ∧ (∀ e x, t.ctx e x = s.ctx e x) ∧ (∀ e, (t.core e).matQ = (s.core e).matQ ∧ (t.core e).accs = (s.core e).accs)
      ∧ ∃ q' k', opById t (octetCore o p) q.id = some q' ∧ q'.body = .mat k' ∧ k'.pos = k.pos ∧ k'.aged = matAge s k ∧ k'.since = none)
  ∧ (∀ (o p c : Nat) (q : Op) (k : MatCmd) (s : State), matRunning s o = some (c, q, k) → (k.fn = .mma ∨ k.fn = .mmag) → k.pos ≠ 0 →
    let may := ∃ r l, matHead s (octetCore o p) = some (r, l) ∧ matReady s (octetCore o p) = true ∧ r.id ≠ q.id ∧ r.id ∉ (octet s o).rivals
      ∧ effClass s l < effClass s k
    (¬ may → Runs (.matrixOvertake o p) s fun t => t = s.pushOnce (.matrixKstep o))
    ∧ (may → c ≠ octetCore o p → Runs (.matrixOvertake o p) s fun t => BytesKept s t
      ∧ (octet t o).running = (matHead s (octetCore o p)).map (fun h => (octetCore o p, h.1.id))
      ∧ ∃ q' k', opById t c q.id = some q' ∧ q'.body = .mat k' ∧ k'.overtaken = true ∧ k'.pos = k.pos))
  ∧ (∀ (o c : Nat) (q : Op) (k : MatCmd) (s : State), matRunning s o = some (c, q, k) → k.subst = none → k.rows = none → (∀ e ∈ matSlots k, e.1.empty = false) →
    let M := k.m.m.toNat + 1
    let N := k.m.n.toNat + 1
    (k.fn = .mzero → Runs (.matrixKstep o) s fun t => BytesKept s t ∧ Event.matrixCommandEnd o ∈ t.events
      ∧ ∀ i j, j < 64 → cell t c k.slot i j = if i < M ∧ j < N then 0 else cell s c k.slot i j)
    ∧ (∀ la sa lb sb K, k.fn = .mma → k.m.ta = .s8 → k.m.tb = .s8 → k.m.k.toNat = K → 0 < K → K ≤ 32 → k.pos = 0 → opTy k.a = .s8 → opTy k.b = .s8 →
      LocalMatrix k.a M K la sa → LocalMatrix k.b K N lb sb → (s.core q.bank).bad = [] → (s.core q.bank).rings = [] → Runs (.matrixKstep o) s fun t =>
        BytesKept s t ∧ Event.matrixCommandEnd o ∈ t.events ∧ (∀ i j, i < M → j < N →
          cell t c k.slot i j = BitVec.ofInt 32 ((upFrom 0 K).foldl (fun x e => x + byteAt s q.bank la sa i e * byteAt s q.bank lb sb e j)
            (if k.m.z then 0 else (cell s c k.slot i j).toInt)))
        ∧ ∀ i j, j < 64 → (M ≤ i ∨ N ≤ j) → cell t c k.slot i j = if k.m.z then 0 else cell s c k.slot i j)
    ∧ (∀ lo, k.fn = .mrd → k.m.ta = .s32 → k.m.tb = .s32 → opTy k.x = .s32 → k.pos = 0 → M = 1 → N ≤ 16 → k.x.bind = none → k.x.shape.d0.toNat = 0xC000000000000000 + lo →
      k.undo = [] → lo + 4 * N ≤ 0x30000 → (s.core q.bank).bad = [] → (s.core q.bank).rings = [] → (s.core q.bank).dirl = [] → (s.core q.bank).inj.mode ≠ 1 → memoriesCanonical s →
      Runs (.matrixKstep o) s fun t => Event.matrixCommandEnd o ∈ t.events ∧ (∀ j, j < N → leNat (readBytes (t.core q.bank).mem (lo + 4 * j) 4) = (cell s c k.slot 0 j).toNat)
        ∧ (∀ x, (x < lo ∨ lo + 4 * N ≤ x) → readByte (t.core q.bank).mem x = readByte (s.core q.bank).mem x) ∧ (∀ e, e ≠ q.bank → (t.core e).mem = (s.core e).mem) ∧ t.mem = s.mem))
  ∧ ∀ (o c id : Nat) (rest : List Nat) (q : Op) (k : MatCmd) (s : State), matRunning s o = some (c, q, k) → (s.core c).matQ = id :: rest → q.id = id → q.ctx < 16 →
    matDone k = true → k.m.la = false → k.m.lb = false → q.cause ≠ .visfail → (∀ e ∈ matCtxs s c, e.2.kept = []) →
    Runs (.matrixCommandEnd o) s fun t => (octet t o).running = none ∧ (t.core c).matQ = rest ∧ opById t c id = none ∧ BytesKept s t
      ∧ (t.ctx c q.ctx).fpf = (s.ctx c q.ctx).fpf ||| BitVec.ofNat 64 k.flags ∧ (t.ctx c q.ctx).events = Min.min 255 ((s.ctx c q.ctx).events + 1)
      ∧ ∀ i j, cell t c k.slot i j = cell s c k.slot i j

/-! ## Exchanges and fabric configuration (R258-R260, R268-R286) -/

/-- XSTART's guard, length and registers in its two forms (R282, R283). -/
def Sys2Proof.Claims.exchForm (i : Instr) : Option (Gd × Reg × Reg × Nat) :=
  match i with
  | .xstart a d => some (⟨false, false, 0⟩, a, d, 4)
  | .xstartEcx gd a d => some (gd, a, d, 12)
  | _ => none

/-- The queue of the exchange port is full, or the command waits as every engine command does (R258, R283). -/
def Sys2Proof.Claims.portHeld (s : State) : Prop := engineHeld s = true ∨ (s.core s.cur.1).portQ.length ≥ 2

/-- R269-R272, R283: XSTART waits while the port holds two; an operand that is no aligned local record raises its ALIGN or LADDR; the first wrong field of the
record raises SHAPE with its offset; a list, an index or a base that is not aligned raises ALIGN with it; a second exchange of the context at the record is SHAPE
0x80; a party list that does not hold this core once is SHAPE 0x81, one that holds a core twice SHAPE 0x82; otherwise the exchange enters the port with its
record, its parties and its own number, its reply outstanding. XWAIT waits for it and takes its reply, or the record's result; XSTAT tells STATUS 5, 6 or the record's
result; XCANCEL of none changes nothing. -/
def Sys2Proof.Claims.ExchangesAreAcceptedAndAskedAfter : Prop :=
  (∀ (i : Instr) (gd : Gd) (a d : Reg) (len : Nat) (s : State), exchForm i = some (gd, a, d, len) → Settled s [d, a] →
    let c := s.cur.1
    let b := bankCore s c s.cur.2
    let ea := rd s.k a
    (portHeld s → Runs i s (Waits s))
    ∧ (¬ portHeld s → ∀ p, localSpan s ea 128 = .error p → Runs i s (Parks p s))
    ∧ (¬ portHeld s → Idle s → PlainBanks s b → ∀ off, localSpan s ea 128 = .ok off →
      let r := readBytes (s.core b).mem off 96
      let word := fun (n : Nat) => leWord ((r.drop n).take 8)
      let es := 2 ^ (leNat (r.take 1) % 8)
      let odd := fun (n : Nat) => (word n).toNat % Min.min es 8 ≠ 0
      let np := leNat ((r.drop 4).take 2)
      (∀ n, badField r = some n → Runs i s (Parks { cause := .shape, einfo := BitVec.ofNat 64 n } s))
      ∧ (badField r = none → (word 80).toNat % 4 ≠ 0 → Runs i s (Parks { cause := .align, eaddr := word 80 } s))
      ∧ (badField r = none → (word 80).toNat % 4 = 0 → (word 88).toNat % 4 ≠ 0 → Runs i s (Parks { cause := .align, eaddr := word 88 } s))
      ∧ (badField r = none → (word 80).toNat % 4 = 0 → (word 88).toNat % 4 = 0 → odd 64 → Runs i s (Parks { cause := .align, eaddr := word 64 } s))
      ∧ (badField r = none → (word 80).toNat % 4 = 0 → (word 88).toNat % 4 = 0 → ¬ odd 64 → odd 72 → Runs i s (Parks { cause := .align, eaddr := word 72 } s))
      ∧ (badField r = none → (word 80).toNat % 4 = 0 → (word 88).toNat % 4 = 0 → ¬ odd 64 → ¬ odd 72 →
        ((exchAt s c s.cur.2 off).isSome = true → Runs i s (Parks { cause := .shape, einfo := 0x80 } s))
        ∧ ((exchAt s c s.cur.2 off) = none → ∀ lo, (word 80).toNat = 0xC000000000000000 + lo → lo + 4 * np ≤ 0x30000 →
          let vs := (List.range np).map fun n => leNat (readBytes (s.core b).mem (lo + 4 * n) 4)
          let ps := vs.map (partyCore s s.k)
          (ps.count b ≠ 1 → Runs i s (Parks { cause := .shape, einfo := 0x81 } s))
          ∧ (ps.count b = 1 → ¬ ps.Nodup → Runs i s (Parks { cause := .shape, einfo := 0x82 } s))
          ∧ (partyStop s c b s.k ea r vs ps = none → NewName s → Runs i s fun t =>
            Quietly len s t ∧ (t.core c).portQ = (s.core c).portQ ++ [s.nextId] ∧ Event.exchangeStart c ∈ t.events ∧ (d ≠ 0 → busyReg (opsOf t c s.cur.2) d = true)
            ∧ ∃ e, t.exchs = s.exchs ++ [e] ∧ (e.core, e.op, e.off, e.record, e.parties, e.list) = (c, s.nextId, off, r, ps, vs) ∧ ps[e.me]? = some b
              ∧ e.active = false ∧ (e.pos, e.sent, e.acked, e.rcvd) = (0, 0, 0, 0))))))
  ∧ ∀ (a d : Reg) (s : State), Settled s [d, a] →
    let c := s.cur.1
    let b := bankCore s c s.cur.2
    let ea := rd s.k a
    (ea.toNat % 128 ≠ 0 → ∀ i ∈ [Instr.xwait a d, .xstat a d, .xcancel a], Runs i s (Parks { cause := .align, eaddr := ea } s))
    ∧ ∀ off, ea.toNat = 0xC000000000000000 + off → off % 128 = 0 → off < 0x30000 →
      (∀ e, exchAt s c s.cur.2 off = some e → Runs (.xwait a d) s (Waits s)
        ∧ Runs (.xstat a d) s (Writes 4 d (if e.active then commandReply 5 0 e.rcvd else commandReply 6 0 0) s))
      ∧ (exchAt s c s.cur.2 off = none → Runs (.xcancel a) s (OnlyRetires 4 s)
        ∧ (Idle s → PlainBanks s b →
          let v := leWord (readBytes (s.core b).mem (off + 120) 8)
          (Runs (.xstat a d) s (Writes 4 d v s))
          ∧ (PeerFree s c (Tbl.read (s.core b).xlast off .core) →
            let v := match s.k.xwait with | some (o, some w) => if o = off then w else v | _ => v
            Runs (.xwait a d) s fun t =>
            rd t.k d = (if d = 0 then 0 else v) ∧ RegsKept s t [d] ∧ GuardsKept s t [] ∧ t.k.pc = nextPc s.k 4 ∧ OthersKept s t ∧ BytesKept s t
              ∧ t.k.region = (readReplies s.k [a]).region + BitVec.ofNat 32 (bitN (v.toNat / 2 ^ 56 == 0 || v.toNat / 2 ^ 56 == 3)))))
      ∧ ∀ e o r f g l, exchAt s c s.cur.2 off = some e → e.active = false → Memory.wf (s.core b).mem = true → (∀ q ∈ s.awaiting, q.op ≠ e.op) →
        opById s c e.op = some o → (o.id, o.bank, o.ctx, e.off) = (e.op, b, s.cur.2, off) → o.ctx < 16 → o.body = .exch f r g l → Runs (.xcancel a) s fun t =>
          t.k.pc = nextPc s.k 4 ∧ rd t.k r = (if r = 0 then 0 else commandReply 1 0 0) ∧ RegsKept s t [r] ∧ e.op ∉ (t.core c).portQ ∧ opById t c e.op = none
          ∧ readBytes (t.core b).mem (off + 120) 8 = wordLE (commandReply 1 0 0)

/-- R271: where a distribution of kind BLOCK (0), CYCLIC (1) or BLOCKCYC (2) puts a global index: its owner, its local index, and the owner's extent.
Every index below N has an owner below P, a local index below the owner's extent, and comes back from both. -/
def Sys2Proof.Claims.DistributionsGiveEachIndexOneHome : Prop :=
  ∀ (x : Dist) (g : Nat), x.kind ≤ 2 → 0 < x.p → (x.kind = 2 → 0 < x.b) → g < x.n →
    (ownerOf x g < x.p ∧ localOf x g < localExt x (ownerOf x g) ∧ globalOf x (ownerOf x g) (localOf x g) = g)
    ∧ (x.kind ≠ 0 → let b := if x.kind = 2 then x.b else 1
      ownerOf x g = g / b % x.p ∧ localOf x g = g / (b * x.p) * b + g % b)
    ∧ (x.kind = 0 → ownerOf x g * x.n / x.p ≤ g ∧ g < (ownerOf x g + 1) * x.n / x.p ∧ localOf x g = g - ownerOf x g * x.n / x.p)

/-- An exchange in the hub with its operation. -/
def Sys2Proof.Claims.Running (s : State) (e : Exch) (o : Op) (d : Reg) : Prop :=
  exchById s e.id = some e ∧ opById s e.core e.op = some o ∧ o.id = e.op ∧ o.ctx < 16 ∧ (∃ f g l, o.body = .exch f d g l)
    ∧ (∀ q ∈ s.awaiting, q.op ≠ e.op) ∧ memoriesCanonical s

/-- R273, R275-R277, R280, R283: the port's head waits for its guard and for one of four places, is discarded with STATUS 1, or starts, its record saying so; a
sender whose walk is at its end owes nothing further; a run that has come for no party yet waits; one that fits its party's map is written at its place in a
local piece and counted; an acknowledgement counts at its sender; closing notices and abandonments are noted; a party that has walked, is
acknowledged and paid ends with STATUS 0, or 3 after an abandonment, its count, its record's result and one event. -/
def Sys2Proof.Claims.ExchangesRunAndEnd : Prop :=
  (∀ (c : Nat) (s : State), (s.core c).portQ = [] → Runs (.exchangeStart c) s fun t => t = s)
  ∧ (∀ (c id : Nat) (rest : List Nat) (o : Op) (off : Nat) (d : Reg) (g : Guarded) (l : Bool) (e : Exch) (s : State), (s.core c).portQ = id :: rest →
    opById s c id = some o → o.id = id → o.body = .exch off d g l → (s.exchs.find? fun e => e.core == c && e.op == id && !e.ended) = some e → o.ctx < 16 →
    memoriesCanonical s → (∀ q ∈ s.awaiting, q.op ≠ id) →
    let full := (s.exchs.filter fun q => q.active && q.core == c).length ≥ 4
    (g.taken = .waiting ∨ (g.taken = .run ∧ full) → Runs (.exchangeStart c) s fun t => t = s)
    ∧ (g.taken = .discard → Runs (.exchangeStart c) s fun t => opById t c id = none ∧ id ∉ (t.core c).portQ
      ∧ rd (t.ctx c o.ctx) d = (if d = 0 then 0 else commandReply 1 0 0) ∧ readBytes (t.core o.bank).mem (e.off + 120) 8 = wordLE (commandReply 1 0 0)
      ∧ (t.ctx c o.ctx).events = Min.min 255 ((s.ctx c o.ctx).events + 1))
    ∧ (g.taken = .run → ¬ full → vectorsBefore s c o = false → releaseBefore s c o = false → xAcq e.record = false → Runs (.exchangeStart c) s fun t => (t.core c).portQ = rest
      ∧ Event.exchangeRun e.id ∈ t.events ∧ (∃ f ∈ t.exchs, f.id = e.id ∧ f.active = true ∧ f.record = e.record ∧ f.parties = e.parties)
      ∧ readBytes (t.core o.bank).mem (e.off + 120) 8 = wordLE (commandReply 5 0 0)))
  ∧ (∀ (e : Exch) (o : Op) (d : Reg) (s : State), Running s e o d →
    (e.walked = true ∨ o.held = true → Runs (.exchangeRun e.id) s fun t => t = s)
    ∧ (e.walked = false → o.held = false → storesBefore s e.core o = false → vectorsBefore s e.core o = false → xIndexed e.record = false →
      product (srcExts e.record e.me) ≤ e.pos → Runs (.exchangeRun e.id) s fun t => BytesKept s t ∧ Event.exchangeEnd e.id ∈ t.events
        ∧ ∃ f ∈ t.exchs, f.id = e.id ∧ f.walked = true ∧ f.sent = e.sent)
    ∧ (e.failed = none → o.cause ≠ .visfail → (e.walked = false ∨ e.acked ≠ e.sent ∨ ((∀ f g, o.body ≠ .exch f d g true) ∧ paidUp e = false)) →
      Runs (.exchangeEnd e.id) s fun t => t = s)
    ∧ (e.walked = true → e.acked = e.sent → paidUp e = true → e.failed = none → o.cause ≠ .visfail → xRel e.record = false → (∀ f g, o.body ≠ .exch f d g true) →
      e.off + 128 ≤ 0x30000 →
      let r := commandReply (if e.abandoned = [] then 0 else 3) ((e.abandoned.head?.map (·.2)).getD 0) e.rcvd
      Runs (.exchangeEnd e.id) s fun t => opById t e.core e.op = none ∧ (∀ f ∈ t.exchs, f.id ≠ e.id) ∧ rd (t.ctx e.core o.ctx) d = (if d = 0 then 0 else r)
        ∧ readBytes (t.core o.bank).mem (e.off + 120) 8 = wordLE r ∧ readBytes (t.core o.bank).mem (e.off + 104) 8 = natLE 8 e.rcvd
        ∧ readBytes (t.core o.bank).mem (e.off + 112) 8 = natLE 8 e.sent ∧ (t.ctx e.core o.ctx).events = Min.min 255 ((s.ctx e.core o.ctx).events + 1)))
  ∧ (∀ (m : XMsg) (s : State), xmsgById s m.id = some m →
    (receiver s m = none → (Runs (.exchangeRunDeliver m.id) s fun t => BytesKept s t ∧ t.xmsgs = s.xmsgs ∧ Event.exchangeRunDeliver m.id ∈ t.events)
      ∧ (Runs (.closingNotice m.id) s fun t => t.xmsgs = s.xmsgs ∧ Event.closingNotice m.id ∈ t.events)
      ∧ Runs (.abandonment m.id) s fun t => t.xmsgs = s.xmsgs ∧ Event.abandonment m.id ∈ t.events)
    ∧ ∀ (e : Exch) (o : Op) (d : Reg), receiver s m = some e → Running s e o d →
      (∀ lo, e.failed = none → e.ended = false → sameMap m e = true → m.n = m.bytes.length → m.doff + m.n ≤ xEs e.record * product (dstExts e.record e.me) →
        o.held = false → (xBase e.record true + BitVec.ofNat 64 m.doff).toNat = 0xC000000000000000 + lo → lo % 64 + m.n ≤ 64 → lo + m.n ≤ 0x30000 →
        dieOf o.bank = dieOf e.core → (s.core o.bank).windows = [] → (s.core o.bank).rings = [] → (s.core o.bank).dirl = [] → (s.core o.bank).bad = [] → (s.core o.bank).inj.mode ≠ 1 →
        Runs (.exchangeRunDeliver m.id) s fun t => readBytes (t.core o.bank).mem lo m.n = m.bytes
          ∧ (∀ x, (x < lo ∨ lo + m.n ≤ x) → readByte (t.core o.bank).mem x = readByte (s.core o.bank).mem x) ∧ (∀ c, c ≠ o.bank → (t.core c).mem = (s.core c).mem)
          ∧ Event.exchangeAck m.id ∈ t.events ∧ ∃ f ∈ t.exchs, f.id = e.id ∧ f.rcvd = e.rcvd + m.n)
      ∧ (e.failed.isSome = true → Runs (.exchangeRunDeliver m.id) s fun t => BytesKept s t ∧ Event.exchangeAck m.id ∈ t.events)
      ∧ (behindRuns s m = false → m.src / 8192 = 0 → e.ended = false →
        (Runs (.closingNotice m.id) s fun t => BytesKept s t ∧ m.id ∉ t.xmsgs.map (·.id) ∧ ∃ f ∈ t.exchs, f.id = e.id
            ∧ (m.rel = false → Tbl.find f.debt m.fromP = some m.n) ∧ (m.rel = true → f.debt = e.debt ∧ m.fromP ∈ f.released))
        ∧ Runs (.abandonment m.id) s fun t => BytesKept s t ∧ m.id ∉ t.xmsgs.map (·.id) ∧ ∃ f ∈ t.exchs, f.id = e.id ∧ f.abandoned = e.abandoned ++ [(m.fromP, m.cause)]))
  ∧ ∀ (m : XMsg) (e : Exch) (s : State), xmsgById s m.id = some m → (∀ r, receiver s m = some r → ∀ a ∈ s.awaiting, ¬ (a.core = r.core ∧ a.op = r.op)) →
    m.src / 8192 = 0 → (s.exchs.find? fun e => (e.active || e.ended) && e.op == m.sop) = some e → Runs (.exchangeAck m.id) s fun t =>
      BytesKept s t ∧ m.id ∉ t.xmsgs.map (·.id) ∧ Event.exchangeEnd e.id ∈ t.events ∧ ∃ f ∈ t.exchs, f.id = e.id ∧ f.acked = e.acked + m.n

/-- R258-R260: MCWR and ACLWR in supervisor code wait while the port holds two or another is outstanding; a reserved bit set, or an empty entry, is FABNACK with
reason 6; otherwise they enter the port with their operands, ACLWR with its record's four double words, and their reply is outstanding. -/
def Sys2Proof.Claims.ConfigurationWritesEnterThePort : Prop :=
  ∀ (b a d : Reg) (s : State), isSuper s s.k = true → Settled s [d, a, b] →
    let c := s.cur.1
    let va := rd s.k a
    let vb := rd s.k b
    let ops := opsOf s c s.cur.2
    let held := acqPending ops = true ∨ (s.core c).portQ.length ≥ 2 ∨ ¬ (s.core c).ops.length + 1 ≤ 64 ∨ configPending ops = true
    let enters := fun (acl : Bool) (dat : List Word) (t : State) =>
      Quietly 4 s t ∧ (t.core c).portQ = (s.core c).portQ ++ [s.nextId] ∧ Event.exchangeStart c ∈ t.events ∧ (d ≠ 0 → busyReg (opsOf t c s.cur.2) d = true)
        ∧ ∃ o, opById t c s.nextId = some o ∧ o.body = .config acl va vb dat d
    (held → Runs (.mcwr b a d) s (Waits s) ∧ Runs (.aclwr b a d) s (Waits s))
    ∧ (¬ held → field va 9 8 = 3 ∨ field va 11 10 ≠ 0 ∨ field va 63 24 ≠ 0 ∨ field vb 63 18 ≠ 0 → Runs (.mcwr b a d) s (Parks { cause := .fabnack, einfo := 6 } s))
    ∧ (¬ held → field va 9 8 ≠ 3 → field va 11 10 = 0 → field va 63 24 = 0 → field vb 63 18 = 0 → NewName s → Runs (.mcwr b a d) s (enters false []))
    ∧ (¬ held → field vb 63 14 ≠ 0 ∨ field vb 7 0 = 0 → Runs (.aclwr b a d) s (Parks { cause := .fabnack, einfo := 6 } s))
    ∧ ∀ x lo, ¬ held → field vb 63 14 = 0 → field vb 7 0 ≠ 0 → Idle s → PlainBanks s x → va.toNat = 0xC000000000000000 + lo → lo % 8 = 0 → lo + 32 ≤ 0x30000 →
      let w := fun (n : Nat) => leWord (readBytes (s.core x).mem (lo + 8 * n) 8)
      let bad := field (w 2) 15 12 ≠ 0 ∨ field (w 2) 31 28 ≠ 0 ∨ field (w 2) 38 37 ≠ 0 ∨ field (w 2) 63 40 ≠ 0 ∨ w 3 ≠ 0
        ∨ field (w 2) 11 0 > field (w 2) 27 16 ∨ ((w 0).toNat > (w 1).toNat ∧ (w 2).getLsbD 39 = true)
      (bad → Runs (.aclwr b a d) s (Parks { cause := .fabnack, einfo := 6 } s))
      ∧ (¬ bad → Runs (.aclwr b a d) s (enters true [w 0, w 1, w 2, w 3]))

/-! ## Levels, messages and firings (R295, R308-R332, R344, R359) -/

/-- A level as LVRD gives it (R328): level, step in [47:32], finished in [48]. -/
def Sys2Proof.Claims.levelOf (t : BitVec 32) (d : Nat) (fin : Bool) : Word := BitVec.ofNat 64 (t.toNat + d % 65536 * 2 ^ 32 + bitN fin * 2 ^ 48)

/-- The block of the firing that issues. -/
def Sys2Proof.Claims.ownBlockOf (s : State) : Option (Nat × Block) := s.k.work.bind (ownBlock s)

/-- An actor of this package holds block `v` of a domain (R336). -/
def Sys2Proof.Claims.Here (s : State) (d : Dom) (v : Nat) : Prop := isMine s d (Tbl.read d.actors (Tbl.read d.blocks v {}).actor {}) = true

/-- A domain stands on this package alone (R336). -/
def Sys2Proof.Claims.Alone (s : State) (g : Nat) : Prop := ∀ p ∈ (s.dom g).pkgs, p = s.pkid

/-- R328-R330: LVRD reads the nadir, the own block (SHAPE 0xA0 without one), a neighbour by its edge register or a block by its number, as an acquire but for its
own (a block that another package holds is in PeerMessagesReachTheirUnits), and raises SHAPE 0xA2 past the last; LVSTEP records a step of at most 65535, and raises STEPALIGN 1 above it; LVBIND refuses an address that is no
multiple of 64, a table for another number of blocks (0xA4), a reserved bit or an absent neighbour (0xA5), and a domain that is not frozen (0xA1), and gives
every block the enabled edges of its row at their neighbours' committed values, 0 in D for a nested table and 1 for another. -/
def Obligations.LevelFunctionsReadAndBind : Prop :=
  (∀ (a d : Reg) (s : State), Settled s [d, a] →
    let g := s.dom (domOf s.k)
    let v := (rd s.k a).toNat
    let acquired := fun (w : Word) (t : State) => rd t.k d = (if d = 0 then 0 else w) ∧ RegsKept s t [d] ∧ GuardsKept s t [] ∧ t.k.pc = nextPc s.k 4
      ∧ t.k.region = (readReplies s.k [a]).region + 1 ∧ OthersKept s t ∧ BytesKept s t
    (v = 2 ^ 64 - 2 → Runs (.lvrd a d) s (Writes 4 d (g.nadir.setWidth 64) s))
    ∧ (v = 2 ^ 64 - 1 → ownBlockOf s = none → Runs (.lvrd a d) s (Parks { cause := .shape, einfo := 0xA0 } s))
    ∧ (∀ j b, v = 2 ^ 64 - 1 ∨ (v = j ∧ v < g.nblk ∧ v < 2 ^ 64 - 2) → ownBlockOf s = some (j, b) → Runs (.lvrd a d) s (Writes 4 d (levelOf b.t b.d b.fin) s))
    ∧ (v < 2 ^ 64 - 2 → g.nblk ≤ v → Runs (.lvrd a d) s (Parks { cause := .shape, einfo := 0xA2 } s))
    ∧ (v < g.nblk → v < 2 ^ 64 - 2 → PeerFree s s.cur.1 g.scope → (∀ j b, ownBlockOf s = some (j, b) → j ≠ v) →
      (∀ j b e, ownBlockOf s = some (j, b) → b.edges.find? (fun e => e.j == v) = some e → Runs (.lvrd a d) s (acquired (levelOf e.lvl e.step e.fin)))
      ∧ ((∀ j b, ownBlockOf s = some (j, b) → b.edges.find? (fun e => e.j == v) = none) → Here s g v →
        let b := Tbl.read g.blocks v {}
        Runs (.lvrd a d) s (acquired (levelOf b.t b.d b.fin)))))
  ∧ (∀ (a : Reg) (s : State), Settled s [a] →
    (ownBlockOf s = none → Runs (.lvstep a) s (Parks { cause := .shape, einfo := 0xA0 } s))
    ∧ (∀ b, ownBlockOf s = some b → 65535 < (rd s.k a).toNat → Runs (.lvstep a) s (Parks { cause := .stepalign, einfo := 1 } s))
    ∧ ∀ b, ownBlockOf s = some b → (rd s.k a).toNat ≤ 65535 → Runs (.lvstep a) s fun t => t.k.lvstep = some (rd s.k a).toNat ∧ RegsKept s t [] ∧ GuardsKept s t []
      ∧ ContextKept s.k { t.k with lvstep := s.k.lvstep } ∧ Retires 4 s t)
  ∧ ∀ (a d : Reg) (s : State) (x lo : Nat), Settled s [d, a] →
    let g := s.dom (domOf s.k)
    let n := g.nblk
    let w := fun (i : Nat) => leWord (readBytes (s.core x).mem (lo + 8 * i) 8)
    let row := fun (j e : Nat) => w (8 + 8 * j + e)
    let odd := fun (v : Word) => field v 63 48 ≠ 0 ∨ field v 31 22 ≠ 0 ∨ (v.getLsbD 21 = true ∧ n ≤ field v 19 0)
    let bad := field (w 0) 63 20 ≠ 0 ∨ (∃ i, 1 ≤ i ∧ i < 8 ∧ w i ≠ 0) ∨ ∃ j e, j < n ∧ e < 8 ∧ odd (row j e)
    ((rd s.k a).toNat % 64 ≠ 0 → Runs (.lvbind a d) s (Parks { cause := .align, eaddr := rd s.k a } s))
    ∧ (Idle s → PlainBanks s x → (rd s.k a).toNat = 0xC000000000000000 + lo → lo % 64 = 0 → lo + 64 * (n + 1) ≤ 0x30000 →
      (field (w 0) 19 0 ≠ n → Runs (.lvbind a d) s (Parks { cause := .shape, einfo := 0xA4 } s))
      ∧ (field (w 0) 19 0 = n → bad → Runs (.lvbind a d) s (Parks { cause := .shape, einfo := 0xA5 } s))
      ∧ (field (w 0) 19 0 = n → ¬ bad → g.frozen = false → Runs (.lvbind a d) s (Parks { cause := .shape, einfo := 0xA1 } s))
      ∧ (field (w 0) 19 0 = n → ¬ bad → g.frozen = true → Alone s (domOf s.k) → levelsOnWay s (domOf s.k) = false → untold s (domOf s.k) = false → Runs (.lvbind a d) s fun t =>
        RegsKept s t [d] ∧ GuardsKept s t [] ∧ t.k.pc = nextPc s.k 4 ∧ BytesKept s t
        ∧ rd t.k d = (if d = 0 then 0 else if isNested (t.dom (domOf s.k)).blocks then 0 else 1)
        ∧ ∀ j b, Tbl.find g.blocks j = some b → j < n → ∃ b', Tbl.find (t.dom (domOf s.k)).blocks j = some b' ∧ { b' with edges := b.edges } = b
          ∧ b'.edges = (((upFrom 0 8).map (row j)).filter fun v => v.getLsbD 21).map fun v =>
              let m := Tbl.read g.blocks (field v 19 0) {}
              { a := (BitVec.ofNat 16 (field v 47 32)).toInt, s := v.getLsbD 20, j := field v 19 0, lvl := m.t, step := m.d, fin := m.fin }))

/-- The context is home to an actor of the domain, which runs nowhere else and stands in no save slot (R366). -/
def Sys2Proof.Claims.AtHome (s : State) (c x g : Nat) : Prop :=
  (∃ a, (s.ctx c x).home = some (g, some a)) ∧ (s.die (dieOf c)).slots = [] ∧ ∀ e ∈ s.cores, ∀ k ∈ e.2.ctxs, k.2.away = none

/-- R324, R331, R332, R359: LVSEND of an operand that is not 64 aligned local bytes, or to no core of an actor of the domain, parks; its message is on its way with
its level's stamp, and the context goes on once it has been accepted, by one of 28 entries with an event, or waits for one; LVRECV takes the message
of lowest stamp against the nadir, writes its 64 bytes and its word, or gives 0; a supervisor's waiting messages enter its four entries in order and dispatch it. -/
def Obligations.MessagesAreSentAcceptedAndTaken : Prop :=
  (∀ (b a : Reg) (s : State) (off x y : Nat), Settled s [b, a] → s.k.away = none →
    let c := s.cur.1
    let g := domOf s.k
    let dst := rd s.k b
    let n := field dst 3 0
    let covered := coveredBy s c s.cur.2 (opsOf s c s.cur.2) (rd s.k a) 64
    (∀ p, localSpan s (rd s.k a) 64 = .error p → Runs (.lvsend b a) s (Parks p s))
    ∧ (localSpan s (rd s.k a) 64 = .ok off → covered = true → Runs (.lvsend b a) s (Waits s))
    ∧ (localSpan s (rd s.k a) 64 = .ok off → covered = false → coreNamed s dst = none → Runs (.lvsend b a) s (Parks { cause := .laddr, eaddr := dst } s))
    ∧ (localSpan s (rd s.k a) 64 = .ok off → covered = false → coreNamed s dst = some (0, x, y) → field dst 17 4 = 0 → s.coreExists x y = true →
      (s.k.sending = false → holdsActor s g (y * 128 + x) n = false → Runs (.lvsend b a) s (Parks { cause := .laddr, eaddr := dst, einfo := 0xA3 } s))
      ∧ (s.k.sending = false → holdsActor s g (y * 128 + x) n = true → PeerFree s c (s.dom g).scope → releaseReady (opsOf s c s.cur.2) s.nextId (s.dom g).scope = true →
        Runs (.lvsend b a) s fun t => t.k.pc = s.k.pc ∧ RegsKept s t [] ∧ BytesKept s t ∧ t.k.sending = true ∧ Event.inboxMessage s.nextId ∈ t.events
          ∧ ∃ m, t.lmsgs = s.lmsgs ++ [(s.nextId, m)] ∧ (m.core, m.ctx, m.dom, m.src, m.srcCtx) = (y * 128 + x, n, g, c, s.cur.2) ∧ m.bytes = localBytes s off 64
            ∧ ∀ w, s.k.work = some w → m.stamp = match ownBlock s w with | some _ => w.t + BitVec.ofNat 32 w.d | none => (s.dom g).nadir)
      ∧ (s.k.sending = true → unsentMsg s c s.cur.2 g = true → Runs (.lvsend b a) s (Waits s))
      ∧ (s.k.sending = true → unsentMsg s c s.cur.2 g = false → Runs (.lvsend b a) s fun t => Quietly 4 s t ∧ t.k.sending = false)))
  ∧ (∀ (id : Nat) (s : State), ((∀ m ∈ s.lmsgs, m.1 ≠ id) → Runs (.inboxMessage id) s fun t => t = s)
    ∧ ∀ m, s.lmsgs.find? (fun m => m.1 == id) = some (id, m) →
      (28 ≤ (s.core m.core).inbox.length → Runs (.inboxMessage id) s fun t => t.lmsgs = s.lmsgs ∧ (∀ c, (t.core c).inbox = (s.core c).inbox) ∧ Event.inboxMessage id ∈ t.events)
      ∧ ((s.core m.core).inbox.length < 28 → m.src / 8192 = 0 → Runs (.inboxMessage id) s fun t => (t.core m.core).inbox = (s.core m.core).inbox ++ [m]
        ∧ t.lmsgs = s.lmsgs.filter (fun q => q.1 != id) ∧ BytesKept s t ∧ (AtHome s m.core m.ctx m.dom → (t.ctx m.core m.ctx).events = Min.min 255 ((s.ctx m.core m.ctx).events + 1))))
  ∧ (∀ (a d : Reg) (s : State) (off : Nat), Settled s [d, a] → s.k.away = none → localSpan s (rd s.k a) 64 = .ok off →
    let c := s.cur.1
    let g := domOf s.k
    let mine := (s.core c).inbox.filter fun m => m.ctx == s.cur.2 && m.dom == g
    let N := (s.dom g).nadir
    (mine = [] → Runs (.lvrecv a d) s (Writes 4 d 0 s))
    ∧ (mine ≠ [] → PeerFree s c (s.dom g).scope → Idle s → PlainBanks s c → Runs (.lvrecv a d) s fun t =>
      ∃ m i, mine[i]? = some m ∧ (∀ (j : Nat) (q : LMsg), mine[j]? = some q → wrapdiff m.stamp N ≤ wrapdiff q.stamp N ∧ (wrapdiff q.stamp N = wrapdiff m.stamp N → i ≤ j))
        ∧ rd t.k d = (if d = 0 then 0 else BitVec.ofNat 64 (2 ^ 63 + m.srcCtx % 16 * 2 ^ 57 + m.src * 2 ^ 32 + m.stamp.toNat)) ∧ RegsKept s t [d]
        ∧ (m.bytes.length = 64 → readBytes (t.core c).mem off 64 = m.bytes ∧ ∀ x, (x < off ∨ off + 64 ≤ x) → readByte (t.core c).mem x = readByte (s.core c).mem x)
        ∧ (t.core c).inbox = (s.core c).inbox.erase m ∧ t.k.pc = nextPc s.k 4 ∧ (∀ e, e ≠ c → (t.core e).mem = (s.core e).mem) ∧ t.mem = s.mem))
  ∧ ∀ (g : Nat) (d : Dom) (w : Actor) (s : State), s.dom? g = some d → Tbl.find d.actors d.super = some w → isMine s d w = true →
    let held := (s.core w.core).smsgs.filter fun m => m.1 == g
    Runs (.supervisorMessage g) s fun t => (t.core w.core).smsgs = (s.core w.core).smsgs ++ (d.waitMsgs.take (4 - held.length)).map (fun m => (g, m))
      ∧ (t.dom g).waitMsgs = d.waitMsgs.drop (4 - held.length) ∧ Event.firingDispatch g d.super ∈ t.events ∧ BytesKept s t

/-- A firing of actor `a` of domain `g` in context `(c, x)` that can commit: its block, its step, nothing pending on rings, nothing outstanding, at home. -/
def Sys2Proof.Claims.MayCommit (s : State) (c x : Nat) (w : Work) (a j : Nat) (b : Block) (v : Actor) : Prop :=
  let k := s.ctx c x
  k.work = some w ∧ w.task = none ∧ w.actor = some a ∧ k.away = none ∧ drained (opsOf s c x) = true ∧ k.handles = [] ∧ k.acc = none ∧ k.sending = false
    ∧ Tbl.find (s.dom w.dom).actors a = some v ∧ v.block = some j ∧ Tbl.find (s.dom w.dom).blocks j = some b
    ∧ (∀ e ∈ (s.dom w.dom).blocks, isMine s (s.dom w.dom) (Tbl.read (s.dom w.dom).actors e.2.actor {}) = true)
    ∧ s.awaiting.any (fun q => q.core == c && q.op == syncId x) = false ∧ PeerFree s c (s.dom w.dom).scope ∧ releaseReady (opsOf s c x) s.nextId (s.dom w.dom).scope = true
    ∧ s.dom? w.dom ≠ none

/-- What a commit leaves: the block at its target level with the given step, finished by a step of 0, its buffers exchanged; its level told along every enabled
edge out of it; the context idle, the actor free to fire again, one item more done. -/
def Sys2Proof.Claims.Committed (s t : State) (c x : Nat) (w : Work) (a j : Nat) (b : Block) (step : Nat) : Prop :=
  let d := if step = 0 then b.d else step
  Tbl.find (t.dom w.dom).blocks j = some { b with t := w.t + BitVec.ofNat 32 w.d, d := d, fin := b.fin || step == 0, x := b.y, y := b.x }
    ∧ (∀ i q, i ≠ j → Tbl.find (s.dom w.dom).blocks i = some q → Tbl.find (t.dom w.dom).blocks i = some q)
    ∧ (∀ i q n e, Tbl.find (t.dom w.dom).blocks i = some q → q.edges[n]? = some e → e.j = j →
        Event.levelNotification w.dom i n (w.t + BitVec.ofNat 32 w.d) d (b.fin || step == 0) ∈ t.events)
    ∧ (t.ctx c x).status = .idle ∧ (t.ctx c x).work = none ∧ (t.ctx c x).home = (s.ctx c x).home ∧ (∀ r : Reg, r.toNat < 8 → rd (t.ctx c x) r = rd (s.ctx c x) r)
    ∧ (Tbl.find (t.dom w.dom).actors a).map (·.running) = some false ∧ (t.dom w.dom).ndone = (s.dom w.dom).ndone + 1 ∧ BytesKept s t

/-- R317, R323, R327: FEND in a task is ILL; it waits until everything of the firing has ended; a new step that does not divide the level is STEPALIGN 2; then it
commits, at once or, after a wait, by its move. -/
def Sys2Proof.Claims.FendCommitsTheFiring : Prop :=
  ∀ (s : State) (w : Work),
    (s.k.work = some w → w.task.isSome = true → Runs .fend s (Parks { cause := .ill, einfo := BitVec.ofNat 64 ((encode .fend).headD 0) } s))
    ∧ (s.k.work = some w → w.task = none → drained (opsOf s s.cur.1 s.cur.2) = false → Runs .fend s fun t => Waits s t ∧ Event.fendCommit s.cur.1 s.cur.2 ∈ t.events)
    ∧ (∀ a j b v n, MayCommit s s.cur.1 s.cur.2 w a j b v → s.k.lvstep = some n → n ≠ 0 → (w.t + BitVec.ofNat 32 w.d).toNat % n ≠ 0 →
      Runs .fend s (Parks { cause := .stepalign, einfo := 2 } s))
    ∧ (∀ a j b v, MayCommit s s.cur.1 s.cur.2 w a j b v → stepFault (s.dom w.dom) j b w (s.k.lvstep.getD w.d) = none →
      Runs .fend s fun t => Committed s t s.cur.1 s.cur.2 w a j b (s.k.lvstep.getD w.d))
    ∧ ∀ c x,
      (instrAt s c x ≠ some .fend → Runs (.fendCommit c x) s fun t => t = s)
      ∧ ∀ a j b v, MayCommit s c x w a j b v → stepFault (s.dom w.dom) j b w ((s.ctx c x).lvstep.getD w.d) = none → instrAt s c x = some .fend →
        (s.ctx c x).status = .ready → (s.ctx c x).pend = none → (s.ctx c x).dhalt = false → (s.ctx c x).frozenHalt = false →
        Runs (.fendCommit c x) s fun t => Committed s t c x w a j b ((s.ctx c x).lvstep.getD w.d)

/-- R112, R295, R312, R313, R315-R318, R325, R344: a level notification counts in its edge, whose register takes a later level; a gate that holds has its firing
dispatched; a runnable firing whose estimate the reservoir admits begins at its entry with its arguments, window and guards as R313 says, and one that is not
runnable, or not admitted, does not begin; the nadir moves up to the least level, stamp or message that it covers, never down; a domain that stands on this package alone and is quiescent
for 10 us with an unfinished block tells its supervisor once. -/
def Sys2Proof.Claims.FiringsBeginWhenTheirGatesHold : Prop :=
  (∀ (g b i : Nat) (lvl : BitVec 32) (step : Nat) (fin : Bool) (s : State) (d : Dom) (k : Block) (e : Edge), s.dom? g = some d → Tbl.find d.blocks b = some k →
    k.edges[i]? = some e →
    let later := 0 < wrapdiff lvl e.lvl
    Runs (.levelNotification g b i lvl step fin) s fun t => BytesKept s t ∧ Event.gateEvaluate g b ∈ t.events
      ∧ Tbl.find (t.dom g).blocks b = some { k with edges := k.edges.set i { e with
          count := e.count + 1, lvl := (if later then lvl else e.lvl), step := (if later then step else e.step), fin := (if later then fin else e.fin) } }
      ∧ let w := Tbl.read d.actors k.actor {}
        AtHome s w.core w.ctx g → (s.ctx w.core w.ctx).home = some (g, some k.actor) →
          (t.ctx w.core w.ctx).events = Min.min 255 ((s.ctx w.core w.ctx).events + 1))
  ∧ (∀ (g b : Nat) (s : State), let a := (Tbl.read (s.dom g).blocks b {}).actor
    (runnable s g a = true → Runs (.gateEvaluate g b) s fun t => Event.firingDispatch g a ∈ t.events ∧ t.cores = s.cores ∧ t.doms = s.doms)
    ∧ (runnable s g a = false → Runs (.gateEvaluate g b) s fun t => t.cores = s.cores ∧ BytesKept s t))
  ∧ (∀ (g a : Nat) (d : Dom) (w : Actor) (s : State), s.dom? g = some d → Tbl.find d.actors a = some w →
    (runnable s g a = false → Runs (.firingDispatch g a) s fun t => t.cores = s.cores ∧ BytesKept s t)
    ∧ (runnable s g a = true → runClass d ≠ 0 → (s.carried ≠ 0 ∨ s.reservoir < w.est) → Runs (.firingDispatch g a) s fun t => t = s)
    ∧ (runnable s g a = true → (runClass d = 0 ∨ (s.carried = 0 ∧ w.est ≤ s.reservoir)) → w.again = none → a ≠ d.super → PeerFree s w.core d.scope →
      let b := w.block.map fun j => (j, Tbl.read d.blocks j {})
      Runs (.firingDispatch g a) s fun t => let k := t.ctx w.core w.ctx
        k.status = .ready ∧ k.pc = w.entry ∧ k.depth = 0 ∧ k.frames = [] ∧ k.region = 0 ∧ (∀ q : QIx, q ≠ 0 → guardOf k q = none) ∧ BytesKept s t
        ∧ (∀ r : Reg, r.toNat < 8 → rd k r = rd (s.ctx w.core w.ctx) r) ∧ rd k 8 = w.wid
        ∧ rd k 9 = (match b with | some (j, _) => BitVec.ofNat 64 j | none => BitVec.allOnes 64)
        ∧ rd k 10 = (match b with | some (_, b) => b.t.setWidth 64 | none => 0) ∧ rd k 11 = (match b with | some (_, b) => BitVec.ofNat 64 b.d | none => 0)
        ∧ rd k 12 = BitVec.ofNat 64 (a % 2 * 2 ^ 31 + w.fired % 2 ^ 30) ∧ (rd k 13, rd k 14, rd k 15) = (w.args.getD 0 0, w.args.getD 1 0, w.args.getD 2 0)
        ∧ (∀ r : Reg, 16 ≤ r.toNat → rd k r = 0) ∧ gtidOf k = BitVec.ofNat 64 (g * 2 ^ 48 + a % 2 ^ 17 * 2 ^ 31 + w.fired % 2 ^ 30)
        ∧ (Tbl.find (t.dom g).actors a).map (fun v => (v.running, v.fired)) = some (true, w.fired + 1)
        ∧ (runClass d ≠ 0 → t.reservoir = s.reservoir - w.est)))
  ∧ (∀ (g : Nat) (d : Dom) (s : State), s.dom? g = some d → Alone s g → Runs (.nadirRefresh g) s fun t =>
    let vs := nadirValues s g
    BytesKept s t ∧ t.cores = s.cores ∧ (vs = [] → (t.dom g).nadir = d.nadir)
    ∧ (vs ≠ [] → ∃ v ∈ vs, (∀ u ∈ vs, wrapdiff v d.nadir ≤ wrapdiff u d.nadir) ∧ (t.dom g).nadir = if 0 ≤ wrapdiff v d.nadir then v else d.nadir))
  ∧ ∀ (g : Nat) (s : State), ((s.dom? g = none ∨ (s.dom g).quiet = none) → Runs (.lvstall g) s fun t => t = s)
    ∧ ∀ d q, s.dom? g = some d → d.quiet = some q →
      (quiescent s g = true → s.time < q + 13000 → Runs (.lvstall g) s fun t => BytesKept s t ∧ (t.dom g).waitMsgs = d.waitMsgs ∧ Event.lvstall g ∈ t.events)
      ∧ (quiescent s g = false → Runs (.lvstall g) s fun t => BytesKept s t ∧ t.cores = s.cores ∧ (t.dom g).quiet = none ∧ (t.dom g).waitMsgs = d.waitMsgs)
      ∧ (quiescent s g = true → q + 13000 ≤ s.time → (d.lvArmed = false ∨ blocksDone d = true) → Runs (.lvstall g) s fun t => t = s)
      ∧ (quiescent s g = true → q + 13000 ≤ s.time → d.lvArmed = true → blocksDone d = false → Alone s g → isMine s d (Tbl.read d.actors d.super {}) = true → Runs (.lvstall g) s fun t => BytesKept s t ∧ (t.dom g).lvArmed = false
        ∧ ∃ m, (t.dom g).waitMsgs = d.waitMsgs ++ [m] ∧ field m.d0 11 8 = 2 ∧ field m.d0 7 0 = 17 ∧ m.d2 = BitVec.ofNat 64 d.nadir.toNat)

/-! ## Tasks (R300-R307) -/

/-- No trace of the die takes records of the domain's work, so that none is written (R384). -/
def Sys2Proof.Claims.Untraced (s : State) (c : Nat) : Prop := (s.die (dieOf c)).ten = false

/-- R300, R305, R311: the task that SPAWN makes: entry, the caller's o0 to o3, its counter, its name. -/
def Sys2Proof.Claims.spawned (s : State) (pc : Nat) (ctr : Word) : Task :=
  { dom := domOf s.k, pc := pc, args := [rd s.k 24, rd s.k 25, rd s.k 26, rd s.k 27], counter := ctr,
    gtid := BitVec.ofNat 64 (domOf s.k * 2 ^ 48 + s.cur.1 * 2 ^ 35 + s.cur.2 * 2 ^ 31 + 2 ^ 30 + s.k.spawns % 2 ^ 30),
    die := none, core := s.cur.1, ctx := s.cur.2 }

/-- The queue that an affinity names holds one task more, and no other task queue differs (R305). -/
def Sys2Proof.Claims.Enqueued (f : Affinity) (x : Task) (s t : State) : Prop :=
  let c := s.cur.1
  match f with
  | .loc => (t.core c).deque = (s.core c).deque ++ [x] ∧ (∀ e, e ≠ c → (t.core e).deque = (s.core e).deque) ∧ ∀ d, (t.die d).queue = (s.die d).queue
  | .die n => (∀ e, (t.core e).deque = (s.core e).deque) ∧ ∀ d, (t.die d).queue = (s.die d).queue ++ if d = n.toNat then [{ x with die := some d }] else []
  | .any => (∀ e, (t.core e).deque = (s.core e).deque) ∧ ∀ d, (t.die d).queue = (s.die d).queue ++ if d = dieOf c then [x] else []

/-- Nothing of the issuing context waits at the hub under its own name. -/
def Sys2Proof.Claims.NothingAwaited (s : State) : Prop := s.awaiting.any (fun a => a.core == s.cur.1 && a.op == syncId s.cur.2) = false

/-- R42, R300, R302, R303: SPAWN refuses an absent die first (ABSENT), a bad target, a misaligned counter (ALIGN), a domain without task contexts (SHAPE 0x92), and
a die outside the grid (SHAPE 0x93); it waits for its release at package scope; it raises its counter, where it has one, by 1 and enqueues its task. TEND outside a
task is ILL, waits until everything of the task has ended, lowers the counter, and leaves an idle context that searches again. JOINW goes on, as an acquire, once the
count is zero, and until then waits for a write of the counter. -/
def Sys2Proof.Claims.TasksAreSpawnedEndedAndJoined : Prop :=
  (∀ (b a : Reg) (f : Affinity) (s : State), Settled s [b, a] →
    let c := s.cur.1
    let ctr := rd s.k b
    let d := s.dom (domOf s.k)
    let named := fun (n : Nat) => match f with | .die m => m.toNat = n | _ => False
    let present := ∀ n, named n → s.diePresent n = true
    let taker := d.taskc ≠ 0 ∧ ∀ n, named n → gridMeets d n = true
    let i := Instr.spawn b a f
    (¬ present → Runs i s (Parks { cause := .absent, einfo := BitVec.ofNat 64 ((encode i).headD 0) } s))
    ∧ (present → ∀ p, regTarget (rd s.k a) = .error p → Runs i s (Parks p s))
    ∧ (∀ pc, present → regTarget (rd s.k a) = .ok pc →
    (b ≠ 0 → ctr.toNat % 8 ≠ 0 → Runs i s (Parks { cause := .align, eaddr := ctr } s))
    ∧ (b = 0 ∨ ctr.toNat % 8 = 0 →
      (d.taskc = 0 → Runs i s (Parks { cause := .shape, einfo := 0x92 } s))
      ∧ (d.taskc ≠ 0 → ∀ n, named n → gridMeets d n = false → Runs i s (Parks { cause := .shape, einfo := 0x93 } s))
      ∧ (taker → releaseReady (opsOf s c s.cur.2) s.nextId .pkg = false → Runs i s (Waits s)))
    ∧ (taker → Untraced s c → (s.core c).deque.length < 32 → (∀ e, (s.die e).queue.length < 65536) →
      let after := fun (x : Word) (t : State) => t.k.pc = nextPc s.k 4 ∧ RegsKept s t [] ∧ GuardsKept s t [] ∧ t.k.spawns = (s.k.spawns + 1) % 2 ^ 30
        ∧ Enqueued f (spawned s pc x) s t ∧ t.mem = s.mem ∧ ∀ e, (t.die e).sectors = (s.die e).sectors
      (b = 0 → releaseReady (opsOf s c s.cur.2) s.nextId .pkg = true → Runs i s fun t => after 0 t ∧ BytesKept s t)
      ∧ (b ≠ 0 → ∀ x lo, Idle s → PlainBanks s x → LocalAt ctr lo 8 → Runs i s fun t => after ctr t
        ∧ leNat (readBytes (t.core x).mem lo 8) = (leNat (readBytes (s.core x).mem lo 8) + 1) % 2 ^ 64
        ∧ ∀ e y, (e ≠ x ∨ y < lo ∨ lo + 8 ≤ y) → readByte (t.core e).mem y = readByte (s.core e).mem y))))
  ∧ (∀ (s : State) (w : Work), s.k.work = some w →
    (w.task = none → Runs .tend s (Parks { cause := .ill, einfo := BitVec.ofNat 64 ((encode .tend).headD 0) } s))
    ∧ ∀ q, w.task = some q →
      (drained (opsOf s s.cur.1 s.cur.2) = false → Runs .tend s (Waits s))
      ∧ (s.k.away = none → s.k.handles = [] → s.k.acc = none → s.k.sending = false → Untraced s s.cur.1 → NothingAwaited s →
        let after := fun (t : State) => (t.ctx s.cur.1 s.cur.2).status = .idle ∧ (t.ctx s.cur.1 s.cur.2).work = none ∧ (t.ctx s.cur.1 s.cur.2).home = s.k.home
          ∧ (t.dom w.dom).ndone = (s.dom w.dom).ndone + 1 ∧ Event.taskSearch s.cur.1 s.cur.2 ∈ t.events ∧ t.mem = s.mem
        (q.counter = 0 → drained (opsOf s s.cur.1 s.cur.2) = true → releaseReady (opsOf s s.cur.1 s.cur.2) s.nextId .pkg = true → Runs .tend s fun t => after t ∧ BytesKept s t)
        ∧ (∀ x lo, q.counter ≠ 0 → Idle s → PlainBanks s x → LocalAt q.counter lo 8 → Runs .tend s fun t => after t
          ∧ leNat (readBytes (t.core x).mem lo 8) = (leNat (readBytes (s.core x).mem lo 8) + (2 ^ 64 - 1)) % 2 ^ 64
          ∧ ∀ e y, (e ≠ x ∨ y < lo ∨ lo + 8 ≤ y) → readByte (t.core e).mem y = readByte (s.core e).mem y)))
  ∧ (∀ (a : Reg) (s : State), Settled s [a] →
    (s.k.joinLine.isSome = true → Runs (.joinw a) s (Waits s))
    ∧ (s.k.joinLine = none → (rd s.k a).toNat % 8 ≠ 0 → Runs (.joinw a) s (Parks { cause := .align, eaddr := rd s.k a } s))
    ∧ ∀ x lo, s.k.joinLine = none → Idle s → PlainBanks s x → LocalAt (rd s.k a) lo 8 →
      let n := leNat (readBytes (s.core x).mem lo 8) % 2 ^ 63
      (n = 0 → Runs (.joinw a) s fun t => Quietly 4 s t ∧ t.k.region = (readReplies s.k [a]).region + 1)
      ∧ (n ≠ 0 → Runs (.joinw a) s fun t => Waits s t ∧ t.k.joinLine = some (.loc x lo)))
  ∧ ∀ (c x : Nat) (s : State), Runs (.joinwWake c x) s fun t => (t.ctx c x).joinLine = none ∧ (c, x) ∉ t.stalled ∧ BytesKept s t
      ∧ { t.ctx c x with joinLine := (s.ctx c x).joinLine } = s.ctx c x

/-- R301, R307, R344: a context that is no idle task context of a running domain does not search; one that finds a task of its domain takes the youngest of its own deque, or,
where the cluster has none, the oldest of its die's queue, and begins it at its entry with the closure's arguments, name and counter; three refused steals make
its core rest for 4,096 cycles, after which its task contexts search again. -/
def Sys2Proof.Claims.TaskContextsSearchInOrder : Prop :=
  (∀ (c x g : Nat) (d : Dom) (s : State), s.dom? g = some d →
    let k := s.ctx c x
    let idle := k.work = none ∧ d.frozen = false ∧ d.draining = false ∧ d.ended = false ∧ d.started = true ∧ (s.core c).rest = none ∧ (s.die (dieOf c)).reset = none
      ∧ (s.die (dieOf c)).isolated = false
    ((∀ g, k.home ≠ some (g, none)) → Runs (.taskSearch c x) s fun t => t = s)
    ∧ (k.home = some (g, none) → ¬ idle → Runs (.taskSearch c x) s fun t => t = s)
    ∧ (k.home = some (g, none) → idle → Untraced s c →
      let begins := fun (q : Task) (t : State) => let k := t.ctx c x
        k.status = .ready ∧ k.pc = q.pc ∧ k.depth = 0 ∧ k.frames = [] ∧ (∀ g : QIx, g ≠ 0 → guardOf k g = none) ∧ gtidOf k = q.gtid ∧ BytesKept s t
        ∧ (q.args.length = 4 → (rd k 8, rd k 9, rd k 10, rd k 11) = (q.args.getD 0 0, q.args.getD 1 0, q.args.getD 2 0, q.args.getD 3 0)
          ∧ rd k 12 = BitVec.ofNat 64 (q.gtid.toNat % 2 ^ 32) ∧ rd k 13 = q.counter ∧ rd k 14 = 0 ∧ rd k 15 = 0)
        ∧ (∀ r : Reg, 16 ≤ r.toNat → rd k r = 0)
      let admitted := runClass d = 0 ∨ (s.debt = 0 ∧ d.test ≤ s.reservoir)
      (∀ q before after, (s.core c).deque = before ++ q :: after → q.dom = g → (∀ r ∈ after, r.dom ≠ g) → (s.core c).overflow = [] →
        (admitted → Runs (.taskSearch c x) s fun t => begins q t ∧ (t.core c).deque.length + 1 = (s.core c).deque.length
          ∧ (q ∉ before → (t.core c).deque = before ++ after))
        ∧ (¬ admitted → Runs (.taskSearch c x) s fun t => t = s))
      ∧ (∀ q before after, (∀ m, clusterOf m = clusterOf c → ∀ r ∈ (s.core m).deque, r.dom ≠ g) → (s.die (dieOf c)).queue = before ++ q :: after → q.dom = g →
        (∀ r ∈ before, r.dom ≠ g) → admitted → Runs (.taskSearch c x) s fun t => begins q t ∧ (t.die (dieOf c)).queue = before ++ after)
      ∧ ((∀ m, clusterOf m = clusterOf c → ∀ r ∈ (s.core m).deque, r.dom ≠ g) → (∀ e, ∀ r ∈ (s.die e).queue, r.dom ≠ g) →
        let n := ((upFrom 1 3).filter fun i => s.diePresent (Nat.xor (dieOf c) i)).length
        Runs (.taskSearch c x) s fun t => (t.core c).fails = (s.core c).fails + n ∧ (t.ctx c x).work = none ∧ BytesKept s t
          ∧ ((s.core c).fails + n ≥ 3 → (t.core c).rest = some s.time ∧ Event.taskSearchRestEnd c ∈ t.events)
          ∧ ((s.core c).fails + n < 3 → n ≠ 0 → Event.taskSearch c x ∈ t.events))))
  ∧ ∀ (c : Nat) (s : State),
    ((s.core c).rest = none → Runs (.taskSearchRestEnd c) s fun t => t = s)
    ∧ ∀ r, (s.core c).rest = some r →
      (s.time < r + 4096 → Runs (.taskSearchRestEnd c) s fun t => t.cores = s.cores ∧ Event.taskSearchRestEnd c ∈ t.events)
      ∧ (r + 4096 ≤ s.time → Runs (.taskSearchRestEnd c) s fun t => (t.core c).rest = none ∧ (t.core c).fails = 0 ∧ BytesKept s t
        ∧ ∀ x k g, (x, k) ∈ (s.core c).ctxs → k.home = some (g, none) → k.work = none → Event.taskSearch c x ∈ t.events)

/-! ## Parked firings, frozen fronts and contexts (R105, R341, R342, R345, R357-R370) -/

/-- R163, R357, R361, R362: a firing with a recorded failure parks with it, once; the answer to a firing that is not parked there tells its supervisor with KIND 4 and changes no
context; RESUME goes on at the faulting instruction as an acquire; RESUME with a value gives it to the instruction's destination and goes on behind it; RESTART
readies the firing's actor to start again with the same name; ABORT ends it with its cause, its block finished at its level. -/
def Sys2Proof.Claims.SupervisorAnswersParkedFirings : Prop :=
  (∀ (c x : Nat) (s : State), ((s.ctx c x).pend = none → Runs (.park c x) s fun t => t = s)
    ∧ ∀ p, (s.ctx c x).pend = some p →
      (((s.ctx c x).p0halt = true ∨ (s.ctx c x).dhalt = true ∨ (s.ctx c x).frozenHalt = true) → Runs (.park c x) s fun t => t = s)
      ∧ ((s.ctx c x).status = .ready → (s.ctx c x).p0halt = false → (s.ctx c x).dhalt = false → (s.ctx c x).frozenHalt = false → (s.ctx c x).loop = none → (s.ctx c x).later = [] → Runs (.park c x) s fun t =>
        let k := t.ctx c x
        k.status = .parked ∧ k.pend = none ∧ k.ecause = BitVec.ofNat 64 p.stop.cause.code ∧ k.eaddr = p.stop.eaddr ∧ k.einfo = p.stop.einfo ∧ k.estat.getLsbD 1 = true
        ∧ k.estat.getLsbD 23 = p.eng ∧ k.regs = (s.ctx c x).regs ∧ k.guards = (s.ctx c x).guards ∧ BytesKept s t
        ∧ (isSuper s (s.ctx c x) = false → p.stop.page = none → ∃ m, (t.dom (domOf (s.ctx c x))).waitMsgs = (s.dom (domOf (s.ctx c x))).waitMsgs ++ [m]
          ∧ m.d1 = gtidOf (s.ctx c x) ∧ field m.d0 11 8 = 0 ∧ field m.d0 7 0 = p.stop.cause.code ∧ m.d3 = p.stop.einfo)))
  ∧ (∀ (c : Nat) (gtid v : Word) (s : State), parkedAt s c gtid = none →
    let told := fun (op : Nat) (t : State) => t.cores = s.cores ∧ BytesKept s t ∧ (s.dom? (field gtid 63 48) ≠ none →
      (t.dom (field gtid 63 48)).waitMsgs = (s.dom (field gtid 63 48)).waitMsgs ++ [⟨BitVec.ofNat 64 (c * 2 ^ 34 + 4 * 256), gtid, BitVec.ofNat 64 op, 0⟩])
    Runs (.resume c gtid) s (told 1) ∧ Runs (.resumeValue c gtid v) s (told 2) ∧ Runs (.restart c gtid) s (told 3) ∧ Runs (.abort c gtid) s (told 4))
  ∧ ∀ (c x : Nat) (gtid v : Word) (s : State), parkedAt s c gtid = some x → (∀ e ∈ (s.core c).ctxs, e.2.kept = []) →
    let k := s.ctx c x
    k.status = .parked → k.pend = none → k.parkPage = none →
    (∀ d n, k.park = some (.precise d n) → k.ecause ≠ 15 → k.ecause ≠ 1 →
      (Runs (.resume c gtid) s fun t => let q := t.ctx c x
        q.status = .ready ∧ q.pc = k.pc ∧ q.regs = k.regs ∧ q.region = k.region + 1 ∧ q.estat.getLsbD 1 = false ∧ BytesKept s t)
      ∧ (k.loop = none → k.back = [] → Runs (.resumeValue c gtid v) s fun t => let q := t.ctx c x
        q.status = .ready ∧ q.pc = k.pc + n ∧ q.region = k.region + 1 ∧ BytesKept s t
        ∧ (∀ r, d = some r → rd q r = if r = 0 then 0 else v) ∧ ∀ r, d ≠ some r → rd q r = rd k r))
    ∧ ∀ w a u, k.work = some w → w.actor = some a → w.task = none → Tbl.find (s.dom w.dom).actors a = some u → isSuper s k = false → k.away = none → k.acc = none →
      k.handles = [] → k.sending = false → k.arrival = none → (s.core c).ops = [] →
      (Runs (.restart c gtid) s fun t => (t.ctx c x).work = none ∧ (t.ctx c x).status = .idle ∧ (t.ctx c x).home = k.home ∧ Event.firingDispatch w.dom a ∈ t.events
        ∧ (Tbl.find (t.dom w.dom).actors a).map (fun v => (v.running, v.again)) = some (false, some (w.gtid, w.msg, k.ecause.toNat)) ∧ BytesKept s t)
      ∧ (s.dom? w.dom ≠ none → (∀ e ∈ (s.dom w.dom).blocks, isMine s (s.dom w.dom) (Tbl.read (s.dom w.dom).actors e.2.actor {}) = true) →
        Runs (.abort c gtid) s fun t => (t.ctx c x).work = none ∧ (t.ctx c x).status = .idle ∧ BytesKept s t
          ∧ (Tbl.find (t.dom w.dom).actors a).map (fun v => (v.running, v.ended)) = some (false, true)
          ∧ (∃ i, (t.dom w.dom).items = (s.dom w.dom).items ++ [i] ∧ (i.gtid, i.kind, i.cause, i.eaddr, i.pc) = (w.gtid, 0, k.ecause.toNat, k.eaddr, k.pc)
            ∧ i.state = if k.ecause = 6 ∨ k.ecause = 7 then 1 else 2)
          ∧ ∀ j b, u.block = some j → Tbl.find (s.dom w.dom).blocks j = some b → Tbl.find (t.dom w.dom).blocks j = some { b with fin := true })

/-- R361, R363: the host's command is refused with a notification of kind 4 and cause 1 when a reserved bit is set or its operation is unknown, and with cause 0 when no parked firing
answers to it; otherwise it is the supervisor's command for that firing. R367-R370, in a domain that stands on this package alone: FREEZE of a frozen domain only retires, and waits while a firing still runs; when none does the domain is
frozen; THAW of a frozen domain lets it go on, and waits for commands that are on their way; FRONT needs a frozen domain (SHAPE 0xA1) and an address that is a multiple
of 16, and writes for each block 16 bytes of level, step, state (0 its gate holds, 1 it does not, 2 its firing has stopped, 3 it is to start again), finished and spread
bits, cause and name. -/
def Sys2Proof.Claims.FrozenFrontsAndTheHostsCommand : Prop :=
  (∀ (v : Word) (s : State),
    let gtid := Tbl.read s.supCmd 1 0
    let value := Tbl.read s.supCmd 2 0
    let op := v.toNat % 256
    let bad := v.toNat / 256 ≠ 0 ∨ Tbl.read s.supCmd 3 0 ≠ 0 ∨ op = 0 ∨ 4 < op ∨ (op ≠ 2 ∧ value ≠ 0)
    let spot := (Tbl.keys s.cores).findSome? fun c => (parkedAt s c gtid).map fun x => (c, x)
    ((bad ∨ spot = none) → Runs (.hostSupervisorCommand v) s fun t => t.cores = s.cores ∧ t.nheld.length = s.nheld.length + 1)
    ∧ ∀ c x, ¬ bad → spot = some (c, x) → isSuper s (s.ctx c x) = false →
      (op = 1 → ∀ P, Runs (.resume c gtid) s P → Runs (.hostSupervisorCommand v) s P) ∧ (op = 2 → ∀ P, Runs (.resumeValue c gtid value) s P → Runs (.hostSupervisorCommand v) s P)
      ∧ (op = 3 → ∀ P, Runs (.restart c gtid) s P → Runs (.hostSupervisorCommand v) s P) ∧ (op = 4 → ∀ P, Runs (.abort c gtid) s P → Runs (.hostSupervisorCommand v) s P))
  ∧ ∀ (s : State), isSuper s s.k = true →
    let g := domOf s.k
    ((s.dom g).frozen = true → Runs .freeze s (OnlyRetires 4 s))
    ∧ ((s.dom g).frozen = false → Alone s g → s.stalled = [] → (∀ e ∈ s.cores, ∀ x ∈ e.2.ctxs, domOf x.2 = g → x.2.work.isSome = true → isSuper s x.2 = true ∨ x.2.status = .parked) →
      (∀ e ∈ s.dies, e.2.slots = []) → Runs .freeze s fun t => (t.dom g).frozen = true ∧ (t.dom g).draining = false ∧ t.k.pc = nextPc s.k 4 ∧ RegsKept s t [] ∧ GuardsKept s t [] ∧ BytesKept s t)
    ∧ ((s.dom g).frozen = false → Alone s g → (∃ e ∈ s.cores, ∃ x ∈ e.2.ctxs, domOf x.2 = g ∧ x.2.work.isSome = true ∧ isSuper s x.2 = false ∧ x.2.status = .ready ∧ x.2.p0halt = false
        ∧ x.2.dhalt = false ∧ x.2.frozenHalt = false ∧ (e.1, x.1) ∉ s.stalled) → Runs .freeze s fun t => t.k.pc = s.k.pc ∧ (t.dom g).draining = true ∧ (t.dom g).frozen = false
        ∧ RegsKept s t [] ∧ BytesKept s t)
    ∧ (Alone s g → (∀ c t, field t 63 48 = g → Event.resume c t ∉ s.events ∧ Event.restart c t ∉ s.events ∧ Event.abort c t ∉ s.events ∧ ∀ v, Event.resumeValue c t v ∉ s.events) →
      ((s.dom g).frozen = false → Runs .thaw s (OnlyRetires 4 s))
      ∧ ((s.dom g).frozen = true → Runs .thaw s fun t => (t.dom g).frozen = false ∧ (t.dom g).draining = false ∧ t.k.pc = nextPc s.k 4 ∧ RegsKept s t [] ∧ BytesKept s t
        ∧ ∀ c x k, k = t.ctx c x → domOf k = g → k.frozenHalt = false))
    ∧ (∀ c t, Alone s g → field t 63 48 = g → Event.resume c t ∈ s.events → Runs .thaw s (Waits s))
    ∧ ∀ a d : Reg, Settled s [d, a] →
      ((rd s.k a).toNat % 16 ≠ 0 → Runs (.front a d) s (Parks { cause := .align, eaddr := rd s.k a } s))
      ∧ ((rd s.k a).toNat % 16 = 0 → (s.dom g).frozen = false → Runs (.front a d) s (Parks { cause := .shape, einfo := 0xA1 } s))
      ∧ ∀ x lo, (s.dom g).frozen = true → (∀ j, j < (s.dom g).nblk → Here s (s.dom g) j) → Idle s → PlainBanks s x → (rd s.k a).toNat = 0xC000000000000000 + lo → lo % 16 = 0 →
        lo + 16 * (s.dom g).nblk ≤ 0x30000 → Runs (.front a d) s fun t =>
          rd t.k d = (if d = 0 then 0 else BitVec.ofNat 64 (s.dom g).nblk) ∧ RegsKept s t [d] ∧ t.k.pc = nextPc s.k 4
          ∧ (∀ y, (y < lo ∨ lo + 16 * (s.dom g).nblk ≤ y) → readByte (t.core x).mem y = readByte (s.core x).mem y) ∧ (∀ e, e ≠ x → (t.core e).mem = (s.core e).mem)
          ∧ ∀ j, j < (s.dom g).nblk →
            let b := Tbl.read (s.dom g).blocks j {}
            let e := fun (o n : Nat) => leNat (readBytes (t.core x).mem (lo + 16 * j + o) n)
            e 0 4 = b.t.toNat ∧ e 4 2 = b.d % 65536 ∧ e 6 1 / 4 % 2 = bitN b.fin ∧ e 6 1 / 8 % 2 = bitN (spreadHolds (s.dom g) b)
            ∧ let again := (Tbl.read (s.dom g).actors b.actor {}).again
            let tells := fun (st cause : Nat) (gtid : Word) => e 6 1 % 4 = st ∧ e 7 1 = cause ∧ e 8 8 = gtid.toNat
            (b.fin = true → tells 0 0 0)
            ∧ (b.fin = false → ∀ n m cause, again = some (n, m, cause) → tells 3 (cause % 256) n)
            ∧ (b.fin = false → again = none → firingOf s g b.actor = none → tells (if gateHolds b ∧ spreadHolds (s.dom g) b = false then 0 else 1) 0 0)
            ∧ (b.fin = false → again = none → ∀ k saved, firingOf s g b.actor = some (k, saved) → k.status = .parked → tells 2 (k.ecause.toNat % 256) (gtidOf k))
            ∧ (b.fin = false → again = none → ∀ k saved, firingOf s g b.actor = some (k, saved) → k.status ≠ .parked →
              saved = true ∨ k.p0halt = true ∨ k.dhalt = true ∨ k.frozenHalt = true → tells 2 0 (gtidOf k))

/-- R341, R345, R364-R366: of the contexts that can issue the one of lowest effective class, then of longest wait, then next in turn, is selected, its wait cleared and the others' counted;
nothing is selected where none can; a P0 context that can issue halts every lower one of its core; a halted firing's state moves to a save slot of its die, and from
there, with its registers, guards and handles, to a free context of its home core. -/
def Obligations.ContextsAreChosenSavedAndResumed : Prop :=
  (∀ (c : Nat) (s : State), (∀ e ∈ (s.core c).ctxs, e.2.p0halt = false) →
    let ready := (s.core c).ctxs.filter fun e => canIssue s c e.1
    let turn := fun (x : Nat) => (x + 15 - (s.core c).last) % 16
    (ready = [] → Runs (.contextSelect c) s fun t => t = s)
    ∧ (ready ≠ [] → (s.core c).ctxs.Pairwise (fun e f => e.1 ≠ f.1) → Runs (.contextSelect c) s fun t => ∃ x k, (x, k) ∈ ready ∧ t.cur = (c, x) ∧ t.selected = true ∧ (t.core c).last = x
      ∧ (∀ e ∈ ready, effCtx s k < effCtx s e.2 ∨ (effCtx s k = effCtx s e.2 ∧ (e.2.waited < k.waited ∨ (e.2.waited = k.waited ∧ turn x ≤ turn e.1))))
      ∧ (∀ e ∈ ready, (t.ctx c e.1).waited = if e.1 = x then 0 else e.2.waited + 1) ∧ BytesKept s t ∧ ∀ d y, (d, y) ∉ ready.map (fun e => (c, e.1)) → t.ctx d y = s.ctx d y))
  ∧ (∀ (c : Nat) (s : State),
    let p0 := ∃ e ∈ (s.core c).ctxs, canIssue s c e.1 = true ∧ classOf s e.2 = 0
    (¬ p0 → Runs (.p0Request c) s fun t => t = s)
    ∧ (p0 → (s.core c).ctxs.Pairwise (fun e f => e.1 ≠ f.1) → Runs (.p0Request c) s fun t => BytesKept s t
      ∧ (∀ e ∈ (s.core c).ctxs, e.2.work.isSome = true → e.2.status = .ready → classOf s e.2 ≠ 0 → (t.ctx c e.1).p0halt = true)
      ∧ ∀ e ∈ (s.core c).ctxs, classOf s e.2 = 0 → t.ctx c e.1 = s.ctx c e.1))
  ∧ (∀ (c x : Nat) (s : State),
    let k := s.ctx c x
    (k.work = none ∨ (k.p0halt = false ∧ k.homeOnly = false) → Runs (.contextSave c x) s fun t => t = s)
    ∧ (k.work ≠ none → k.status = .ready → (k.p0halt = true ∨ k.homeOnly = true) → (s.die (dieOf c)).slots.length < 4096 → k.away = none → (s.core c).ops = [] →
      Runs (.contextSave c x) s fun t => (t.ctx c x).status = .empty ∧ BytesKept s t ∧ ∃ i v, Tbl.find (s.die (dieOf c)).slots i = none ∧ Tbl.find (t.die (dieOf c)).slots i = some v
        ∧ (v.homeCore, v.homeCtx) = (c, x) ∧ (v.ctx.regs, v.ctx.guards, v.ctx.handles, v.ctx.pc, v.ctx.work) = (k.regs, k.guards, k.handles, k.pc, k.work)
        ∧ v.ctx.p0halt = false ∧ Event.contextResume (dieOf c) i ∈ t.events))
  ∧ ∀ (d i : Nat) (s : State), (Tbl.find (s.die d).slots i = none → Runs (.contextResume d i) s fun t => t = s)
    ∧ ∀ v, Tbl.find (s.die d).slots i = some v → (resumeSpot s d i v = none → Runs (.contextResume d i) s fun t => t = s)
      ∧ (resumeSpot s d i v = some (v.homeCore, v.homeCtx) → (s.die d).slots = [(i, v)] → v.ctx.kept = [] → (∀ e ∈ (s.core v.homeCore).ctxs, e.2.kept = []) → Runs (.contextResume d i) s fun t =>
        let k := t.ctx v.homeCore v.homeCtx
        (k.regs, k.guards, k.handles, k.pc, k.work, k.home, k.status) = (v.ctx.regs, v.ctx.guards, v.ctx.handles, v.ctx.pc, v.ctx.work, v.ctx.home, v.ctx.status)
        ∧ k.away = none ∧ k.p0halt = false ∧ k.dhalt = v.ctx.haltReq ∧ Tbl.find (t.die d).slots i = none ∧ BytesKept s t)

/-! ## Callyn packets (R62-R64, R111, R242-R261) -/

/-- The request that a peer's packet makes of a package: its opcode, the right that it needs, and the packet (R247, R250). -/
def Sys2Proof.Claims.requestForm (i : Instr) : Option (Nat × Nat × Packet) :=
  match i with
  | .rd p => some (0x01, 0, p)
  | .wr p => some (0x02, 1, p)
  | .amo p => some (0x03, 2, p)
  | .xrun p => some (0x05, 0, p)
  | .msg p => some (0x06, 4, p)
  | .gangReserve p => some (0x07, 4, p)
  | .gangCommit p => some (0x07, 4, p)
  | .gangAbort p => some (0x07, 4, p)
  | .mig p => some (0x08, 4, p)
  | .shoot p => some (0x09, 4, p)
  | .nadir p => some (0x0A, 4, p)
  | _ => none

/-- The packet is not one that has passed the last hop before and waits (R250). -/
def Sys2Proof.Claims.Fresh (s : State) (p : Packet) : Prop := inboundOf s p.src p.tag = none

/-- A packet for this package that its port's access table passes, with the opcode of the request (R250, R251). -/
def Sys2Proof.Claims.Entered (op right : Nat) (p : Packet) (s : State) : Prop :=
  s.pkid ≠ 0 ∧ p.dst = s.pkid ∧ p.op = op ∧ Fresh s p ∧ ∃ n, n < 64 ∧
    let e := Tbl.read s.acl (inPort p * 64 + n) {}
    e.v = true ∧ e.srclo ≤ p.src ∧ p.src ≤ e.srchi ∧ e.lo.toNat ≤ p.faddr ∧ p.faddr + max p.len 1 - 1 ≤ e.hi.toNat ∧ e.rights / 2 ^ right % 2 = 1

/-- The reply to a request (R246, R247): its opcode and its bytes. -/
def Sys2Proof.Claims.replied (s : State) (p : Packet) (op : Nat) (bs : List Byte) : Packet :=
  ⟨op, 0, s.pkid, p.src, s.seqOut % 65536, 0, bs.length, 0, 0, p.tag, 0, bs, []⟩

/-- The request is answered, and nothing else changes. -/
def Sys2Proof.Claims.OnlyReplies (p : Packet) (op : Nat) (bs : List Byte) (s t : State) : Prop :=
  t = { s with seqOut := s.seqOut + 1, out := s.out ++ [.packet (replied s p op bs)] }

/-- A span of this package's memory, device or host, in one sector, which no die caches or moves and nothing waits for, read and written by an agent of system scope
(R48, R229, R235, R248). -/
def Sys2Proof.Claims.PlainSpan (s : State) (a n : Nat) : Prop :=
  a < 2 ^ 56 ∧ homePresent s (homeOf a) = true ∧ (∃ k, homeFrames (homeOf a) = some k ∧ a % 2 ^ 52 + n ≤ k * 65536) ∧ 0 < n ∧ a % 64 + n ≤ 64
    ∧ homeBlocked s a = false ∧ homeLost s a = false ∧ moving s a = false ∧ s.awaiting = [] ∧ dirEntry s (a / 256) = {} ∧ poisoned s a = false
    ∧ s.replay.rstat ≠ 2 ∧ s.hinj.mode ≠ 1 ∧ Memory.wf s.mem = true

/-- The host completes an access to its memory with an error (R48); when it does is free (log 81). -/
def Sys2Proof.Claims.hostErr (s : State) (a : Nat) : Bool := homeOf a == 8 && Config.hostFails s.free
/-- The state once the host has been asked. -/
def Sys2Proof.Claims.hostAsked (s : State) (a : Nat) : State := if homeOf a = 8 then { s with free := s.free + 1 } else s

/-- The operation of an AMO packet: FLG [7:4] in the order of R233. -/
def Sys2Proof.Claims.amoCode (i : Instr) : Option Nat :=
  match i with
  | .aadd _ => some 0
  | .aand _ => some 1
  | .aor _ => some 2
  | .axor _ => some 3
  | .amin _ => some 4
  | .amax _ => some 5
  | .aminn _ => some 6
  | .amaxn _ => some 7
  | .aswap _ => some 8
  | .acas _ => some 9
  | .afadd _ => some 10
  | _ => none

/-- R244, R247, R250, R252: a request reaches a package that is in a fabric and named; a port whose table does not pass it answers NACK with reason 1 in the package's
place, an opcode that the element does not execute NACK with reason 5, an address that names no place here NACK with reason 4; RD answers
with the bytes, or, of host memory that the host fails to read, with NACK reason 4; WR writes its payload, then answers; nothing else changes. -/
def Sys2Proof.Claims.PeerRequestsPassTheLastHop : Prop :=
  (∀ (i : Instr) (op right : Nat) (p : Packet) (s : State), requestForm i = some (op, right, p) →
    ((s.pkid = 0 ∨ p.dst ≠ s.pkid) → Runs i s fun t => t = s)
    ∧ (s.pkid ≠ 0 → p.dst = s.pkid → p.op = op → Fresh s p → ¬ Entered op right p s → Runs i s (OnlyReplies p 0x90 [1] s))
    ∧ (Entered p.op right p s → p.op ≠ op → Runs i s (OnlyReplies p 0x90 [5] s)))
  ∧ (∀ (p : Packet) (s : State), targetPlace s p.faddr p.len = none → Entered 0x01 0 p s → Runs (.rd p) s (OnlyReplies p 0x90 [4] s))
  ∧ (∀ (p : Packet) (s : State), Entered 0x01 0 p s → PlainSpan s p.faddr p.len →
      let u := hostAsked s p.faddr
      (p.cont = 0x80 → Runs (.rd p) s (if hostErr s p.faddr then OnlyReplies p 0x90 [4] u else OnlyReplies p 0x80 (readBytes s.mem p.faddr p.len) u))
      ∧ (p.cont = 0x81 → Runs (.rd p) s fun t => if hostErr s p.faddr then OnlyReplies p 0x90 [4] u t else
          t = { u with seqOut := s.seqOut + 1, out := s.out ++ [.packet { replied s p 0x81 (readBytes s.mem p.faddr p.len) with raddr := p.raddr }] }))
  ∧ (∀ (p : Packet) (s : State), Entered 0x02 1 p s → p.cont ≠ 0x81 → p.payload.length = p.len → PlainSpan s p.faddr p.len → Runs (.wr p) s fun t =>
      readBytes t.mem p.faddr p.len = p.payload ∧ (∀ x, (x < p.faddr ∨ p.faddr + p.len ≤ x) → readByte t.mem x = readByte s.mem x)
        ∧ (∀ c, (t.core c).mem = (s.core c).mem) ∧ t.out = s.out ++ [.packet (replied s p p.cont [])])

/-- R241-R243: a package executes an AMO packet once for each sequence of its source: a sequence among the kept replies is answered with that reply, one
not newer than the highest executed with UNKNOWN, and nothing else changes; a newer one replaces the bytes in one step, replies with the old value and becomes the
highest. At the requester an AMO is sent again after 8 µs, with its own sequence, and ends unknown 32 µs after its first send, its firing's
failure recorded. -/
def Sys2Proof.Claims.PeerAmosAreExecutedOnce : Prop :=
  (∀ (p : Packet) (s : State), Entered 0x03 2 p s →
    let rc := Tbl.read s.replies p.src {}
    (∀ k, rc.entries.find? (fun e => e.1 == p.seq) = some (p.seq, k) → Runs (.amo p) s fun t => t = s.emit (.packet k))
    ∧ ((∀ e ∈ rc.entries, e.1 ≠ p.seq) → ∀ h, rc.high = some h → ((p.seq + 65536 - h) % 65536 = 0 ∨ 32768 ≤ (p.seq + 65536 - h) % 65536) →
      Runs (.amo p) s (OnlyReplies p 0x91 [] s))
    ∧ ((∀ e ∈ rc.entries, e.1 ≠ p.seq) → (∀ h, rc.high = some h → 0 < (p.seq + 65536 - h) % 65536 ∧ (p.seq + 65536 - h) % 65536 < 32768) →
      ∀ i m f, amoForm i = some (m, f) → amoCode i = some (p.flg / 16) → (p.len = 4 ∨ p.len = 8) → p.faddr % p.len = 0 → PlainSpan s p.faddr p.len →
      let old := leNat (readBytes s.mem p.faddr p.len)
      let k := replied s p p.cont (natLE p.len old)
      Runs (.amo p) s fun t => if hostErr s p.faddr then OnlyReplies p 0x90 [4] (hostAsked s p.faddr) t else
        leNat (readBytes t.mem p.faddr p.len) = (f (8 * p.len) old (rf p.payload 0 p.len) (rf p.payload 8 p.len)).getD old
        ∧ (∀ x, (x < p.faddr ∨ p.faddr + p.len ≤ x) → readByte t.mem x = readByte s.mem x) ∧ (∀ c, (t.core c).mem = (s.core c).mem)
        ∧ t.out = s.out ++ [.packet k] ∧ (Tbl.read t.replies p.src {}).high = some p.seq ∧ (p.seq, k) ∈ (Tbl.read t.replies p.src {}).entries))
  ∧ ∀ (r : Sent) (s : State), r ∈ s.sent → (∀ q ∈ s.sent, q.tag = r.tag → q = r) → r.pkt.op = 3 →
    (r.got ≠ none ∨ r.nack ≠ none → (Runs (.amoRetransmit r.tag) s fun t => t = s) ∧ Runs (.amoTimeout r.tag) s fun t => t = s)
    ∧ (r.got = none → r.nack = none →
      (r.sends < 4 → s.time < r.last + 10400 → Runs (.amoRetransmit r.tag) s fun t => t = s.push (.amoRetransmit r.tag))
      ∧ (r.sends < 4 → r.last + 10400 ≤ s.time → Runs (.amoRetransmit r.tag) s fun t => t.out = s.out ++ [.packet r.pkt] ∧ t.mem = s.mem ∧ t.cores = s.cores
        ∧ { r with sends := r.sends + 1, last := s.time } ∈ t.sent ∧ Event.amoRetransmit r.tag ∈ t.events)
      ∧ (r.sends ≥ 4 → Runs (.amoRetransmit r.tag) s fun t => t = s)
      ∧ (s.time < r.first + 41600 → Runs (.amoTimeout r.tag) s fun t => t = s.push (.amoTimeout r.tag))
      ∧ (r.first + 41600 ≤ s.time → ∀ o op m b d q, opById s r.core r.op = some o → o.id = r.op → o.body = .amo op m b d q → o.ctx < 16 →
        (s.ctx r.core o.ctx).work ≠ none → (s.ctx r.core o.ctx).status ≠ .parked → (s.ctx r.core o.ctx).pend = none →
        let unknown := fun (t : State) => BytesKept s t ∧ (∀ q ∈ t.sent, q.tag ≠ r.tag) ∧ Event.park r.core o.ctx ∈ t.events
          ∧ ∃ n, (t.ctx r.core o.ctx).pend = some n ∧ n.stop.cause = .amounknown ∧ n.stop.eaddr = o.addr
            ∧ n.stop.einfo = BitVec.ofNat 64 (r.pkt.seq + r.pkt.dst * 65536) ∧ n.epc = o.pc
        Runs (.amoTimeout r.tag) s unknown ∧ ∀ p : Packet, p.tag = r.tag → Runs (.unknown p) s unknown))

/-- Core `c` of this package as an FADDR (R246). -/
def Sys2Proof.Claims.CoreSpace (s : State) (f c off : Nat) : Prop :=
  c < 8192 ∧ s.coreExists (c % 128) (c / 128) = true ∧ off < 2 ^ 18 ∧ f = 2 ^ 62 + c % 128 * 2 ^ 43 + c / 128 * 2 ^ 37 + off

/-- What a message of a peer does here. -/
def Sys2Proof.Claims.PeerUnitsAreReached : Prop :=
  (∀ (p : Packet) (s : State) (d : Dom), Entered 0x06 4 p s → 6 ≤ p.flg / 16 →
    let g := packetGtb p
    (s.dom? g = none → Runs (.msg p) s (OnlyReplies p 0x90 [4] s))
    ∧ (s.dom? g = some d → p.src ∉ d.pkgs → Runs (.msg p) s (OnlyReplies p 0x90 [4] s))
    ∧ (s.dom? g = some d → p.src ∈ d.pkgs → p.cont ≠ 0x81 →
      let b := p.payload
      let mine := fun (q : Barrier) => q.dom == g && q.scope == .sys && q.inst == 0 && q.num == rf b 0 1
      let n := rf b 1 2
      (p.flg / 16 = 6 → ∀ q, s.barriers.find? mine = some q → q.count ≠ n → Runs (.msg p) s (OnlyReplies p p.cont [1] s))
      ∧ (p.flg / 16 = 6 → ∀ q, s.barriers.find? mine = some q → q.count = n → Runs (.msg p) s fun t => BytesKept s t ∧ t.cores = s.cores
        ∧ (q.arrived + 1 < n → t.events = s.events ∧ t.out = s.out ++ [.packet (replied s p p.cont [0])]
          ∧ t.barriers.find? mine = some { q with arrived := q.arrived + 1, far := q.far ++ [(p.src, rf b 3 8)] })
        ∧ (n ≤ q.arrived + 1 → Event.barrierDepart q.id ∈ t.events ∧ t.barriers.find? mine = none
          ∧ ∀ f ∈ q.far ++ [(p.src, rf b 3 8)], ∃ r ∈ t.sent, r.pkt.op = 6 ∧ r.pkt.flg / 16 = 7 ∧ r.pkt.dst = f.1 ∧ r.pkt.payload = natLE 8 f.2))
      ∧ (p.flg / 16 = 7 → Runs (.msg p) s fun t => BytesKept s t ∧ t.out = s.out ++ [.packet (replied s p p.cont [])]
        ∧ ∀ c x, { t.ctx c x with departed := (s.ctx c x).departed } = s.ctx c x ∧ (t.ctx c x).departed = ((s.ctx c x).departed || (s.ctx c x).arrival == some (rf b 0 8)))
      ∧ (p.flg / 16 = 9 → Runs (.msg p) s (OnlyReplies p p.cont (let k := Tbl.read d.blocks (rf b 0 4) {}; wordLE (levelOf k.t k.d k.fin)) s))
      ∧ (p.flg / 16 = 10 → rf b 0 1 = 0 → d.frozen = true → Runs (.msg p) s (OnlyReplies p p.cont [] s))
      ∧ (p.flg / 16 = 10 → rf b 0 1 = 0 → d.frozen = false → (stillRuns (beginFreeze s g) g = true ∨ untold s g = true) → Runs (.msg p) s fun t =>
        (t.dom g).draining = true ∧ (t.dom g).frozen = false ∧ t.out = s.out ∧ BytesKept s t ∧ Event.msg p ∈ t.events)
      ∧ (p.flg / 16 = 10 → rf b 0 1 = 0 → d.frozen = false → stillRuns (beginFreeze s g) g = false → untold s g = false → Runs (.msg p) s fun t =>
        (t.dom g).draining = false ∧ (t.dom g).frozen = true ∧ t.out = s.out ++ [.packet (replied s p p.cont [])] ∧ BytesKept s t)
      ∧ (p.flg / 16 = 10 → rf b 0 1 = 1 → Runs (.msg p) s fun t => (t.dom g).draining = false ∧ (t.dom g).frozen = false ∧ BytesKept s t
        ∧ ∀ c x k, k = t.ctx c x → domOf k = g → k.frozenHalt = false)
      ∧ (p.flg / 16 = 10 → rf b 0 1 = 2 → Runs (.msg p) s fun t => (t.dom g).frozen = true ∧ t.cores = s.cores ∧ BytesKept s t)
      ∧ (p.flg / 16 = 12 → Runs (.msg p) s (OnlyReplies p p.cont (frontEntry s g d (Tbl.read d.blocks (rf b 0 4) {})) s))
      ∧ (p.flg / 16 = 13 → Runs (.msg p) s (OnlyReplies p p.cont (natLE 1 (bitN (quiescent s g)) ++ natLE 4 d.stirs) s))))
  ∧
  (∀ (p : Packet) (c off : Nat) (s : State), Entered 0x06 4 p s → CoreSpace s p.faddr c off →
    let g := packetGtb p
    (p.flg / 16 = 0 → p.cont ≠ 0x81 → Runs (.msg p) s fun t => t.out = s.out ++ [.packet (replied s p p.cont [])] ∧ BytesKept s t
      ∧ (∀ x, x ∈ Tbl.keys (s.core c).ctxs → (s.ctx c x).away = none →
        (t.ctx c x).events = if inDom (s.ctx c x) g then Min.min 255 ((s.ctx c x).events + 1) else (s.ctx c x).events)
      ∧ ∀ d x, d ≠ c → (s.ctx d x).away = none → t.ctx d x = s.ctx d x)
    ∧ (p.flg / 16 = 1 → holdsActor s g c (off % 16) = false → Runs (.msg p) s (OnlyReplies p 0x90 [4] s))
    ∧ (p.flg / 16 = 1 → holdsActor s g c (off % 16) = true → Runs (.msg p) s fun t => t.out = s.out ∧ BytesKept s t ∧ Event.inboxMessage s.nextId ∈ t.events
      ∧ ∃ m, t.lmsgs = s.lmsgs ++ [(s.nextId, m)] ∧ (m.core, m.ctx, m.dom, m.tag) = (c, off % 16, g, p.tag) ∧ m.stamp.toNat = rf p.payload 0 4
        ∧ ∀ n, n < 64 → m.bytes.getD n 0 = p.payload.getD (12 + n) 0)
    ∧ (p.flg / 16 = 3 → holdsDom s g c = false → Runs (.msg p) s (OnlyReplies p 0x90 [4] s))
    ∧ (p.flg / 16 = 3 → holdsDom s g c = true → p.cont ≠ 0x81 →
      let gtid := leWord ((p.payload.drop 8).take 8)
      leWord (p.payload.take 8) = 4 → field gtid 63 48 = g → leWord ((p.payload.drop 16).take 8) = 0 → leWord ((p.payload.drop 24).take 8) = 0 →
      Runs (.msg p) s fun t => t = { (s.push (.abort c gtid)) with seqOut := s.seqOut + 1, out := s.out ++ [.packet (replied s p p.cont [])] })
    ∧ (p.flg / 16 = 2 → s.dom? g = none → Runs (.msg p) s (OnlyReplies p 0x90 [4] s))
    ∧ (p.flg / 16 = 2 → s.dom? g ≠ none → p.cont ≠ 0x81 → Runs (.msg p) s fun t => t.out = s.out ++ [.packet (replied s p p.cont [])] ∧ BytesKept s t
      ∧ Event.supervisorMessage g ∈ t.events ∧ ∃ m, (t.dom g).waitMsgs = (s.dom g).waitMsgs ++ [m] ∧ m.d0 = leWord (p.payload.take 8))
    ∧ (p.flg / 16 = 4 → p.cont ≠ 0x81 → Runs (.msg p) s fun t => t.out = s.out ++ [.packet (replied s p p.cont [])] ∧ BytesKept s t
      ∧ t.events = s.events ++ [.levelNotification g (rf p.payload 0 4) (rf p.payload 4 1) (BitVec.ofNat 32 (rf p.payload 5 4)) (rf p.payload 9 2)
          (rf p.payload 11 1 == 1)]))
  ∧ (∀ (p : Packet) (c off : Nat) (s : State), Entered 0x05 0 p s → CoreSpace s p.faddr c off → p.flg / 16 ≤ 3 →
      let b := p.info
      Runs (.xrun p) s fun t => BytesKept s t ∧ t.out = s.out
        ∧ t.events = s.events ++ [if p.flg / 16 = 0 then .exchangeRunDeliver s.nextId else if p.flg / 16 = 2 then .abandonment s.nextId else .closingNotice s.nextId]
        ∧ ∃ m, t.xmsgs = s.xmsgs ++ [m] ∧ (m.id, m.dst, m.doff, m.tag) = (s.nextId, c, rf b 32 8, p.tag) ∧ (m.xid, m.fromP, m.toP) = (rf b 0 2, rf b 2 2, rf b 4 2)
          ∧ m.bytes = p.payload ∧ m.rel = (p.flg / 16 == 3))
  ∧ (∀ (p : Packet) (s : State), Entered 0x0A 4 p s → p.cont ≠ 0x81 →
    let g := packetGtb p
    (s.dom? g = none → Runs (.nadir p) s (OnlyReplies p p.cont [] s))
    ∧ ∀ d, s.dom? g = some d →
      (p.src ∉ d.pkgs → Runs (.nadir p) s (OnlyReplies p 0x90 [4] s))
      ∧ (p.src ∈ d.pkgs → p.flg / 16 = 1 →
        let j := rf p.payload 0 4
        Runs (.nadir p) s fun t => BytesKept s t ∧ t.out = s.out ++ [.packet (replied s p p.cont [])] ∧ t.cores = s.cores
          ∧ (Here s d j → t.doms = s.doms)
          ∧ (¬ Here s d j → Tbl.read (t.dom g).blocks j {} = { Tbl.read d.blocks j {} with
              t := BitVec.ofNat 32 (rf p.payload 4 4), d := rf p.payload 8 2, fin := rf p.payload 10 1 == 1 }))
      ∧ (p.src ∈ d.pkgs → p.flg / 16 = 2 → Runs (.nadir p) s fun t => BytesKept s t ∧ t.out = s.out ++ [.packet (replied s p p.cont [])] ∧ t.cores = s.cores
        ∧ Event.lvstall g ∈ t.events ∧ Event.domainComplete g ∈ t.events ∧ (t.dom g).lvArmed = (d.lvArmed || rf p.payload 0 1 == 1))
      ∧ (p.src ∈ d.pkgs → 2 < p.flg / 16 → Runs (.nadir p) s (OnlyReplies p 0x90 [5] s))
      ∧ (p.src ∈ d.pkgs → p.flg / 16 = 0 → Runs (.nadir p) s fun t => BytesKept s t ∧ t.out = s.out ++ [.packet (replied s p p.cont [])]
        ∧ Tbl.find (t.dom g).peerMin p.src = some (rf p.payload 0 4 + rf p.payload 4 1 % 2 * 2 ^ 32)
        ∧ ((∃ q ∈ d.pkgs, q ≠ s.pkid ∧ q ≠ p.src ∧ Tbl.find d.peerMin q = none) → (t.dom g).nadir = d.nadir ∧ t.events = s.events)))
  ∧ ∀ (p : Packet) (va : Nat) (s : State), Entered 0x09 4 p s → va = rf p.payload 0 8 → va < 2 ^ 57 → rf p.payload 8 1 = 0 →
      let g := packetGtb p
      translatedOut s g (namedPage s g (some va)) = false → Runs (.shoot p) s fun t => BytesKept s t ∧ t.out = s.out ++ [.packet (replied s p p.cont [])]
        ∧ (∀ e ∈ t.tlb, ¬ (e.dom = g ∧ e.page = va / 65536)) ∧ ∀ e ∈ s.tlb, e.dom ≠ g → e ∈ t.tlb

/-- A question to another package goes out: a MSG packet of a subcode with its bytes (R247). -/
def Sys2Proof.Claims.Asks (t : State) (p sub : Nat) (bytes : List Byte) : Prop := ∃ r ∈ t.sent, r.pkt.op = 6 ∧ r.pkt.dst = p ∧ r.pkt.flg / 16 = sub ∧ r.pkt.payload = bytes

/-- What an instruction needs of another package's part of its domain. -/
def Sys2Proof.Claims.FarPartsAreAsked : Prop :=
  (∀ (a d : Reg) (s : State), Settled s [d, a] →
    let g := s.dom (domOf s.k)
    let v := (rd s.k a).toNat
    let w := Tbl.read g.actors (Tbl.read g.blocks v {}).actor {}
    v < g.nblk → v < 2 ^ 64 - 2 → ¬ Here s g v → (∀ j b, ownBlockOf s = some (j, b) → j ≠ v ∧ b.edges.find? (fun e => e.j == v) = none) →
    (s.sent = [] → Runs (.lvrd a d) s fun t => Waits s t ∧ Asks t (g.pkgs.getD w.pkg 0) 9 (natLE 4 v))
    ∧ ∀ r l, s.sent = [r] → askedBy s.cur.1 (msgId s.cur.2) 9 (g.pkgs.getD w.pkg 0, 0, natLE 4 v) r = true → g.scope ≠ .sys → r.nack = none →
      (r.got = none → Runs (.lvrd a d) s (Waits s))
      ∧ (r.got = some l → Runs (.lvrd a d) s fun t => rd t.k d = (if d = 0 then 0 else leWord l) ∧ RegsKept s t [d] ∧ t.k.pc = nextPc s.k 4 ∧ BytesKept s t
        ∧ t.k.region = (readReplies s.k [a]).region + 1 ∧ t.sent = []))
  ∧ (∀ (s : State), isSuper s s.k = true → s.sent = [] →
    let g := domOf s.k
    ((s.dom g).frozen = false → ¬ Alone s g → Runs .freeze s fun t => t.k.pc = s.k.pc ∧ (t.dom g).draining = true ∧ (t.dom g).frozen = false ∧ RegsKept s t [] ∧ BytesKept s t
      ∧ ∀ p ∈ (s.dom g).pkgs, p ≠ s.pkid → Asks t p 10 [0])
    ∧ (¬ Alone s g → Runs .thaw s fun t => Waits s t ∧ (t.dom g).frozen = (s.dom g).frozen ∧ ∀ p ∈ (s.dom g).pkgs, p ≠ s.pkid → Asks t p 10 [3])
    ∧ ∀ (a d : Reg) (j : Nat), Settled s [d, a] → Idle s → (rd s.k a).toNat % 16 = 0 → (s.dom g).frozen = true → j < (s.dom g).nblk → ¬ Here s (s.dom g) j →
      Runs (.front a d) s fun t => Waits s t ∧ Asks t ((s.dom g).pkgs.getD (Tbl.read (s.dom g).actors (Tbl.read (s.dom g).blocks j {}).actor {}).pkg 0) 12 (natLE 4 j))
  ∧ (∀ (a d : Reg) (s : State) (x lo : Nat), Settled s [d, a] → Idle s → PlainBanks s x → (rd s.k a).toNat = 0xC000000000000000 + lo → lo % 64 = 0 → s.sent = [] →
    let g := s.dom (domOf s.k)
    let w := fun (i : Nat) => leWord (readBytes (s.core x).mem (lo + 8 * i) 8)
    lo + 64 * (g.nblk + 1) ≤ 0x30000 → w 0 = BitVec.ofNat 64 g.nblk → (∀ i, 1 ≤ i → i < 8 * (g.nblk + 1) → w i = 0) → g.frozen = true → levelsOnWay s (domOf s.k) = false →
    g.blocks ≠ [] → (∀ b ∈ g.blocks, b.1 < g.nblk) → ¬ Alone s (domOf s.k) → Runs (.lvbind a d) s fun t => Waits s t ∧ (∀ p ∈ g.pkgs, p ≠ s.pkid → ∀ b ∈ g.blocks,
      ∃ r ∈ t.sent, r.pkt.op = 6 ∧ r.pkt.dst = p ∧ r.pkt.flg / 16 = 11 ∧ rf r.pkt.payload 0 4 = b.1 % 2 ^ 32 ∧ r.pkt.payload.drop 5 = List.replicate 64 0))
  ∧ ∀ (a : Reg) (s : State), Settled s [a] →
    let v := (rd s.k a).toNat
    let g := domOf s.k
    let n := v / 2 ^ 16 % 2 ^ 16
    let home := (s.dom g).pkgs.headD s.pkid
    (s.k.arrival = none → v / 2 ^ 8 % 2 ^ 8 = 0 → v / 2 ^ 32 = 0 → n ≠ 0 → PeerFree s s.cur.1 .sys → releaseReady (opsOf s s.cur.1 s.cur.2) s.nextId .sys = true → home ≠ s.pkid →
      (∀ q ∈ s.barriers, ¬ (q.dom = g ∧ q.scope = .sys ∧ q.num = v % 256)) → Runs (.bar .sys a) s fun t => t.k.pc = s.k.pc ∧ RegsKept s t [] ∧ BytesKept s t
        ∧ t.barriers = s.barriers ∧ ∃ id, t.k.arrival = some id ∧ Asks t home 6 (natLE 1 (v % 256) ++ natLE 2 n ++ natLE 8 id))
    ∧ (s.k.arrival.isSome → ∀ r, s.sent = [r] → r.core = s.cur.1 → r.op = msgId s.cur.2 → r.pkt.op = 6 → r.pkt.flg / 16 = 6 →
      (r.got = none → r.nack = none → Runs (.bar .sys a) s (Waits s))
      ∧ (∀ b, r.got = some b → rf b 0 1 = 0 → s.k.departed = false → Runs (.bar .sys a) s (Waits s))
      ∧ (∀ b, r.got = some b → rf b 0 1 ≠ 0 → Runs (.bar .sys a) s fun t => Parks { cause := .shape, einfo := 0x91 } s t ∧ t.k.arrival = none)
      ∧ (∀ b, r.got = some b → rf b 0 1 = 0 → s.k.departed = true → (∀ e ∈ (s.die (dieOf s.cur.1)).sectors, isOwn (e.1 * 64) = true) → (s.core s.cur.1).stash = [] →
        Runs (.bar .sys a) s fun t => Quietly 4 s t ∧ t.k.arrival = none ∧ t.k.departed = false))

/-- R111, R247, R273, R297, R298, R317, R318, R325, R328, R330, R331, R360, R367, R369, R370: what the messages of peers do here: an EVPOST counts one
event for every context of its domain on the core; an LVSEND enters the levels' messages, or is refused where no actor of the domain lives; a
supervisor's message waits for its domain's supervisor; a supervisor's command becomes the move it asks for; a level becomes its notification; a run,
a notice or an abandonment of an exchange waits for its party; a NADIR's value is kept for its package, a commit and a rest that it tells are taken; a
domain's package counts an arrival at a barrier and tells the departure, freezes its part, and answers for a block's level, a block's front entry and
whether its part rests; a SHOOT drops the page's translations. What an instruction needs of another package's part of its domain it asks that package,
waits, and goes on with the answer: LVRD a block's level, FREEZE and THAW each package's own end of it, FRONT a block's entry, LVBIND each package's
edges, BAR of system scope its arrival at the launch's first package.
The payloads' layouts and the questions are the model's (log 25). -/
def Obligations.PeerMessagesReachTheirUnits : Prop := PeerUnitsAreReached ∧ FarPartsAreAsked

/-- R64: a MIG packet that asks for a page which is not here, or stands at another frame, is refused; one for a page of the domain stalls its writes, sends the page in
256 runs of 256 bytes to the frame that it names, and is answered once every run is. A run for a frame that nothing here waits for is refused; another is written
into it with its sectors' poison. The message that the requester's leaf is rewritten ends the move: the leaf here names the requester's frame, unless it has changed,
which refuses the message. The message that the move is abandoned ends it and changes nothing else. -/
def Sys2Proof.Claims.PagesMoveToTheirPeers : Prop :=
  ∀ (p : Packet) (s : State), Entered 0x08 4 p s → p.src ≠ 0 →
    let g := packetGtb p
    let va := rf p.payload 0 8
    let frame := rf p.payload 8 8
    let ours := s.moves.find? fun m => m.dom == g && m.va == va && m.newPeer == p.src
    let ended := fun (m : Move) (t : State) => t.moves = s.moves.filter fun n => n.id != m.id
    (p.flg / 16 = 1 →
      ((∀ m ∈ s.moves, m.dom = g → m.oldPeer = p.src → frameAt m.newHome m.newPfn ≠ p.faddr / 65536 * 65536) → Runs (.mig p) s (OnlyReplies p 0x90 [4] s))
      ∧ ((∃ m ∈ s.moves, m.dom = g ∧ m.oldPeer = p.src ∧ frameAt m.newHome m.newPfn = p.faddr / 65536 * 65536) → p.payload.length = 256 → p.faddr % 256 = 0 →
        dirEntry s (p.faddr / 256) = {} → s.replay.rstat ≠ 2 → s.hinj.mode ≠ 1 → Memory.wf s.mem = true → Runs (.mig p) s fun t =>
          readBytes t.mem p.faddr 256 = p.payload ∧ (∀ x, (x < p.faddr ∨ p.faddr + 256 ≤ x) → readByte t.mem x = readByte s.mem x)
          ∧ (∀ i, i < 4 → poisoned t (p.faddr + 64 * i) = (rf p.info 2 1 / 2 ^ i % 2 == 1)) ∧ t.out = s.out ++ [.packet (replied s p p.cont [])]))
    ∧ (va < 2 ^ 57 → va % 65536 = 0 →
      (p.flg / 16 = 0 → ours = none →
        ((s.dom? g = none ∨ walk s (s.dom g).root va = none) → Runs (.mig p) s (OnlyReplies p 0x90 [4] s))
        ∧ ∀ q e l, s.dom? g = some q → walk s q.root va = some (e, false) → leafAddr s q.root va = some l →
          (ptePeer e ≠ 0 ∨ frameAt (pteHome e) (ptePfn e) ≠ p.faddr ∨ moving s p.faddr = true → Runs (.mig p) s (OnlyReplies p 0x90 [4] s))
          ∧ (ptePeer e = 0 → frameAt (pteHome e) (ptePfn e) = p.faddr → moving s p.faddr = false → Runs (.mig p) s fun t => BytesKept s t ∧ Event.mig p ∈ t.events
            ∧ (∃ m, t.moves = s.moves ++ [m] ∧ (m.dom, m.va, m.leafAddr, m.leaf, m.oldPfn, m.oldHome, m.newPeer) = (g, va, l, e, ptePfn e, pteHome e, p.src)
              ∧ (m.newHome, m.newPfn) = (frame / 2 ^ 52, frame % 2 ^ 52 / 65536))
            ∧ t.sent.length = s.sent.length + 256
            ∧ ∀ n, n < 256 → ∃ r ∈ t.sent, r.pkt.op = 0x08 ∧ r.pkt.flg / 16 = 1 ∧ r.pkt.dst = p.src ∧ r.pkt.faddr = frame + 256 * n ∧ r.pkt.payload = hubRead s (p.faddr + 256 * n) 256))
      ∧ ∀ m, ours = some m →
        let out := s.sent.filter fun r => r.core == 2 ^ 35 && r.op == m.id
        (p.flg / 16 = 0 →
          ((∃ r ∈ out, r.nack ≠ none) → Runs (.mig p) s fun t => BytesKept s t ∧ ended m t ∧ t.out = s.out ++ [.packet (replied s p 0x90 [4])])
          ∧ ((∀ r ∈ out, r.nack = none) → (∃ r ∈ out, r.got = none) → Runs (.mig p) s fun t => BytesKept s t ∧ t.moves = s.moves ∧ t.out = s.out ∧ Event.mig p ∈ t.events)
          ∧ ((∀ r ∈ out, r.nack = none ∧ r.got ≠ none) → Runs (.mig p) s fun t => BytesKept s t ∧ t.moves = s.moves ∧ t.out = s.out ++ [.packet (replied s p p.cont [])]
            ∧ ∀ r ∈ t.sent, r ∉ out))
        ∧ (p.flg / 16 = 2 →
          (readEntry s m.leafAddr ≠ m.leaf → Runs (.mig p) s fun t => BytesKept s t ∧ ended m t ∧ t.out = s.out ++ [.packet (replied s p 0x90 [4])])
          ∧ (readEntry s m.leafAddr = m.leaf → pageUncached s (frameAt m.oldHome m.oldPfn) → PlainSpan s m.leafAddr 8 → Runs (.mig p) s fun t =>
            (let l := leWord (readBytes t.mem m.leafAddr 8)
             ptePfn l = m.newPfn % 2 ^ 36 ∧ pteHome l = m.newHome % 16 ∧ ptePeer l = m.newPeer % 2 ^ 12 ∧ pteMode l = 3)
            ∧ ended m t ∧ ∃ l q, t.out = s.out ++ l ++ [.packet q] ∧ (q.op, q.dst, q.tag) = (p.cont, p.src, p.tag)))
        ∧ (p.flg / 16 = 3 → Runs (.mig p) s fun t => BytesKept s t ∧ ended m t ∧ t.out = s.out ++ [.packet (replied s p p.cont [])]))

/-- R64, R104, R247-R249, R252, R276: a reply whose TAG names no request here changes nothing; VAL gives its data to the access that TAG names; DEP writes its data into the requester's
banks at RADDR; CNT adds to the bytes that the sender of a run counts as acknowledged; DONE retires a store, or ends the wait of another access; a NACK
tells an access its reason and fails a store, whose firing then parks with FABNACK.
The payloads' layouts are the model's (log 25). -/
def Obligations.RepliesRetireTheirRequests : Prop :=
  (∀ (p : Packet) (s : State), (∀ r ∈ s.sent, r.tag ≠ p.tag ∧ r.held = false) → (∀ w ∈ s.groups, w.tag ≠ p.tag) →
    ∀ i ∈ [Instr.val p, .dep p, .cnt p, .done p, .nack p, .unknown p, .mack p], Runs i s fun t => t = s)
  ∧ ∀ (p : Packet) (r : Sent) (s : State), r ∈ s.sent → r.tag = p.tag → (∀ q ∈ s.sent, q.held = false ∧ (q.tag = r.tag → q = r)) → r.core < 8192 →
    let others := fun (t : State) => (∀ q ∈ s.sent, q.tag ≠ r.tag → q ∈ t.sent) ∧ t.out = s.out
    (r.pkt.cont = 0x80 → Runs (.val p) s fun t => { r with got := some p.payload } ∈ t.sent ∧ others t ∧ BytesKept s t ∧ t.cores = s.cores)
    ∧ (∀ b, r.pkt.cont = 0x81 → b = ((opById s r.core r.op).map (·.bank)).getD r.core → p.raddr + p.payload.length ≤ 0x30000 → p.raddr % 256 + p.payload.length ≤ 256 →
      (s.core b).bad = [] → (s.core b).dirl = [] → (s.core b).inj.mode ≠ 1 → Memory.wf (s.core b).mem = true → Runs (.dep p) s fun t =>
        readBytes (t.core b).mem p.raddr p.payload.length = p.payload ∧ { r with got := some p.payload } ∈ t.sent ∧ others t
        ∧ (∀ x, (x < p.raddr ∨ p.raddr + p.payload.length ≤ x) → readByte (t.core b).mem x = readByte (s.core b).mem x)
        ∧ (∀ c, c ≠ b → (t.core c).mem = (s.core c).mem) ∧ t.mem = s.mem)
    ∧ (∀ e, r.pkt.cont = 0x82 → (s.exchs.find? fun e => e.core == r.core && e.op == r.op) = some e → Runs (.cnt p) s fun t =>
        (∀ q ∈ t.sent, q.tag ≠ r.tag) ∧ others t ∧ BytesKept s t ∧ Event.exchangeEnd e.id ∈ t.events ∧ ∃ f ∈ t.exchs, f.id = e.id ∧ f.acked = e.acked + p.len)
    ∧ ∀ o, opById s r.core r.op = some o → o.id = r.op → r.pkt.op ≠ 5 → r.pkt.op ≠ 6 → r.op ≠ 2 ^ 42 →
      (r.pkt.cont = 0x83 → isStore o = true → o.status = 0 → Runs (.done p) s fun t => opById t r.core r.op = none ∧ (∀ q ∈ t.sent, q.tag ≠ r.tag) ∧ others t ∧ BytesKept s t)
      ∧ (r.pkt.cont = 0x83 → isStore o = false → Runs (.done p) s fun t => { r with got := some [] } ∈ t.sent ∧ others t ∧ BytesKept s t ∧ t.cores = s.cores)
      ∧ (isStore o = false → Runs (.nack p) s fun t => { r with nack := some (rf p.payload 0 1) } ∈ t.sent ∧ others t ∧ BytesKept s t ∧ t.cores = s.cores)
      ∧ (isStore o = true → o.ctx < 16 → (s.ctx r.core o.ctx).work ≠ none → (s.ctx r.core o.ctx).status ≠ .parked → (s.ctx r.core o.ctx).pend = none → Runs (.nack p) s fun t =>
        (∀ q ∈ t.sent, q.tag ≠ r.tag) ∧ others t ∧ BytesKept s t ∧ Event.park r.core o.ctx ∈ t.events
        ∧ (∃ x, opById t r.core r.op = some x ∧ x.status = 2 ∧ x.cause = .fabnack)
        ∧ ∃ n, (t.ctx r.core o.ctx).pend = some n ∧ n.stop.cause = .fabnack ∧ n.stop.eaddr = o.addr ∧ n.stop.einfo = BitVec.ofNat 64 (rf p.payload 0 1))

/-- The switch of a tier above this package holds a valid entry for a group (R254). -/
def Sys2Proof.Claims.GroupAt (s : State) (t g : Nat) (root : Bool) (down : Nat) : Prop :=
  Tbl.read s.asterism (t * 256 + g) 0 = 2 ^ 17 + bitN root * 2 ^ 16 + down ∧ down < 2 ^ 16

/-- R253-R256: a copy of a group write that its port's table passes is performed and answered with one positive, one that it does not pass with one negative and this package's number;
a group write of this package whose board switch is the group's top is copied to every other port of DOWN; an aggregate is added at the switch that waits for it and, from the last port,
ends the write at its source: with no negative as DONE does, else with FABNACK and the members counted; a silent port counts as one negative 20 µs after its copy. -/
def Sys2Proof.Claims.GroupWritesReachEveryMember : Prop :=
  (∀ (p : Packet) (s : State) (down : Nat), s.pkid ≠ 0 → p.op = 4 → 0xF00 ≤ p.dst → p.src ≠ s.pkid → Fresh s p → GroupAt s 0 (p.dst - 0xF00) true down →
    (down / 2 ^ (s.pkid % 16) % 2 = 0 → Runs (.gwr p) s fun t => t = s)
    ∧ (down / 2 ^ (s.pkid % 16) % 2 = 1 →
      (admitted s p 3 = false → Runs (.gwr p) s (OnlyReplies p 0x84 (natLE 2 0 ++ natLE 2 1 ++ natLE 2 s.pkid) s))
      ∧ (admitted s p 3 = true → p.payload.length = p.len → PlainSpan s p.faddr p.len → Runs (.gwr p) s fun t =>
        readBytes t.mem p.faddr p.len = p.payload ∧ (∀ x, (x < p.faddr ∨ p.faddr + p.len ≤ x) → readByte t.mem x = readByte s.mem x)
        ∧ t.out = s.out ++ [.packet (replied s p 0x84 (natLE 2 1 ++ natLE 2 0 ++ natLE 2 0xFFF))])))
  ∧ (∀ (p : Packet) (s : State) (down : Nat), s.pkid ≠ 0 → p.op = 4 → 0xF00 ≤ p.dst → p.src = s.pkid → (∃ r ∈ s.sent, r.tag = p.tag ∧ r.pkt.op = 4) → (∀ w ∈ s.groups, w.tag ≠ p.tag) → Fresh s p →
      GroupAt s 0 (p.dst - 0xF00) true down → down ≠ 0 → Runs (.gwr p) s fun t => BytesKept s t ∧ (∃ w, t.groups = s.groups ++ [w] ∧ (w.tag, w.tier, w.pos, w.neg) = (p.tag, 0, 0, 0)
        ∧ ∀ n, n < 16 → (n ∈ w.ports ↔ down / 2 ^ n % 2 = 1))
        ∧ (∀ n, n < 16 → down / 2 ^ n % 2 = 1 → Event.mackPortTimeout p.tag n ∈ t.events
          ∧ (n ≠ s.pkid % 16 → .copy n p ∈ t.out))
        ∧ t.out.length + bitN (down / 2 ^ (s.pkid % 16) % 2 == 1) = s.out.length + ((upFrom 0 16).filter fun n => down / 2 ^ n % 2 == 1).length)
  ∧ (∀ (p : Packet) (w : GroupWrite) (s : State), s.groups = [w] → w.tag = p.tag → w.tier = 0 → s.pkid ≠ 0 → p.src / 16 = s.pkid / 16 → p.src % 16 ∈ w.ports →
    let sum := fun (x : GroupWrite) => (x.tag, x.tier, x.pos, x.neg, x.fneg) = (w.tag, 0, w.pos + rf p.payload 0 2, w.neg + rf p.payload 2 2, Min.min w.fneg (rf p.payload 4 2))
    ((∃ q ∈ w.ports, q ≠ p.src % 16) → Runs (.mack p) s fun t => t.events = s.events ∧ BytesKept s t ∧ ∃ x, t.groups = [x] ∧ sum x ∧ x.ports = w.ports.filter (· != p.src % 16))
    ∧ ((∀ q ∈ w.ports, q = p.src % 16) → Runs (.mack p) s fun t => t.groups = [] ∧ BytesKept s t ∧ ∃ q, t.events = s.events ++ [.mack q] ∧ q.tag = w.tag
      ∧ rf q.payload 0 2 = (w.pos + rf p.payload 0 2) % 65536 ∧ rf q.payload 2 2 = (w.neg + rf p.payload 2 2) % 65536))
  ∧ (∀ (p : Packet) (r : Sent) (o : Op) (s : State), (∀ w ∈ s.groups, w.tag ≠ p.tag) → r ∈ s.sent → r.tag = p.tag → (∀ q ∈ s.sent, q.tag = r.tag → q = r) → r.core < 8192 → r.pkt.op = 4 →
      opById s r.core r.op = some o → o.id = r.op → isStore o = true → o.status = 0 → r.op ≠ 2 ^ 42 → o.ctx < 16 →
      (rf p.payload 2 2 = 0 → Runs (.mack p) s fun t => opById t r.core r.op = none ∧ (∀ q ∈ t.sent, q.tag ≠ r.tag) ∧ BytesKept s t)
      ∧ (rf p.payload 2 2 ≠ 0 → (s.ctx r.core o.ctx).work ≠ none → (s.ctx r.core o.ctx).status ≠ .parked → (s.ctx r.core o.ctx).pend = none → Runs (.mack p) s fun t =>
        BytesKept s t ∧ ∃ n, (t.ctx r.core o.ctx).pend = some n ∧ n.stop.cause = .fabnack ∧ n.stop.eaddr = o.addr
          ∧ n.stop.einfo = BitVec.ofNat 64 (Min.min (rf p.payload 0 2) 0xFFF * 2 ^ 24 + Min.min (rf p.payload 2 2) 0xFFF * 2 ^ 12 + rf p.payload 4 2 % 4096)))
  ∧ ∀ (tag n : Nat) (s : State), n < 16 →
    ((∀ w ∈ s.groups, w.tag = tag → w.tier = 0 → n ∉ w.ports) → Runs (.mackPortTimeout tag n) s fun t => t = s)
    ∧ ∀ w, s.groups = [w] → w.tag = tag → w.tier = 0 → n ∈ w.ports →
      (s.time < w.since + 26000 → Runs (.mackPortTimeout tag n) s fun t => t.groups = s.groups ∧ Event.mackPortTimeout tag n ∈ t.events)
      ∧ (w.since + 26000 ≤ s.time → (∃ q ∈ w.ports, q ≠ n) → Runs (.mackPortTimeout tag n) s fun t => ∃ x, t.groups = [x] ∧ (x.tag, x.tier, x.pos, x.neg) = (tag, 0, w.pos, w.neg + 1)
        ∧ x.ports = w.ports.filter (· != n) ∧ x.fneg = Min.min w.fneg (max 1 (s.pkid / 16 * 16 + n)))

/-- R257, R259-R261: the addressed switch replaces its entry for the group at once when no packet of the group waits there, and answers with the old one; until then it waits; a tier that does
not hold the sender refuses; an access-table entry is written at every port of the mask. A failed link group's unanswered requests are sent again over another, and with none
left fail with reason 2; a restored one drops the kept AMO replies and keeps the highest sequences. -/
def Sys2Proof.Claims.SwitchesAndLinksAreReconfigured : Prop :=
  (∀ (p : Packet) (s : State), 0 < s.pkid → s.pkid < 4096 → p.op = 0x0B → p.src = s.pkid → p.flg / 16 = 0 →
    let a := leWord (p.payload.take 8)
    let g := field a 7 0
    let k := field a 9 8
    let here := k < 3 ∧ field a 23 12 / 16 ^ (k + 1) = s.pkid / 16 ^ (k + 1)
    (¬ here → Runs (.cfg p) s fun t => t = s)
    ∧ (here → (∀ w ∈ s.groups, w.tier ≠ k) → Runs (.cfg p) s fun t => BytesKept s t
      ∧ Tbl.read t.asterism (k * 256 + g) 0 = field (leWord ((p.payload.drop 8).take 8)) 17 0
      ∧ (∀ n, n ≠ k * 256 + g → Tbl.read t.asterism n 0 = Tbl.read s.asterism n 0)
      ∧ ∃ q, t.events = s.events ++ [.val q] ∧ q.tag = p.tag ∧ q.payload = natLE 3 (Tbl.read s.asterism (k * 256 + g) 0))
    ∧ (here → ∀ w r, w ∈ s.groups → w.tier = k → s.sent.find? (fun r => r.tag == w.tag) = some r → r.pkt.dst = 0xF00 + g → Runs (.cfg p) s fun t =>
      t.asterism = s.asterism ∧ Event.cfg p ∈ t.events))
  ∧ (∀ (p : Packet) (s : State), s.pkid ≠ 0 → p.op = 0x0B → p.src = s.pkid → p.flg / 16 = 1 →
    let b := leWord ((p.payload.drop 8).take 8)
    let w := fun i => leWord ((p.payload.drop (16 + 8 * i)).take 8)
    Runs (.cfg p) s fun t => BytesKept s t ∧ t.asterism = s.asterism ∧ (∃ q, t.events = s.events ++ [.val q] ∧ q.tag = p.tag)
      ∧ ∀ n k, n < 8 → k < 64 → (b.getLsbD n = true ∧ k = field b 13 8 → Tbl.read t.acl (n * 64 + k) {} = ⟨w 0, w 1, field (w 2) 11 0, field (w 2) 27 16, (w 2).getLsbD 39, field (w 2) 36 32⟩)
        ∧ (¬ (b.getLsbD n = true ∧ k = field b 13 8) → Tbl.read t.acl (n * 64 + k) {} = Tbl.read s.acl (n * 64 + k) {}))
  ∧ (∀ (p : Packet) (s : State), (s.pkid = 0 → Runs (.cfg p) s fun t => t = s) ∧ (s.pkid ≠ 0 → p.op ≠ 0x0B → Fresh s p → Runs (.cfg p) s (OnlyReplies p 0x90 [5] s)))
  ∧ (∀ (lg : Nat) (s : State),
    (8 ≤ lg ∨ lg ∈ s.linkDown → Runs (.linkGroupFail lg) s fun t => t = s)
    ∧ (lg < 8 → lg ∉ s.linkDown → (∃ m, m < 8 ∧ m ≠ lg ∧ m ∉ s.linkDown) → Runs (.linkGroupFail lg) s fun t =>
      let carried := fun (r : Sent) => r.lg == lg && r.got == none && r.nack == none
      lg ∈ t.linkDown ∧ BytesKept s t ∧ t.cores = s.cores ∧ t.out = s.out ++ (s.sent.filter fun r => carried r && !r.held).map (fun r => .packet r.pkt)
        ∧ t.sent.length = s.sent.length ∧ (∀ r ∈ s.sent, carried r = false → r ∈ t.sent)
        ∧ ∀ r ∈ s.sent, carried r = true → r.held = false → ∃ m, m < 8 ∧ m ∉ t.linkDown ∧ { r with lg := m, resent := true } ∈ t.sent)
    ∧ (lg < 8 → lg ∉ s.linkDown → (∀ m, m < 8 → m ≠ lg → m ∈ s.linkDown) → s.exchs = [] →
      (s.sent = [] → Runs (.linkGroupFail lg) s fun t => t = { s with linkDown := s.linkDown ++ [lg], moves := s.moves.filter fun m => m.newPeer == 0 })
      ∧ ∀ r o, s.sent = [r] → r.core < 8192 → r.pkt.op ∉ [3, 5, 6] → r.got = none → r.nack = none → opById s r.core r.op = some o → isStore o = false → r.op ≠ 2 ^ 42 →
        Runs (.linkGroupFail lg) s fun t => t.sent = [{ r with nack := some 2 }] ∧ BytesKept s t))
  ∧ ∀ (lg : Nat) (s : State), (lg ∉ s.linkDown → Runs (.linkGroupRestore lg) s fun t => t = s)
    ∧ (lg ∈ s.linkDown → Runs (.linkGroupRestore lg) s fun t => lg ∉ t.linkDown ∧ (∀ m, m ≠ lg → (m ∈ t.linkDown ↔ m ∈ s.linkDown)) ∧ BytesKept s t ∧ t.cores = s.cores
      ∧ ∀ q, Tbl.find s.replies q ≠ none → (Tbl.read t.replies q {}).entries = [] ∧ (Tbl.read t.replies q {}).high = (Tbl.read s.replies q {}).high)

/-! ## Launches, gangs, energy and the end of a domain (R326, R333-R351, R385) -/

/-- What a launch's record and tables give a placement: nothing refuses it, it runs on this package alone, it has no rings, and its contexts are free (R337-R340). -/
def Sys2Proof.Claims.Placed (s : State) (l : Launch) (tabs : Tabs) (ox oy : Nat) (spots : Tbl Spot) (tasks : List Spot) : Prop :=
  refuseFirst l = none ∧ refuseLaunch s l.bytes tabs = none ∧ findPlace s (domainOf s l tabs) = some (ox, oy, spots, tasks) ∧ rNpkg l.bytes = 1 ∧ rf l.bytes 72 2 = 0
    ∧ l.replay = false ∧ (spots.map (·.2) ++ tasks).all (fun p => !p.victim) = true ∧ ((spots.map (·.2) ++ tasks).map fun p => (p.core, p.ctx)).Nodup
    ∧ (spots.map (·.1)).Nodup

/-- The tables of a launch, each read once (R335). -/
def Sys2Proof.Claims.tabsOf (l : Launch) (tabs : Tabs) : Prop :=
  ∃ a b c d e f g, l.tabs = [a, b, c, d, e, f, g] ∧ tabs = ⟨.ok a, .ok b, .ok c, .ok d, .ok e, .ok f, .ok g⟩

/-- A record whose tables and image are all empty: read at once, and refused with SHAPE (R337). -/
def Sys2Proof.Claims.emptyRecord (r : List Byte) : Prop :=
  rNact r = 0 ∧ rNblk r = 0 ∧ rf r 72 2 = 0 ∧ rf r 74 2 = 0 ∧ rf r 8 4 = 0 ∧ rNpkg r ≤ 1

/-- A notification of a kind about a domain is the last that waits for the host (R390). -/
def Sys2Proof.Claims.Told (kind g : Nat) (t : State) : Prop :=
  ∃ l r, t.nheld = l ++ [r] ∧ r.getD 0 0 = BitVec.ofNat 8 kind ∧ (r.drop 4).take 2 = natLE 2 g

/-- R338-R340, R351: LAUNCH refuses an address that is no multiple of 512 (ALIGN) or names a group (LADDR); its reply tells STATUS 2 with the cause and the child's
GTB where the child is refused, a P0 child of a launch that is not P0 with PRIV, and STATUS 0 with the GTB where it stands or waits. A pending launch that cannot be placed stays as it
is; one that can starts: every actor and task context idle at home, the image at IMGORG of every core taken, no other byte of their banks changed. -/
def Sys2Proof.Claims.LaunchesArePlacedAndStarted : Prop :=
  (∀ (a d : Reg) (s : State), Settled s [d, a] →
    let ea := rd s.k a
    (ea.toNat % 512 ≠ 0 → Runs (.launch a d) s (Parks { cause := .align, eaddr := ea } s))
    ∧ (ea.toNat % 512 = 0 → field ea 63 62 = 1 → 0xF00 ≤ field ea 61 50 → Runs (.launch a d) s (Parks { cause := .laddr, eaddr := ea } s))
    ∧ ∀ x lo, Idle s → PlainBanks s x → LocalAt ea lo 512 → s.pendingLaunch.length < 256 →
      let r := readBytes (s.core x).mem lo 512
      let par := s.dom (domOf s.k)
      let u := (s.updK fun k => readReplies k [a]).updCtx s.cur.1 s.cur.2 region
      let l : Launch := { bytes := r, parent := some (runClass par, par.pre == 0) }
      let replies := fun (v : Nat) (t : State) => rd t.k d = (if d = 0 then 0 else BitVec.ofNat 64 (v + rGtb r)) ∧ RegsKept s t [d] ∧ t.k.pc = nextPc s.k 4
      (rCls r = 0 → rPre r = 0 → par.pre ≠ 0 → Runs (.launch a d) s fun t => replies (2 * 2 ^ 56 + 2 * 2 ^ 48) t ∧ s.nheld.length < t.nheld.length)
      ∧ ((rCls r ≠ 0 ∨ rPre r ≠ 0 ∨ par.pre = 0) → emptyRecord r → Runs (.launch a d) s fun t => replies (2 * 2 ^ 56 + 21 * 2 ^ 48) t ∧ s.nheld.length < t.nheld.length)
      ∧ (∀ m v, tryLaunch u l = .ok (.pending m) v → v.k = u.k → v.cur = s.cur → Runs (.launch a d) s fun t => replies 0 t ∧ t.pendingLaunch = v.pendingLaunch ++ [m])
      ∧ (∀ v, tryLaunch u l = .ok .started v → v.k = u.k → v.cur = s.cur → (∀ e ∈ s.cores, ∀ y ∈ e.2.ctxs, ∀ w, y.2.work = some w → w.dom ≠ rGtb r) →
        (∀ e ∈ s.dies, ∀ y ∈ e.2.slots, ∀ w, y.2.ctx.work = some w → w.dom ≠ rGtb r) → Runs (.launch a d) s fun t => replies 0 t ∧ t.dom? (rGtb r) ≠ none))
  ∧ (∀ (s : State), s.pendingLaunch = [] → Runs .launchRetry s fun t => t = s)
  ∧ ∀ (s : State) (l : Launch) (tabs : Tabs), s.pendingLaunch = [l] → tabsOf l tabs → launchClass l < 8 →
    let r := l.bytes
    let g := rGtb r
    (refuseFirst l = none → refuseLaunch s r tabs = none → findPlace s (domainOf s l tabs) = none → l.replay = false → Runs .launchRetry s fun t => t = s)
    ∧ (∀ c, refuseFirst l = some c ∨ (refuseFirst l = none ∧ refuseLaunch s r tabs = some c) → l.replay = false → Runs .launchRetry s fun t => t.pendingLaunch = [] ∧ s.nheld.length < t.nheld.length
      ∧ ∀ w, l.win = some w → (Tbl.read t.wins w {}).lstat = 2 ∧ (Tbl.read t.wins w {}).lcause = c.1.code ∧ (Tbl.read t.wins w {}).lgtb = g)
    ∧ ∀ ox oy spots tasks img, Placed s l tabs ox oy spots tasks → tabs.img = .ok img → img.length = rf r 8 4 → memoriesCanonical s → Runs .launchRetry s fun t =>
      t.pendingLaunch = [] ∧ t.nheld = s.nheld
      ∧ (∃ q, t.dom? g = some q ∧ q.started = true ∧ (q.ox, q.oy, q.cls, q.imgorg, q.imglen) = (ox, oy, (domainOf s l tabs).cls, rf r 12 4, rf r 8 4)
        ∧ ∀ e ∈ spots, ∀ a, Tbl.find q.actors e.1 = some a → (a.core, a.ctx) = (e.2.core, e.2.ctx))
      ∧ (∀ e ∈ spots, let k := t.ctx e.2.core e.2.ctx; k.home = some (g, some e.1) ∧ k.status = .idle ∧ k.work = none ∧ k.widl = rAddr r 80 ∧ (k.dox, k.doy) = (ox, oy))
      ∧ (∀ p ∈ tasks, let k := t.ctx p.core p.ctx; k.home = some (g, none) ∧ k.status = .idle ∧ k.work = none)
      ∧ (∀ p ∈ spots.map (·.2) ++ tasks, readBytes (t.core p.core).mem (rf r 12 4) (rf r 8 4) = img
        ∧ ∀ y, (y < rf r 12 4 ∨ rf r 12 4 + rf r 8 4 ≤ y) → readByte (t.core p.core).mem y = readByte (s.core p.core).mem y)
      ∧ ∀ w, l.win = some w → (Tbl.read t.wins w {}).lstat = 0 ∧ (Tbl.read t.wins w {}).lgtb = g

/-- R333, R334, R349: a window's registers follow its record: a host's write of the slot whose seal is WSEQ begins a copy while the window is enabled; a copied record that is refused tells LSTAT 2 with
its cause and GTB, and the window goes on at the next slot and the next seal; a full pending list holds the copy. A window is enabled only once bring-up is complete, and is
destroyed once its copy is done. -/
def Sys2Proof.Claims.LaunchWindowsCopySealedRecords : Prop :=
  (∀ (w : Nat) (bs : List Byte) (s : State),
    let k := Tbl.read s.wins w {}
    let slot := 8 * 2 ^ 52 + k.wbase.toNat + 512 * k.whead
    (k.busy = false → bs.length = 512 → Memory.wf s.mem = true → Runs (.launchWindowCopy w bs) s fun t => readBytes t.mem slot 512 = bs
      ∧ (∀ x, (x < slot ∨ slot + 512 ≤ x) → readByte t.mem x = readByte s.mem x) ∧ t.cores = s.cores
      ∧ (k.en = true → (bs.getD 511 0).toNat = k.wseq → (Tbl.read t.wins w {}).busy = true ∧ Event.launchWindowCopy w bs ∈ t.events)
      ∧ (k.en = false ∨ (bs.getD 511 0).toNat ≠ k.wseq → t.wins = s.wins ∧ t.events = s.events))
    ∧ (k.busy = true → 256 ≤ s.pendingLaunch.length → Runs (.launchWindowCopy w bs) s fun t => t = s.push (.launchWindowCopy w bs))
    ∧ (k.busy = true → s.pendingLaunch.length < 256 → bs.length = 512 → readBytes s.mem slot 512 = bs → emptyRecord bs → ¬ (s.replay.arm = true ∧ s.replay.win = w) →
      Runs (.launchWindowCopy w bs) s fun t =>
        let q := Tbl.read t.wins w {}
        (q.whead, q.wseq, q.lstat, q.lcause, q.lgtb, q.wbase, q.en) = ((k.whead + 1) % 128, k.wseq % 255 + 1, 2, 21, rGtb bs, k.wbase, k.en)
        ∧ s.nheld.length < t.nheld.length ∧ ∀ n, n ≠ w → Tbl.read t.wins n {} = Tbl.read s.wins n {}))
  ∧ ∀ (w : Nat) (s : State),
    let k := Tbl.read s.wins w {}
    (s.fw ≠ 6 → Runs (.windowEnable w) s fun t => t = s)
    ∧ (s.fw = 6 → Runs (.windowEnable w) s fun t => (Tbl.read t.wins w {}).en = true ∧ BytesKept s t ∧ ∀ n, n ≠ w → Tbl.read t.wins n {} = Tbl.read s.wins n {})
    ∧ (k.busy = true → Runs (.windowDestroy w) s fun t => t.wins = s.wins ∧ Event.windowDestroy w ∈ t.events)
    ∧ (k.busy = false → Runs (.windowDestroy w) s fun t => (Tbl.read t.wins w {}).en = false ∧ BytesKept s t ∧ ∀ n, n ≠ w → Tbl.read t.wins n {} = Tbl.read s.wins n {})

/-- R191, R343, R344: the window fills the reservoir with what PCAP gives it, less the debt; a spent budget lowers the launch's class to 7, its contexts' MAT class too where
it is not P0, and tells the host once. -/
def Sys2Proof.Claims.EnergyFillsAndIsSpent : Prop :=
  (∀ (s : State), Runs .energyWindow s fun t => let fill := s.pcap * 1000
    BytesKept s t ∧ t.cores = s.cores ∧ t.reservoir + Min.min s.debt fill = fill ∧ t.debt + Min.min s.debt fill = s.debt ∧ t.carried = t.debt
    ∧ ∀ c x k g, (x, k) ∈ (s.core c).ctxs → k.home = some (g, none) → k.work = none → Event.taskSearch c x ∈ t.events)
  ∧ ∀ (g : Nat) (s : State), (s.dom? g = none ∨ (s.dom g).spent = true → Runs (.energyBudgetSpent g) s fun t => t = s)
    ∧ ∀ d, s.dom? g = some d → d.spent = false → Runs (.energyBudgetSpent g) s fun t => t.dom g = { d with spent := true } ∧ Told 2 g t ∧ t.nheld.length = s.nheld.length + 1
      ∧ BytesKept s t ∧ (d.cls ≠ 0 → runClass (t.dom g) = 7)
      ∧ ∀ c x, (t.ctx c x).matCls = if domOf (s.ctx c x) = g ∧ (s.ctx c x).work.isSome = true ∧ d.cls ≠ 0 then 7 else (s.ctx c x).matCls

/-- R326, R346, R349, R385: a domain that does not stand changes nothing; a launch that has not been placed, and a running domain that the host aborts, end with a notification of their
completion, and no context, slot, queue or TLB holds the domain any more; a domain ends by itself once it is quiescent with every block finished, and only then, one of several packages by its coordinator once each has reported; a replay launch ends after its
last pass, its cores' images restored. -/
def Sys2Proof.Claims.DomainsEndAndReleaseTheirContexts : Prop :=
  (∀ (g : Nat) (s : State),
    let gone := fun (t : State) => t.dom? g = none ∧ (∀ e ∈ t.cores, ∀ x ∈ e.2.ctxs, x.2.home.map (·.1) ≠ some g) ∧ (∀ e ∈ t.tlb, e.dom ≠ g)
      ∧ (∀ e ∈ t.cores, ∀ q ∈ e.2.deque, q.dom ≠ g) ∧ (∀ e ∈ t.dies, ∀ v ∈ e.2.slots, v.2.ctx.home.map (·.1) ≠ some g) ∧ ∀ f ∈ t.faults, f.dom ≠ g
    ((∀ l ∈ s.pendingLaunch, rGtb l.bytes ≠ g) → s.dom? g = none → Runs (.domainAbort g) s fun t => t = s)
    ∧ (∀ l, s.pendingLaunch = [l] → rGtb l.bytes = g → s.dom? g = none → Runs (.domainAbort g) s fun t => t.pendingLaunch = [] ∧ Told 1 g t)
    ∧ (s.dom? g = none → Runs (.domainComplete g) s fun t => t = s)
    ∧ ∀ d, s.dom? g = some d →
      ((∀ l ∈ s.pendingLaunch, rGtb l.bytes ≠ g) → d.pkgs.length ≤ 1 → Runs (.domainAbort g) s fun t => gone t ∧ ∃ n, Told 1 n t)
      ∧ (d.gang = none → ¬ (quiescent s g = true ∧ blocksDone d = true) → Runs (.domainComplete g) s fun t => t = s)
      ∧ (d.gang = none → quiescent s g = true → blocksDone d = true → d.launch.replay = false → rGtb d.launch.bytes = g → Runs (.domainComplete g) s fun t => gone t ∧ Told 1 g t)
      ∧ (d.gang = none → quiescent s g = true → blocksDone d = true → d.launch.replay = true → Runs (.domainComplete g) s fun t => t.doms = s.doms ∧ Event.replayPassEnd ∈ t.events)
      ∧ (s.replay.gtb = some g → s.replay.rstat ≠ 2 ∨ ¬ (quiescent s g = true ∧ blocksDone d = true) → Runs .replayPassEnd s fun t => t = s)
      ∧ (s.replay.gtb = some g → s.replay.rstat = 2 → quiescent s g = true → blocksDone d = true → s.replay.passm1 < s.replay.pass → rGtb d.launch.bytes = g → d.rings = [] →
        (s.replay.images.map (·.1)).Nodup → Runs .replayPassEnd s fun t => gone t ∧ Told 1 g t ∧ t.replay.rstat = 3 ∧ ∀ c m, (c, m) ∈ s.replay.images → (t.core c).mem = m))
  ∧ (∀ (g : Nat) (d : Dom) (q : Gang) (s : State), s.dom? g = some d → d.gang = some q →
      (d.pkgs.headD s.pkid ≠ s.pkid → Runs (.domainComplete g) s fun t => t = s)
      ∧ (d.pkgs.headD s.pkid = s.pkid → q.fate = none → ¬ (quiescent s g = true ∧ blocksDone d = true) → Runs (.domainComplete g) s fun t => t = s)
      ∧ (d.pkgs.headD s.pkid = s.pkid → (q.aborting ≠ [] ∨ ∃ p ∈ d.pkgs, p ≠ s.pkid ∧ p ∉ d.reported ∧ p ∉ q.never) → q.fate ≠ none → Runs (.domainComplete g) s fun t => t = s)
      ∧ (d.pkgs.headD s.pkid = s.pkid → q.fate = none → quiescent s g = true → blocksDone d = true → Alone s g → Runs (.domainComplete g) s fun t => BytesKept s t
        ∧ (t.dom g).gang.map (·.fate) = some (some (0, 0)) ∧ Event.domainComplete g ∈ t.events))
  ∧ ∀ (s : State), s.replay.gtb = none → Runs .replayPassEnd s fun t => t = s

/-- A gang's reply packet is among those sent. -/
def Sys2Proof.Claims.Answered (p : Packet) (op : Nat) (t : State) : Prop := ∃ k, Output.packet k ∈ t.out ∧ k.op = op ∧ k.dst = p.src ∧ k.tag = p.tag

/-- R347, R348: a RESERVE is taken by a package that can place its members, whose reservation expires after 200 µs, and refused by one that cannot; COMMIT starts the reserved
members of its coordinator's gang; ABORT takes a reservation back and is always answered; a member told that the domain is complete reports its counts and leaves; a report adds its counts at the coordinator. A coordinator whose RESERVEs are all acknowledged
commits, and one whose requests are refused or are unanswered for 50 µs ends the gang with GANGABORT, sending ABORT again every 50 µs.
The GANG packets' layouts, and that a member leaves when it is told that the domain is complete, are the model's (log 25). -/
def Obligations.GangsReserveCommitAndAbort : Prop :=
  (∀ (p : Packet) (s : State), Entered 0x07 4 p s →
    let r := p.payload.take 160 ++ List.replicate 351 0 ++ [p.payload.getD 160 0]
    (p.flg / 16 = 1 →
      (∀ d, s.dom? (rGtb r) = some d → Runs (.gangReserve p) s (if d.started = false ∧ d.pkgs ≠ [] ∧ d.pkgs.headD 0 = p.src then OnlyReplies p p.cont [] s else OnlyReplies p 0x90 [4] s))
      ∧ (s.dom? (rGtb r) = none → emptyRecord r → Runs (.gangReserve p) s (OnlyReplies p 0x90 [4] s))
      ∧ (∀ v, s.dom? (rGtb r) = none → tryLaunch { s with inbound := s.inbound ++ [{ src := p.src, tag := p.tag, op := 0x07 }] } { bytes := r } = .ok .started v → (v.dom (rGtb r)).pkgs.head? = some p.src → p.src ≠ v.pkid → (v.dom? (rGtb r)).isSome = true →
        Runs (.gangReserve p) s fun t => Answered p p.cont t ∧ Event.reservationExpire (rGtb r) ∈ t.events
          ∧ (t.dom (rGtb r)).gang = some { coordinator := p.src } ∧ (t.dom (rGtb r)).tstart = v.time))
    ∧ (p.flg / 16 = 4 → ∀ d, s.dom? (packetGtb p) = some d → p.src ∉ d.reported → rf p.payload 12 1 / 2 % 2 = 0 → Runs (.gangReserve p) s fun t => Answered p p.cont t ∧ BytesKept s t
      ∧ Event.domainComplete (packetGtb p) ∈ t.events ∧ (t.dom (packetGtb p)).ndone = d.ndone + rf p.payload 0 4 ∧ (t.dom (packetGtb p)).meter = d.meter + rf p.payload 4 8
      ∧ (t.dom (packetGtb p)).reported = if rf p.payload 12 1 % 2 = 1 then p.src :: d.reported else d.reported)
    ∧ (p.flg / 16 = 5 →
      (s.dom? (packetGtb p) = none → Runs (.gangReserve p) s (OnlyReplies p 0x90 [4] s))
      ∧ ∀ d, s.dom? (packetGtb p) = some d →
        ((d.pkgs.headD 0 ≠ p.src ∨ p.src = s.pkid) → Runs (.gangReserve p) s (OnlyReplies p 0x90 [4] s))
        ∧ (d.pkgs.headD 0 = p.src → p.src ≠ s.pkid → s.linkDown = [] → Runs (.gangReserve p) s fun t => Answered p p.cont t ∧ t.dom? (packetGtb p) = none
          ∧ ∃ r ∈ t.sent, r.pkt.op = 0x07 ∧ r.pkt.dst = p.src ∧ r.pkt.flg / 16 = 4 ∧ r.pkt.info = gtbInfo (packetGtb p) ∧ rf r.pkt.payload 0 4 = d.ndone % 2 ^ 32
            ∧ rf r.pkt.payload 4 8 = d.meter % 2 ^ 64))
    ∧ (p.flg / 16 ≠ 1 → p.flg / 16 ≠ 4 → p.flg / 16 ≠ 5 → Runs (.gangReserve p) s (OnlyReplies p 0x90 [5] s))
    ∧ (s.dom? (packetGtb p) = none → Runs (.gangCommit p) s (OnlyReplies p 0x90 [4] s))
    ∧ (s.dom? (packetGtb p) = none → Runs (.gangAbort p) s fun t => Answered p p.cont t ∧ BytesKept s t)
    ∧ ∀ d, s.dom? (packetGtb p) = some d →
      (d.gang.map (·.coordinator) ≠ some p.src → Runs (.gangCommit p) s (OnlyReplies p 0x90 [4] s) ∧ Runs (.gangAbort p) s (OnlyReplies p 0x90 [4] s))
      ∧ ∀ q, d.gang = some q → q.coordinator = p.src →
        (d.started = true → Runs (.gangCommit p) s (OnlyReplies p p.cont [] s))
        ∧ (d.started = false → Runs (.gangCommit p) s fun t => Answered p p.cont t ∧ BytesKept s t ∧ (t.dom (packetGtb p)).started = true ∧ (t.dom (packetGtb p)).tstart = s.time
          ∧ (t.dom (packetGtb p)).gang.map (·.committed) = some true)
        ∧ Runs (.gangAbort p) s fun t => Answered p p.cont t ∧ t.dom? (packetGtb p) = none)
  ∧ (∀ (g : Nat) (s : State),
    let out := fun (sub : Nat) => s.sent.filter fun r => r.core == 2 ^ 34 && r.op == g && r.pkt.flg / 16 == sub
    let late := fun (sub : Nat) => ∃ r ∈ out sub, r.last + 65000 ≤ s.time
    let fails := fun (t : State) => (t.dom g).gang.map (·.fate) = some (some (2, Cause.gangabort.code)) ∧ (t.dom g).ended = true
      ∧ Event.gangAbortResend g ∈ t.events ∧ Event.domainComplete g ∈ t.events
    let calm := ∀ e ∈ s.cores, ∀ x ∈ e.2.ctxs, x.2.work = none
    (out 1 = [] → Runs (.gangReserveTimeout g) s fun t => t = s) ∧ (out 2 = [] → Runs (.gangCommitTimeout g) s fun t => t = s)
    ∧ (out 1 ≠ [] → ¬ late 1 → Runs (.gangReserveTimeout g) s fun t => t.doms = s.doms ∧ Event.gangReserveTimeout g ∈ t.events)
    ∧ (out 2 ≠ [] → ¬ late 2 → Runs (.gangCommitTimeout g) s fun t => t.doms = s.doms ∧ Event.gangCommitTimeout g ∈ t.events)
    ∧ (∀ d q, s.dom? g = some d → d.gang = some q → q.fate = none → calm → (∀ e ∈ s.dies, e.2.slots = []) →
      (late 1 → Runs (.gangReserveTimeout g) s fails) ∧ (late 2 → Runs (.gangCommitTimeout g) s fails))
    ∧ (out 3 = [] → Runs (.gangAbortResend g) s fun t => t = s)
    ∧ (out 3 ≠ [] → (s.sent.map (·.tag)).Nodup → Runs (.gangAbortResend g) s fun t => BytesKept s t ∧ t.doms = s.doms ∧ Event.gangAbortResend g ∈ t.events
      ∧ t.out = s.out ++ ((out 3).filter fun r => decide (r.last + 65000 ≤ s.time)).map (fun r => .packet r.pkt)
      ∧ ∀ r ∈ out 3, r.last + 65000 ≤ s.time → { r with sends := r.sends + 1, last := s.time, nack := none } ∈ t.sent))
  ∧ (∀ (g : Nat) (s : State), (s.dom? g = none → Runs (.reservationExpire g) s fun t => t = s)
    ∧ ∀ d q, s.dom? g = some d → d.gang = some q →
      (d.started = true ∨ d.pkgs.headD s.pkid = s.pkid → Runs (.reservationExpire g) s fun t => t = s)
      ∧ (d.started = false → d.pkgs.headD s.pkid ≠ s.pkid → s.time < d.tstart + 260000 → Runs (.reservationExpire g) s fun t => t.doms = s.doms ∧ Event.reservationExpire g ∈ t.events)
      ∧ (d.started = false → d.pkgs.headD s.pkid ≠ s.pkid → d.tstart + 260000 ≤ s.time → Runs (.reservationExpire g) s fun t => t.dom? g = none))
  ∧ ∀ (p : Packet) (r : Sent) (g : Nat) (d : Dom) (q : Gang) (s : State), r ∈ s.sent → r.tag = p.tag → (∀ o ∈ s.sent, o.tag = r.tag → o = r) → r.core = 2 ^ 34 → r.op = g → r.pkt.cont = 0x83 →
      r.pkt.flg / 16 = 1 → s.dom? g = some d → d.gang = some q → q.fate = none → q.committed = false → q.waitAck = [r.pkt.dst] →
      Runs (.done p) s fun t => (t.dom g).started = true ∧ (t.dom g).gang.map (·.committed) = some true ∧ BytesKept s t
        ∧ ∀ k ∈ d.pkgs, k ≠ s.pkid → ∃ o ∈ t.sent, o.pkt.op = 0x07 ∧ o.pkt.dst = k ∧ o.pkt.flg / 16 = 2 ∧ o.pkt.info = gtbInfo g

/-! ## The debugger, dumps, trace, replay and injection (R373-R387) -/

/-- R374-R376: HALTREQ halts a context between two instructions of its work, and asks another to halt before its next; RESUME and STEP let a halted context go on, the stop at
this boundary behind it; CANCEL discards the halted context's queued copy commands as a guard that resolves false does; a context that is not halted is left as it is. A write of
a halted context's state block changes the register, guard or CSR at its offset, and nothing of another context. -/
def Sys2Proof.Claims.DebuggerHaltsStepsAndWritesContexts : Prop :=
  (∀ (c x : Nat) (s : State),
    let k := s.ctx c x
    let alone := fun (t : State) => BytesKept s t ∧ ∀ d y, (d, y) ≠ (c, x) → t.ctx d y = s.ctx d y
    (k.dhalt = true → Runs (.dctlHaltreq c x) s fun t => t = s)
    ∧ (k.dhalt = false → k.work ≠ none → k.status = .ready → Runs (.dctlHaltreq c x) s fun t => t.ctx c x = { k with dhalt := true } ∧ alone t)
    ∧ (k.dhalt = false → k.work = none ∨ k.status ≠ .ready → Runs (.dctlHaltreq c x) s fun t => t.ctx c x = { k with haltReq := true } ∧ alone t)
    ∧ (k.dhalt = false → (Runs (.dctlResume c x) s fun t => t = s) ∧ (Runs (.dctlStep c x) s fun t => t = s) ∧ Runs (.dctlCancel c x) s fun t => t = s)
    ∧ (k.dhalt = true → (Runs (.dctlResume c x) s fun t => t.ctx c x = { k with dhalt := false, pass := true, stepping := false } ∧ alone t ∧ (k.pend ≠ none → Event.park c x ∈ t.events))
      ∧ (Runs (.dctlStep c x) s fun t => t.ctx c x = { k with dhalt := false, pass := true, stepping := true } ∧ alone t ∧ (k.pend ≠ none → Event.park c x ∈ t.events))
      ∧ (s.exchs = [] → Runs (.dctlCancel c x) s fun t => BytesKept s t ∧ t.ctx c x = k
        ∧ (∀ o ∈ (s.core c).ops, ∀ m, o.body = .copy m → o.ctx = x → live o = true → o.id ∈ (s.core c).copyQ →
          { o with body := .copy { m with guarded := { m.guarded with taken := .discard } } } ∈ (t.core c).ops)
        ∧ (∀ o ∈ (s.core c).ops, o.ctx ≠ x → o ∈ (t.core c).ops) ∧ Event.copyQueueRelease c ∈ t.events)))
  ∧ ∀ (c x off : Nat) (v : Word) (s : State),
    let k := s.ctx c x
    (k.dhalt = false → Runs (.contextStateWrite c x off v) s fun t => t = s)
    ∧ (k.dhalt = true → Runs (.contextStateWrite c x off v) s fun t =>
      let q := t.ctx c x
      BytesKept s t ∧ (∀ d y, (d, y) ≠ (c, x) → t.ctx d y = s.ctx d y)
      ∧ (off = 0 → q = { k with pc := field v 17 2 * 4, events := field v 28 21 })
      ∧ (∀ r : Reg, 0 < r.toNat → r.toNat < 8 → off = 0x10 + 8 * r.toNat → rd q r = v ∧ (∀ e, e ≠ r → rd q e = rd k e) ∧ q.pc = k.pc)
      ∧ (∀ r : Reg, 8 ≤ r.toNat → off = 0x50 + 8 * (r.toNat - 8) → rd q r = v ∧ (∀ e, e ≠ r → rd q e = rd k e) ∧ q.frames = k.frames)
      ∧ (off = 0x2B0 → q.regs = k.regs ∧ ∀ g : QIx, g ≠ 0 → guardOf q g = (if field v (2 * g.toNat - 1) (2 * g.toNat - 2) = 2 then some false
        else if field v (2 * g.toNat - 1) (2 * g.toNat - 2) = 3 then some true else none))
      ∧ (off = 0x2D8 → q = { k with epc := BitVec.ofNat 64 (field v 17 2 * 4) }) ∧ (off = 0x2E8 → q = { k with eaddr := v }) ∧ (off = 0x2F0 → q = { k with einfo := v })
      ∧ (∀ n, n < 4 → off = 0x310 + 8 * n → q = { k with wp := Tbl.put k.wp n v })
      ∧ (off % 8 ≠ 0 ∨ 0x630 ≤ off → q = k))

/-- R378, R379: a stop entry keeps the fields written; a stop request halts the context that runs the work it names, asks saved work to halt, and tells that no work has
that name; a dump of a domain that does not stand or is not frozen is refused; a dump waits for the domain's stores and commands, and writes its header, here that of a domain without
resident contexts, into the buffer, or nothing where the buffer is too short. -/
def Sys2Proof.Claims.StopsAndDumpsFindTheirWork : Prop :=
  (∀ (i n : Nat) (v : Word) (s : State), (32 ≤ i → Runs (.stopEntryWrite i n v) s fun t => t = s)
    ∧ (i < 32 → Runs (.stopEntryWrite i n v) s fun t => { t with stops := s.stops } = s ∧ (∀ j, j ≠ i → Tbl.read t.stops j {} = Tbl.read s.stops j {})
      ∧ let e := Tbl.read s.stops i {}
        let f := Tbl.read t.stops i {}
        f.gtid = (if n = 0 then v else e.gtid) ∧ f.gmask = (if n = 1 then v else e.gmask)
        ∧ f.w2 = if n = 2 then BitVec.ofNat 64 (field v 31 31 * 2 ^ 31 + field v 19 0) else e.w2))
  ∧ (∀ (g : Word) (s : State),
    (∀ c x, (s.cores.findSome? fun e => (e.2.ctxs.find? fun y => y.2.work.isSome && gtidOf y.2 == g).map fun y => (e.1, y.1)) = some (c, x) →
      (s.ctx c x).work ≠ none → (s.ctx c x).status = .ready → Runs (.stopRequest g) s fun t => (t.ctx c x).dhalt = true ∧ t.sgNone = false ∧ t.sgtid = none
        ∧ (∀ d y, (d, y) ≠ (c, x) → t.ctx d y = s.ctx d y) ∧ BytesKept s t)
    ∧ ((∀ e ∈ s.cores, ∀ y ∈ e.2.ctxs, y.2.work ≠ none → gtidOf y.2 ≠ g) → Runs (.stopRequest g) s fun t => t.cores = s.cores ∧ t.sgtid = none
      ∧ (t.sgNone = false ↔ ∃ e ∈ s.dies, ∃ v ∈ e.2.slots, v.2.ctx.work ≠ none ∧ gtidOf v.2.ctx = g)
      ∧ ∀ d i v, Tbl.find (s.die d).slots i = some v → v.ctx.work ≠ none → gtidOf v.ctx = g → (Tbl.find (t.die d).slots i).map (·.ctx.haltReq) = some true))
  ∧ (∀ (g : Nat) (s : State),
    ((s.dom? g = none ∨ (s.dom g).frozen = false) → Runs (.dumpStart g) s fun t => t = { s with dstat := 3 })
    ∧ (s.dom? g ≠ none → (s.dom g).frozen = true → s.dstat = 1 → Runs (.dumpStart g) s fun t => t = s)
    ∧ (s.dom? g ≠ none → (s.dom g).frozen = true → s.dstat ≠ 1 → Runs (.dumpStart g) s fun t => t = { s with dstat := 1, dgtb := g, events := s.events ++ [.dumpWrite] }))
  ∧ ∀ (s : State), (s.dstat ≠ 1 → Runs .dumpWrite s fun t => t = s)
    ∧ (s.dstat = 1 →
      let mine := fun (o : Op) => o.dom = s.dgtb
      ((∃ e ∈ s.cores, ∃ o ∈ e.2.ops, mine o ∧ o.status = 0 ∧ isLoad o = false) → Runs .dumpWrite s fun t => t.dstat = 1 ∧ t.mem = s.mem ∧ Event.dumpWrite ∈ t.events)
      ∧ ((∀ e ∈ s.cores, ∀ o ∈ e.2.ops, ¬ mine o) → (∀ e ∈ s.cores, ∀ x ∈ e.2.ctxs, inDom x.2 s.dgtb = false) →
        (s.dlen < 64 → Runs .dumpWrite s fun t => t.dstat = 4 ∧ t.dbytes = 0 ∧ BytesKept s t)
        ∧ (64 ≤ s.dlen → s.dbuf.toNat % 64 = 0 → PlainSpan s (8 * 2 ^ 52 + s.dbuf.toNat) 64 → Runs .dumpWrite s fun t => t.dstat = 2 ∧ t.dbytes = 64
          ∧ (let a := 8 * 2 ^ 52 + s.dbuf.toNat
             readBytes t.mem a 8 = natLE 8 s.dgtb ∧ readBytes t.mem (a + 8) 16 = natLE 16 0 ∧ readBytes t.mem (a + 24) 8 = natLE 8 s.time
             ∧ (∀ x, (x < a ∨ a + 64 ≤ x) → readByte t.mem x = readByte s.mem x)))))

/-- R382, R384: MARK only retires while its die's trace is off; with a trace that takes its work and has room it writes one 32-byte record of kind 4 with time, name, core and the value of A, and
counts it; on a full ring that does not wrap the record is dropped and counted. Enabling a trace clears its index and its drops. R385: arming replay keeps
window and passes. R387: an injection stands at its core or at the hub; mode 2 at the hub poisons its sector. R390: the host's HEAD moves within the ring, and the oldest record that waits
is written at TAIL with vector 0. -/
def Obligations.TraceReplayInjectionAndNotifications : Prop :=
  (∀ (a : Reg) (s : State), Settled s [a] →
    let c := s.cur.1
    let k := s.die (dieOf c)
    let taken := k.ten = true ∧ k.tsize ≠ 0 ∧ (k.alld = true ∨ k.tgtb = field (gtidOf s.k) 63 48)
    let p := k.tbase + 32 * (k.widx % k.tsize)
    (k.ten = false → Runs (.mark a) s (OnlyRetires 4 s))
    ∧ (taken → k.tsize ≤ k.widx → k.wrap = false → Runs (.mark a) s fun t => Quietly 4 s t ∧ (t.die (dieOf c)).drops = Min.min (k.drops + 1) 0xFFFFFFFF)
    ∧ (taken → k.widx < k.tsize ∨ k.wrap = true → PlainSpan s p 32 → Runs (.mark a) s fun t => RegsKept s t [] ∧ t.k.pc = nextPc s.k 4
      ∧ readBytes t.mem p 32 = natLE 8 s.time ++ wordLE (gtidOf s.k) ++ natLE 1 4 ++ natLE 3 c ++ natLE 4 0 ++ wordLE (rd s.k a)
      ∧ (∀ x, (x < p ∨ p + 32 ≤ x) → readByte t.mem x = readByte s.mem x) ∧ (t.die (dieOf c)).widx = (k.widx + 1) % 2 ^ 32))
  ∧ (∀ (d : Nat) (s : State), (s.diePresent d = false → Runs (.traceEnable d) s fun t => t = s)
    ∧ (s.diePresent d = true → Runs (.traceEnable d) s fun t => t.die d = { s.die d with ten := true, widx := 0, drops := 0 } ∧ t.mem = s.mem ∧ t.cores = s.cores))
  ∧ (∀ (v : Word) (s : State), (s.replay.rstat = 2 → Runs (.replayArm v) s fun t => t = s)
    ∧ (s.replay.rstat ≠ 2 → Runs (.replayArm v) s fun t => { t with replay := s.replay } = s ∧ (t.replay.win, t.replay.passm1) = (field v 5 0, field v 10 8)
      ∧ (t.replay.arm = true ↔ v.getLsbD 16 = true ∧ field v 10 8 ≠ 0) ∧ (t.replay.arm = true → t.replay.rstat = 1)))
  ∧ (∀ (c addr : Nat) (m : Word) (md : Byte) (s : State), (Runs (.errorInjectWrite (.core c) addr m md) s fun t =>
      t.core c = { s.core c with inj := ⟨BitVec.ofNat 64 addr, m, md.toNat⟩ } ∧ t.mem = s.mem ∧ t.poison = s.poison ∧ ∀ d, d ≠ c → t.core d = s.core d)
    ∧ (md ≠ 2 → Runs (.errorInjectWrite .hub addr m md) s fun t => t = { s with hinj := ⟨BitVec.ofNat 64 addr, m, md.toNat⟩ })
    ∧ (addr < 2 ^ 56 → homeOf addr ≤ 5 → homePresent s (homeOf addr) = true → Runs (.errorInjectWrite .hub addr m 2) s fun t => poisoned t addr = true ∧ t.hinj.mode = 0 ∧ BytesKept s t
      ∧ ∀ x, x / 64 ≠ addr / 64 → poisoned t x = poisoned s x))
  ∧ ∀ (h : Nat) (s : State),
    let head := if s.nhead ≤ h ∧ h ≤ s.ntail then h else s.nhead
    (s.nheld = [] → Runs (.notificationDrain h) s fun t => t.nhead = head ∧ t.ntail = s.ntail ∧ t.mem = s.mem ∧ t.out = s.out)
    ∧ ∀ r p, s.nheld = [r] → p = 8 * 2 ^ 52 + s.nbase.toNat + 64 * (s.ntail % s.nsize.toNat) → r.length = 64 →
      (s.nsize.toNat ≤ s.ntail - head → Runs (.notificationDrain h) s fun t => t.nheld = [r] ∧ t.nhead = head ∧ t.ntail = s.ntail ∧ t.mem = s.mem)
      ∧ (s.ntail - head < s.nsize.toNat → p % 64 = 0 → PlainSpan s p 64 → Runs (.notificationDrain h) s fun t => t.nheld = [] ∧ t.nhead = head ∧ t.ntail = s.ntail + 1
        ∧ readBytes t.mem p 64 = r ∧ (∀ x, (x < p ∨ p + 64 ≤ x) → readByte t.mem x = readByte s.mem x) ∧ t.out = s.out ++ [.msix 0])

/-! ## Ethernet ports (R262-R267) -/

/-- Device memory in which no access waits: nothing cached, poisoned, moving or owed, every die in service (R48, R229). -/
def Sys2Proof.Claims.StillMemory (s : State) : Prop :=
  s.dir = [] ∧ s.poison = [] ∧ s.awaiting = [] ∧ s.moves = [] ∧ s.replay.rstat ≠ 2 ∧ s.hinj.mode ≠ 1 ∧ (∀ d, (s.die d).reset = none ∧ (s.die d).isolated = false)
    ∧ Memory.wf s.mem = true

/-- `n` bytes of homes 0-5 that are present (R263). -/
def Sys2Proof.Claims.PortSpan (s : State) (a n : Nat) : Prop :=
  a < 2 ^ 56 ∧ homeOf a ≤ 5 ∧ homePresent s (homeOf a) = true ∧ ∃ k, homeFrames (homeOf a) = some k ∧ a % 2 ^ 52 + n ≤ k * 65536

/-- Two spans that share no byte. -/
def Sys2Proof.Claims.Apart (a n b m : Nat) : Prop := a + n ≤ b ∨ b + m ≤ a

/-- R262-R265: a queue of an absent port, one already enabled, or one whose SIZE is out of range is not enabled; otherwise it starts at the descriptor that its consumer word names, up to the one that its producer
word names, and a misplaced word stops it with its cause, the host told; disabling clears EN. A port sends its highest priority queue's next frame while its link is up: the bytes leave, the descriptor's status and time, the
consumer word and the counters follow; a descriptor out of range is marked refused with SHAPE and nothing leaves. A pause frame holds its priority until it
expires, and a link that is down holds all. -/
def Sys2Proof.Claims.EthernetQueuesSendTheirFrames : Prop :=
  (∀ (p q : Nat) (rx : Bool) (s : State), StillMemory s → (s.port p).held = [] →
    let k := s.queue p rx q
    let word := fun (a : Nat) => leNat (readBytes s.mem a 8)
    (s.portPresent p = false ∨ 7 < q ∨ (k.en = true ∧ k.starting = false) ∨ (∀ n, 4 ≤ n → n ≤ 16 → k.size ≠ 2 ^ n) → Runs (.ethQueueEnable p q rx) s fun t => t = s)
    ∧ (s.portPresent p = true → q ≤ 7 → k.en = false → (∃ n, 4 ≤ n ∧ n ≤ 16 ∧ k.size = 2 ^ n) →
      (PortSpan s k.consa 8 → PortSpan s k.proda 8 → Runs (.ethQueueEnable p q rx) s fun t => BytesKept s t
        ∧ t.queue p rx q = { k with en := true, starting := false, stop := false, cause := 0, done := word k.consa, prod := word k.proda })
      ∧ (homeOf k.consa > 5 → Runs (.ethQueueEnable p q rx) s fun t => (t.queue p rx q).stop = true ∧ (t.queue p rx q).cause = 6 ∧ Told 7 0 t))
    ∧ (s.portPresent p = false ∨ 7 < q → Runs (.ethQueueDisable p q rx) s fun t => t = s)
    ∧ (s.portPresent p = true → q ≤ 7 → Runs (.ethQueueDisable p q rx) s fun t => t.queue p rx q = { k with en := false, starting := false } ∧ BytesKept s t)
    ∧ (s.portPresent p = false → Runs (.ethProducerUpdate p q rx) s fun t => t = s)
    ∧ (s.portPresent p = true → k.en = true → k.stop = false → k.starting = false → PortSpan s k.proda 8 → Runs (.ethProducerUpdate p q rx) s fun t => BytesKept s t
      ∧ t.queue p rx q = { k with prod := word k.proda }
      ∧ (rx = false → q ≤ 7 → k.done ≠ word k.proda → q ∉ (s.port p).paused → Event.ethTransmit p q ∈ t.events)))
  ∧ (∀ (p q : Nat) (s : State), StillMemory s →
    let k := s.queue p false q
    let can := fun (n : Nat) => n < 8 ∧ (s.queue p false n).en = true ∧ (s.queue p false n).stop = false ∧ (s.queue p false n).starting = false ∧ (s.queue p false n).done ≠ (s.queue p false n).prod ∧ n ∉ (s.port p).paused
    let d := k.base + 32 * (k.done % k.size)
    let len := leNat (readBytes s.mem (d + 8) 4)
    let flags := leNat (readBytes s.mem (d + 12) 1)
    let src := leNat (readBytes s.mem d 8)
    (s.portPresent p = false ∨ (s.port p).up = false ∨ ¬ can q → Runs (.ethTransmit p q) s fun t => t = s)
    ∧ (s.portPresent p = true → (s.port p).up = true → can q → (∃ n, q < n ∧ can n) → Runs (.ethTransmit p q) s fun t => t.mem = s.mem ∧ t.out = s.out ∧ t.eth = s.eth
      ∧ ∀ n, can n → Event.ethTransmit p n ∈ t.events)
    ∧ (s.portPresent p = true → (s.port p).up = true → can q → (∀ n, q < n → ¬ can n) → PortSpan s d 32 → PortSpan s k.consa 8 → k.consa % 8 = 0 → d % 32 = 0 → Apart k.consa 8 d 32 →
      flags < 2 → readBytes s.mem (d + 13) 3 = natLE 3 0 →
      let done := fun (t : State) => t.queue p false q = { k with done := (k.done + 1) % 2 ^ 64 } ∧ readBytes t.mem k.consa 8 = natLE 8 ((k.done + 1) % 2 ^ 64)
        ∧ (∀ x, (x < d + 16 ∨ d + 32 ≤ x) → (x < k.consa ∨ k.consa + 8 ≤ x) → readByte t.mem x = readByte s.mem x)
      (60 ≤ len → len ≤ 9212 → PortSpan s src len → Runs (.ethTransmit p q) s fun t => done t
        ∧ t.out = s.out ++ (if flags = 1 then [.msix k.vec] else []) ++ [.frame p (readBytes s.mem src len)]
        ∧ readBytes t.mem (d + 16) 16 = natLE 8 0 ++ natLE 8 s.time ∧ Tbl.read (t.port p).stats 0 0 = (Tbl.read (s.port p).stats 0 0 + 1) % 2 ^ 64
        ∧ Tbl.read (t.port p).stats 8 0 = (Tbl.read (s.port p).stats 8 0 + len) % 2 ^ 64)
      ∧ (len < 60 ∨ 9212 < len → Runs (.ethTransmit p q) s fun t => done t ∧ t.out = s.out ++ (if flags = 1 then [.msix k.vec] else [])
        ∧ readBytes t.mem (d + 16) 8 = natLE 1 1 ++ natLE 1 21 ++ natLE 6 0)))
  ∧ (∀ (p n : Nat) (s : State),
    (s.portPresent p = false ∨ (s.port p).up = false ∨ 7 < n → Runs (.ethPauseReceive p n) s fun t => t = s)
    ∧ (s.portPresent p = true → (s.port p).up = true → n ≤ 7 → Runs (.ethPauseReceive p n) s fun t => n ∈ (t.port p).paused ∧ (∀ m, m ≠ n → (m ∈ (t.port p).paused ↔ m ∈ (s.port p).paused))
      ∧ Event.ethPauseExpire p n ∈ t.events ∧ Tbl.read (t.port p).stats 0x38 0 = (Tbl.read (s.port p).stats 0x38 0 + 1) % 2 ^ 64 ∧ BytesKept s t)
    ∧ (s.portPresent p = false → Runs (.ethPauseExpire p n) s fun t => t = s)
    ∧ (s.portPresent p = true → Runs (.ethPauseExpire p n) s fun t => n ∉ (t.port p).paused ∧ (∀ m, m ≠ n → (m ∈ (t.port p).paused ↔ m ∈ (s.port p).paused)) ∧ BytesKept s t
      ∧ (n < 8 → runs (s.queue p false n) = true → posted (s.queue p false n) = true → Event.ethTransmit p n ∈ t.events)))
  ∧ ∀ (p : Nat) (up : Bool) (s : State), (s.portPresent p = false → Runs (.ethLinkChange p up) s fun t => t = s)
    ∧ (s.portPresent p = true → Runs (.ethLinkChange p up) s fun t => t.port p = { s.port p with up := up } ∧ BytesKept s t
      ∧ ∀ q, q < 8 → runs (s.queue p false q) = true → posted (s.queue p false q) = true → q ∉ (s.port p).paused → Event.ethTransmit p q ∈ t.events)

/-- R266, R267: a frame that comes while the link is down is none; one with a bad FCS or too short is counted as an error; a good one is counted, goes to the queue of its priority, and
without a posted descriptor is dropped and counted, or held under PFC with one pause frame sent; with a posted descriptor its bytes are written there, then its length and arrival
time, then the consumer word. -/
def Sys2Proof.Claims.EthernetQueuesReceiveFrames : Prop :=
  ∀ (p : Nat) (f : List Byte) (ok : Bool) (s : State), StillMemory s → (s.port p).held = [] →
    let q := if f.getD 12 0 = 0x81 ∧ f.getD 13 0 = 0 then (f.getD 14 0).toNat / 32 else 0
    let k := s.queue p true q
    let stat := fun (t : State) (n : Nat) => Tbl.read (t.port p).stats n 0
    let d := k.base + 32 * (k.done % k.size)
    let dst := leNat (readBytes s.mem d 8)
    let cap := leNat (readBytes s.mem (d + 8) 4)
    let flags := leNat (readBytes s.mem (d + 12) 1)
    (s.portPresent p = false ∨ (s.port p).up = false ∨ 9216 < f.length + 4 → Runs (.ethReceive p f ok) s fun t => t = s)
    ∧ (s.portPresent p = true → (s.port p).up = true → f.length + 4 ≤ 9216 →
      (ok = false ∨ f.length + 4 < 64 → Runs (.ethReceive p f ok) s fun t => stat t 0x20 = (stat s 0x20 + 1) % 2 ^ 64 ∧ (∀ n, n ≠ 0x20 → stat t n = stat s n) ∧ (t.port p).held = []
        ∧ BytesKept s t ∧ t.out = s.out)
      ∧ (ok = true → 64 ≤ f.length + 4 →
        let counted := fun (t : State) => stat t 0x10 = (stat s 0x10 + 1) % 2 ^ 64 ∧ stat t 0x18 = (stat s 0x18 + f.length) % 2 ^ 64
        (k.en = false ∨ k.stop = true ∨ k.starting = true ∨ (k.done = k.prod ∧ k.pfc = false) → Runs (.ethReceive p f ok) s fun t => counted t ∧ stat t 0x28 = (stat s 0x28 + 1) % 2 ^ 64
          ∧ (t.port p).held = [] ∧ BytesKept s t ∧ t.out = s.out)
        ∧ (k.en = true → k.stop = false → k.starting = false → k.done = k.prod → k.pfc = true → Runs (.ethReceive p f ok) s fun t => counted t ∧ (t.port p).held = [(q, s.time, f)] ∧ BytesKept s t
          ∧ t.out = s.out ++ [.pause p q] ∧ stat t 0x30 = (stat s 0x30 + 1) % 2 ^ 64)
        ∧ (k.en = true → k.stop = false → k.starting = false → k.done ≠ k.prod → PortSpan s d 32 → PortSpan s k.consa 8 → PortSpan s dst (Min.min cap f.length) → d % 32 = 0 → k.consa % 8 = 0 →
          cap % 64 = 0 → 64 ≤ cap → cap ≤ 9216 → dst % 64 = 0 → flags < 2 → readBytes s.mem (d + 13) 3 = natLE 3 0 →
          Apart k.consa 8 d 32 → Apart dst cap d 32 → Apart dst cap k.consa 8 → Runs (.ethReceive p f ok) s fun t =>
            readBytes t.mem dst (Min.min cap f.length) = f.take cap
            ∧ readBytes t.mem (d + 16) 16 = natLE 1 (if cap < f.length then 2 else 0) ++ natLE 3 0 ++ natLE 4 f.length ++ natLE 8 s.time
            ∧ readBytes t.mem k.consa 8 = natLE 8 ((k.done + 1) % 2 ^ 64) ∧ (t.queue p true q).done = (k.done + 1) % 2 ^ 64 ∧ (t.port p).held = [] ∧ counted t
            ∧ t.out = s.out ++ (if flags = 1 then [.msix k.vec] else []))))

/-- R46, R334, R349, R389, R263: the host writes a double word of the hub register block: nothing at an offset that is no multiple of 8 or while the block does not answer there (R392);
otherwise its register takes the value, a read-only bit kept: WBASE, WHEAD and the base and size of a queue only while EN is 0, WSEQ but by 0; EN is set at once; a command register begins its move. -/
def Sys2Proof.Claims.HubRegisterWritesTakeEffect : Prop :=
  ∀ (s : State) (v : Word),
    (∀ off, off % 8 ≠ 0 ∨ s.fw < 4 ∨ (0x80 ≤ s.fw ∧ 0x2000 ≤ off) → Runs (.registerWrite (.hub off) v) s fun t => t = s)
    ∧ (4 ≤ s.fw → s.fw < 0x80 →
      let leaves := fun (off : Nat) (u : State) => Runs (.registerWrite (.hub off) v) s fun t => t = u
      leaves 0x20000 { s with nbase := v } ∧ leaves 0x20008 { s with nsize := v } ∧ leaves 0x20018 (s.push (.notificationDrain v.toNat))
      ∧ leaves 0x30100 (s.push (.domainAbort (v.toNat % 2 ^ 16))) ∧ leaves 0x30200 (s.push (.hostSupervisorCommand v)) ∧ leaves 0x60000 (s.push (.replayArm v))
      ∧ (∀ w, w < 64 → let k := Tbl.read s.wins w {}
        (k.en = true → leaves (0x10000 + 64 * w) s)
        ∧ (k.en = false → leaves (0x10000 + 64 * w) { s with wins := Tbl.put s.wins w { k with wbase := v &&& 0xFFFFFFFFFFFF0000 } })
        ∧ leaves (0x10000 + 64 * w + 0x10) { s with wins := Tbl.put s.wins w { k with
            whead := if k.en then k.whead else v.toNat / 2 ^ 8 % 2 ^ 7, wseq := if v.toNat % 2 ^ 8 = 0 then k.wseq else v.toNat % 2 ^ 8 } }
        ∧ (s.fw = 6 → v.toNat % 8 = 1 → k.en = false → Runs (.registerWrite (.hub (0x10000 + 64 * w + 8)) v) s fun t => (Tbl.read t.wins w {}).en = true ∧ BytesKept s t)
        ∧ (v.toNat % 8 = 0 → leaves (0x10000 + 64 * w + 8) { s with wins := Tbl.put s.wins w { k with en := false } }))
      ∧ ∀ p q, p < 8 → q < 8 → s.portPresent p = true → ∀ rx : Bool, let k := s.queue p rx q
        let at' := 0x90000 + 0x800 * p + (if rx then 0x400 else 0) + 0x40 * q
        (k.en = true → leaves at' s ∧ leaves (at' + 8) s ∧ leaves (at' + 0x10) s ∧ leaves (at' + 0x18) s)
        ∧ (k.en = false → Runs (.registerWrite (.hub at') v) s fun t => t.queue p rx q = { k with base := v.toNat % 2 ^ 56 / 32 * 32 } ∧ BytesKept s t)
        ∧ (k.en = false → Runs (.registerWrite (.hub (at' + 8)) v) s fun t => t.queue p rx q = { k with size := v.toNat % 2 ^ 17 } ∧ BytesKept s t)
        ∧ (k.en = false → v.toNat % 2 = 1 → Runs (.registerWrite (.hub (at' + 0x20)) v) s fun t => (t.queue p rx q).en = true ↔ sizeOk k.size = true)
        ∧ (v.toNat % 2 = 0 → Runs (.registerWrite (.hub (at' + 0x20)) v) s fun t => (t.queue p rx q).en = false ∧ (t.queue p rx q).vec = v.toNat / 2 ^ 16 % 2 ^ 6 ∧ BytesKept s t))

/-! ## Bring-up, package reset, the firmware image and attestation (R242, R391-R395) -/

/-- R242, R392, R394: power-good goes through the steps of bring-up, each after the one before: an image whose signatures do not verify stops it at step 2; a step that fails leaves 0x80 and its number; step 3
clears device memory and its poison; after step 6 the ports' links are trained and the state reads 6. A package reset takes every register to its reset value, keeps the part's own constants, the image and
the highest AMO sequences of its peers, and starts bring-up again. R395: the device answers the eight SPDM requests that it knows, and any other with ERROR and
UnsupportedRequest.
Whether signatures verify is free, and the SPDM codes are presumed (log 21). -/
def Obligations.BringUpResetsAndAttests : Prop :=
  (∀ (f : Option Nat) (s : State), (s.fw ≠ 0 → Runs (.powerGood f) s fun t => t = s)
    ∧ (s.fw = 0 →
      (Config.signaturesVerify s.fwImage = true → f = none → Runs (.powerGood f) s fun t => t.fw = 6 ∧ t.poison = [] ∧ (∀ a, a < 2 ^ 52 * 6 → Tbl.find t.mem a = none)
        ∧ (∀ a, 8 * 2 ^ 52 ≤ a → a < 2 ^ 64 → Tbl.find t.mem a = Tbl.find s.mem a) ∧ t.cores = s.cores ∧ t.linkDown = [] ∧ ∀ p, p < 8 → s.portPresent p = true → (t.port p).up = true)
      ∧ (Config.signaturesVerify s.fwImage = false → (∀ n, f = some n → n = 0 ∨ 2 < n) → Runs (.powerGood f) s fun t => t.fw = 0x82 ∧ t.mem = s.mem)
      ∧ ∀ n, f = some n → 1 ≤ n → n ≤ 6 → (n ≤ 2 ∨ Config.signaturesVerify s.fwImage = true) → Runs (.powerGood f) s fun t => t.fw = 0x80 + n ∧ t.cores = s.cores
        ∧ (n ≤ 3 → t.mem = s.mem ∧ t.poison = s.poison) ∧ (3 < n → t.poison = []) ∧ (n ≤ 5 → t.eth = s.eth)))
  ∧ (∀ (f : Option Nat) (s : State), Runs (.packageReset f) s fun t =>
      (t.cores, t.dies, t.doms, t.fw, t.eth, t.wins, t.tlb, t.dir, t.sent, t.exchs, t.moves) =
        (State.reset.cores, State.reset.dies, State.reset.doms, State.reset.fw, State.reset.eth, State.reset.wins, State.reset.tlb, State.reset.dir, State.reset.sent, State.reset.exchs, State.reset.moves)
      ∧ (t.devcap, t.pkid, t.weights, t.fwImage, t.mem, t.poison, t.out) = (s.devcap, s.pkid, s.weights, s.fwImage, s.mem, s.poison, s.out)
      ∧ t.events.head? = some (.powerGood f) ∧ (∀ q, (Tbl.read t.replies q {}).high = (Tbl.read s.replies q {}).high ∧ (Tbl.read t.replies q {}).entries = []))
  ∧ (∀ (off : Nat) (v : Word) (s : State), (off % 8 ≠ 0 ∨ 0x1000 ≤ off → Runs (.firmwareLoadWrite off v) s fun t => t = s)
    ∧ (off % 8 = 0 → off < 0x1000 → Runs (.firmwareLoadWrite off v) s fun t => { t with fwImage := s.fwImage } = s ∧ (t.fwImage.drop off).take 8 = wordLE v
      ∧ ∀ n, (n < off ∨ off + 8 ≤ n) → t.fwImage.getD n 0 = s.fwImage.getD n 0))
  ∧ ∀ (code : Nat) (s : State),
    (s.fw < 4 ∨ 0x80 ≤ s.fw → Runs (.spdmRequest code) s fun t => t = s)
    ∧ (4 ≤ s.fw → s.fw < 0x80 → code ∈ [0x81, 0x82, 0x83, 0x84, 0xE0, 0xE1, 0xE3, 0xFE] → Runs (.spdmRequest code) s fun t => (∃ b, t.out = s.out ++ [.spdm (code - 0x80) b]) ∧ BytesKept s t)
    ∧ (4 ≤ s.fw → s.fw < 0x80 → code ∉ [0x81, 0x82, 0x83, 0x84, 0xE0, 0xE1, 0xE3, 0xFE] → Runs (.spdmRequest code) s fun t => t = s.emit (.spdm 0x7F [0x07]))

/-! ## Several claims about one thing -/

/-- Fetching the instruction at the PC (R9, R42, R43, R70). That one step makes all fills of an instruction is the model's choice (log 68). -/
def Obligations.FetchReadsItsWordsOrParks : Prop :=
  Sys2Proof.Claims.FetchReadsTheWordsAtThePc ∧ Sys2Proof.Claims.UndecodableWordsParkWithIll

/-- What reset leaves. Canonical memory is the model's own form (log 6, log 63). -/
def Obligations.ResetLeavesACanonicalMachine : Prop :=
  Sys2Proof.Claims.ResetMemoryIsCanonical ∧ Sys2Proof.Claims.ResetLeavesTheSpecsValues

/-- The integer functions of the scalar core (R131, R132). -/
def Obligations.IntegerFunctionsWriteTheirResult : Prop :=
  Sys2Proof.Claims.AluFunctionsWriteTheirResult ∧ Sys2Proof.Claims.ImmediateFunctionsWriteTheirResult ∧ Sys2Proof.Claims.MovgMovesUnderItsGuard ∧ Sys2Proof.Claims.NamedRegisterWithReplyDueWaits

/-- ADDR functions and CRES. -/
def Obligations.AddressesNameCoordinates : Prop :=
  Sys2Proof.Claims.AddressFunctionsBuildCoordinates ∧ Sys2Proof.Claims.CresResolvesToFormOne

/-- The guard functions (R130). -/
def Obligations.GuardsAreComparedAndResolved : Prop :=
  Sys2Proof.Claims.ComparisonsWriteTheirGuard ∧ Sys2Proof.Claims.GuardFunctionsResolve

/-- The FPU functions. -/
def Obligations.FpuFunctionsWriteTheirResult : Prop :=
  Sys2Proof.Claims.FpuArithmeticRoundsOnce ∧ Sys2Proof.Claims.FpuSelectionsAndConversions

/-- One rounding of an exact result (R141, R146). -/
def Obligations.RoundingIsOfTheExactResult : Prop :=
  Sys2Proof.Claims.RoundingSelectsTheNeighbour ∧ Sys2Proof.Claims.ArithmeticIsExactBeforeRounding

/-- Branches and jumps. -/
def Obligations.BranchesAndJumpsReachTheirTarget : Prop :=
  Sys2Proof.Claims.BzBranchesOnItsRegister ∧ Sys2Proof.Claims.BgBranchesOnItsGuard ∧ Sys2Proof.Claims.JumpsReachTheirTarget

/-- The register window (R38, R113, R114). That calls wait for replies into the window (log 15) and that RET uses l7 (log 14) are the model's readings. -/
def Obligations.CallsAndReturnsMoveTheWindow : Prop :=
  Sys2Proof.Claims.CallsMoveTheWindow ∧ Sys2Proof.Claims.RetRestoresTheCaller ∧ Sys2Proof.Claims.CallThenReturnRestoresTheWindow

/-- What a program does to itself: NOP, PREF, SYNCI; taking an in-core trap and returning from it (R354-R356). That PREF begins no fill (log 26) and that a watched BRK retires (log 27) are the model's choices. -/
def Obligations.TrapsEnterTheHandlerAndReturn : Prop :=
  Sys2Proof.Claims.NopPrefAndSynciOnlyRetire ∧ Sys2Proof.Claims.TrapAndBrkEnterTheHandlerOrPark ∧ Sys2Proof.Claims.HretReturnsFromTheHandler ∧ Sys2Proof.Claims.TrapThenHretComesBack

/-- Events (R295-R297). -/
def Obligations.EventsAreCountedAndTaken : Prop :=
  Sys2Proof.Claims.EvwaitTakesTheCount ∧ Sys2Proof.Claims.EvpostCountsOneEvent

/-- BAR and its departure (R298). That a launch's first package counts a barrier of system scope is the model's choice (log 25). -/
def Obligations.BarriersGatherTheirContexts : Prop :=
  Sys2Proof.Claims.BarArrivesWaitsAndDeparts ∧ Sys2Proof.Claims.BarrierDepartReleasesItsContexts

/-- What only supervisor code may do (R41, R135). That a stepped instruction keeps the privilege of its code is the model's choice (log 66). -/
def Obligations.UserCodeRaisesPriv : Prop :=
  Sys2Proof.Claims.SupervisorFunctionsInUserCodeRaisePriv ∧ Sys2Proof.Claims.PrivilegedCsrWritesRaisePriv

/-- HALT and SVC (R357, R360, R374). -/
def Obligations.HaltAndSvcReachTheirReaders : Prop :=
  Sys2Proof.Claims.HaltStopsForTheDebugger ∧ Sys2Proof.Claims.SvcSendsItsMessage

/-- Reads of CSRs and counters. -/
def Obligations.RegisterReadsGiveTheirValue : Prop :=
  Sys2Proof.Claims.CsrReadsGiveTheRegister ∧ Sys2Proof.Claims.CntrdReadsTheCounter

/-- Registers of the machine that a write changes. -/
def Obligations.MachineRegistersAreWritten : Prop :=
  Sys2Proof.Claims.SupervisorCsrWritesReachTheMachine ∧ Sys2Proof.Claims.RegisterWriteMovesTakeEffect ∧ Sys2Proof.Claims.HubRegisterWritesTakeEffect

/-- Accesses of the own banks, issued and performed. -/
def Obligations.LoadsStoresAndAmosActOnTheirBytes : Prop :=
  Sys2Proof.Claims.LoadThenReplyBindsLocalBytes ∧ Sys2Proof.Claims.StoreThenPerformWritesItsBytes ∧ Sys2Proof.Claims.AmoReplacesItsLocationInOneStep

/-- What an address names, and when an access stops. When the host fails an access to home 8 is free (log 81). -/
def Obligations.AccessesResolveFaultOrWait : Prop :=
  Sys2Proof.Claims.AccessFaultsAndWaitsChangeNothing ∧ Sys2Proof.Claims.AddressFormsResolve

/-- Stash windows and ranges (R76, R86-R90). That a dirty sector's bytes also stand at its source (log 18) and that core space of a peer is not held (log 73) are the model's choices. -/
def Obligations.StashesKeepTheirSectors : Prop :=
  Sys2Proof.Claims.StashFunctionsKeepTheWindows ∧ Sys2Proof.Claims.StashFillBringsTheSourceSector ∧ Sys2Proof.Claims.RangeFunctionsAreHandedOver ∧ Sys2Proof.Claims.BackgroundRangeKeepsOrForgetsTheNewest

/-- Translations and page moves (R51-R64). MIG packets' layouts (log 25), what becomes of an abandoned move's frame and writes (log 48, log 71), dropped frames and the requester's die (log 69) and a walk's read of poison (log 72) are the model's. -/
def Obligations.PagesAreTranslatedAndMoved : Prop :=
  Sys2Proof.Claims.TranslationsAreFilledAndDropped ∧ Sys2Proof.Claims.PagesMoveToTheDieThatUsesThem ∧ Sys2Proof.Claims.PagesMoveToTheirPeers

/-- Handle functions. -/
def Obligations.HandlesHoldRecords : Prop :=
  Sys2Proof.Claims.BoundHandleIsNoDestination ∧ Sys2Proof.Claims.HandleFunctionsMoveRecords

/-- PART and RBIND. That a null handle is SHAPE at RBIND is the model's reading (log 62). -/
def Obligations.ShapesArePartitionedAndRingsBound : Prop :=
  Sys2Proof.Claims.PartTakesTheCoresShare ∧ Sys2Proof.Claims.RbindTakesARole

/-- The exchange port. -/
def Obligations.ThePortAcceptsItsCommands : Prop :=
  Sys2Proof.Claims.ExchangesAreAcceptedAndAskedAfter ∧ Sys2Proof.Claims.ConfigurationWritesEnterThePort

/-- Exchanges from start to end. How runs and notices name their sender is the model's (log 25, log 28), an abandoned party's STATUS and XWAIT's reply its readings (log 50), and the notice of a performed release its choice (log 80). -/
def Obligations.ExchangesMoveTheirElements : Prop :=
  Sys2Proof.Claims.DistributionsGiveEachIndexOneHome ∧ Sys2Proof.Claims.ExchangesRunAndEnd

/-- The end of a firing and the begin of the next. Which debt keeps a firing from starting is the model's reading (log 83). -/
def Obligations.FiringsCommitAndBegin : Prop :=
  Sys2Proof.Claims.FendCommitsTheFiring ∧ Sys2Proof.Claims.FiringsBeginWhenTheirGatesHold

/-- Tasks (R300-R307). -/
def Obligations.TasksRunOnTaskContexts : Prop :=
  Sys2Proof.Claims.TasksAreSpawnedEndedAndJoined ∧ Sys2Proof.Claims.TaskContextsSearchInOrder

/-- A supervisor and its frozen domain. How an access that faulted after issue is replayed is the model's reading (log 55). -/
def Obligations.SupervisorsAnswerAndFreeze : Prop :=
  Sys2Proof.Claims.SupervisorAnswersParkedFirings ∧ Sys2Proof.Claims.FrozenFrontsAndTheHostsCommand

/-- RD, WR and AMO of peers. Which port an incoming request meets is the model's hash (log 24), and when the host fails an access to home 8 is free (log 81). -/
def Obligations.PeerRequestsAreServed : Prop :=
  Sys2Proof.Claims.PeerRequestsPassTheLastHop ∧ Sys2Proof.Claims.PeerAmosAreExecutedOnce

/-- Group writes, configuration and links. MACK and CFG layouts are the model's (log 25). -/
def Obligations.SwitchesReplicateAndAreRewritten : Prop :=
  Sys2Proof.Claims.GroupWritesReachEveryMember ∧ Sys2Proof.Claims.SwitchesAndLinksAreReconfigured

/-- Launches. That a launch waits where its ports would make a 33rd live ring is the model's choice (log 79). -/
def Obligations.LaunchesAreCopiedPlacedAndStarted : Prop :=
  Sys2Proof.Claims.LaunchesArePlacedAndStarted ∧ Sys2Proof.Claims.LaunchWindowsCopySealedRecords

/-- Energy and the end of a domain. How a gang's packages agree on the end (log 25) and what is carried (log 83) are the model's. -/
def Obligations.DomainsSpendEnergyAndEnd : Prop :=
  Sys2Proof.Claims.EnergyFillsAndIsSpent ∧ Sys2Proof.Claims.DomainsEndAndReleaseTheirContexts

/-- The debugger. The encodings of a state block's remaining bytes (log 16) and of a dump's header (log 37) are the model's. -/
def Obligations.TheDebuggerReachesContexts : Prop :=
  Sys2Proof.Claims.DebuggerHaltsStepsAndWritesContexts ∧ Sys2Proof.Claims.StopsAndDumpsFindTheirWork

/-- The Ethernet ports. -/
def Obligations.EthernetPortsMoveFrames : Prop :=
  Sys2Proof.Claims.EthernetQueuesSendTheirFrames ∧ Sys2Proof.Claims.EthernetQueuesReceiveFrames

end
end

