-- ==== Sys2Proof/Laws/Table.lean ====
section
/-!
SUPPORT. The laws of sparse tables and of byte memory: what a read gives after a write, and that every memory operation keeps the
canonical form.
-/
set_option linter.all false
namespace Sys2Proof

/-! Tables. -/

@[simp] theorem Tbl.find_put_same {α : Type} (t : Tbl α) (k : Nat) (v : α) : Tbl.find (Tbl.put t k v) k = some v := by
  induction t with
  | nil => simp [Tbl.put, Tbl.find]
  | cons e r ih =>
    obtain ⟨n, w⟩ := e
    by_cases h : n = k
    · simp [Tbl.put, Tbl.find, h]
    · simpa [Tbl.put, Tbl.find, h] using ih

theorem Tbl.find_put_other {α : Type} (t : Tbl α) {j k : Nat} (v : α) (h : j ≠ k) :
    Tbl.find (Tbl.put t k v) j = Tbl.find t j := by
  induction t with
  | nil => simp [Tbl.put, Tbl.find, Ne.symm h]
  | cons e r ih =>
    obtain ⟨n, w⟩ := e
    by_cases hn : n = k
    · subst hn; simp [Tbl.put, Tbl.find, Ne.symm h]
    · by_cases hj : n = j
      · subst hj; simp [Tbl.put, Tbl.find, hn]
      · simpa [Tbl.put, Tbl.find, hn, hj] using ih

@[simp] theorem Tbl.read_put_same {α : Type} (t : Tbl α) (k : Nat) (v d : α) : Tbl.read (Tbl.put t k v) k d = v := by
  simp [Tbl.read]

theorem Tbl.read_put_other {α : Type} (t : Tbl α) {j k : Nat} (v d : α) (h : j ≠ k) :
    Tbl.read (Tbl.put t k v) j d = Tbl.read t j d := by
  simp [Tbl.read, Tbl.find_put_other t v h]

theorem Tbl.read_put {α : Type} (t : Tbl α) (j k : Nat) (v d : α) :
    Tbl.read (Tbl.put t k v) j d = if j = k then v else Tbl.read t j d := by
  by_cases h : j = k
  · subst h; simp
  · simp [h, Tbl.read_put_other t v d h]

/-- Writing back what a listed entry holds changes no reading. -/
theorem Tbl.find_put {α : Type} (t : Tbl α) (j k : Nat) (v : α) :
    Tbl.find (Tbl.put t k v) j = if j = k then some v else Tbl.find t j := by
  by_cases h : j = k
  · subst h; simp
  · simp [h, Tbl.find_put_other t v h]

theorem Tbl.find_del_other {α : Type} (t : Tbl α) {j k : Nat} (h : j ≠ k) : Tbl.find (Tbl.del t k) j = Tbl.find t j := by
  induction t with
  | nil => rfl
  | cons e r ih =>
    obtain ⟨n, w⟩ := e
    by_cases hn : n = k
    · subst hn
      simpa [Tbl.del, Tbl.find, Ne.symm h] using ih
    · by_cases hj : n = j
      · subst hj; simp [Tbl.del, Tbl.find, hn]
      · simpa [Tbl.del, Tbl.find, hn, hj] using ih

@[simp] theorem Tbl.find_del_same {α : Type} (t : Tbl α) (k : Nat) : Tbl.find (Tbl.del t k) k = none := by
  induction t with
  | nil => rfl
  | cons e r ih =>
    obtain ⟨n, w⟩ := e
    by_cases hn : n = k
    · subst hn; simpa [Tbl.del, Tbl.find] using ih
    · simpa [Tbl.del, Tbl.find, hn] using ih

namespace Machine

/-! Byte memory. -/

@[simp] theorem readByte_nil (a : Nat) : readByte [] a = 0 := rfl

/-- Below the first listed address every byte reads as 0. -/
theorem readByte_below {lo : Nat} {m : Mem} (h : memFrom lo m = true) {a : Nat} (ha : a < lo) : readByte m a = 0 := by
  cases m with
  | nil => rfl
  | cons e r =>
    obtain ⟨k, v⟩ := e
    simp [memFrom] at h
    have h1 : ¬ k = a := by omega
    have h2 : a < k := by omega
    simp [readByte, h1, h2]

theorem memFrom_mono {lo lo' : Nat} {m : Mem} (h : memFrom lo m = true) (hl : lo' ≤ lo) : memFrom lo' m = true := by
  cases m with
  | nil => rfl
  | cons e r => obtain ⟨k, v⟩ := e; simp [memFrom] at h ⊢; exact ⟨⟨by omega, h.1.2⟩, h.2⟩

theorem memFrom_writeByte {lo : Nat} {m : Mem} {a : Nat} {b : Byte} (h : memFrom lo m = true) (ha : lo ≤ a) :
    memFrom lo (writeByte m a b) = true := by
  induction m generalizing lo with
  | nil =>
    by_cases hb : b = 0#8
    · simp [writeByte, hb, memFrom]
    · simp [writeByte, hb, memFrom, ha]
  | cons e r ih =>
    obtain ⟨k, v⟩ := e
    simp [memFrom] at h
    obtain ⟨⟨hk, hv⟩, hr⟩ := h
    by_cases h1 : k = a
    · subst h1
      by_cases hb : b = 0#8
      · simp [writeByte, hb]; exact memFrom_mono hr (by omega)
      · simp [writeByte, hb, memFrom, ha, hr]
    · by_cases h2 : a < k
      · by_cases hb : b = 0#8
        · simp [writeByte, h1, h2, hb, memFrom, hk, hv, hr]
        · have hk' : a + 1 ≤ k := by omega
          simp [writeByte, h1, h2, hb, memFrom, ha, hk', hv, hr]
      · simp [writeByte, h1, h2, memFrom, hk, hv]
        exact ih hr (by omega)

/-- Writing a byte keeps the canonical form. -/
theorem wf_writeByte {m : Mem} (a : Nat) (b : Byte) (h : Memory.wf m = true) : Memory.wf (writeByte m a b) = true :=
  memFrom_writeByte h (Nat.zero_le a)

/-- Writing bytes keeps the canonical form. -/
theorem wf_writeBytes {m : Mem} (a : Nat) (bs : List Byte) (h : Memory.wf m = true) : Memory.wf (writeBytes m a bs) = true := by
  induction bs generalizing m a with
  | nil => exact h
  | cons b r ih => exact ih (a + 1) (wf_writeByte a b h)

@[simp] theorem wf_nil : Memory.wf [] = true := rfl

/-- A byte reads as it was written. -/
@[simp] theorem readByte_writeByte_same (m : Mem) (a : Nat) (b : Byte) (h : Memory.wf m = true) :
    readByte (writeByte m a b) a = b := by
  suffices ∀ lo, memFrom lo m = true → readByte (writeByte m a b) a = b from this 0 h
  induction m with
  | nil => intro lo _; by_cases hb : b = 0#8 <;> simp [writeByte, hb, readByte]
  | cons e r ih =>
    intro lo h
    obtain ⟨k, v⟩ := e
    simp [memFrom] at h
    by_cases h1 : k = a
    · subst h1
      by_cases hb : b = 0#8
      · simp [writeByte, hb]; exact readByte_below h.2 (by omega)
      · simp [writeByte, hb, readByte]
    · by_cases h2 : a < k
      · by_cases hb : b = 0#8 <;> simp [writeByte, h1, h2, hb, readByte]
      · simp only [writeByte, h1, h2, readByte, if_false]
        exact ih (by exact memFrom_mono h.2 (Nat.zero_le _)) (k + 1) h.2

/-- A write leaves every other byte alone. -/
theorem readByte_writeByte_other (m : Mem) {a c : Nat} (b : Byte) (h : Memory.wf m = true) (hc : c ≠ a) :
    readByte (writeByte m a b) c = readByte m c := by
  suffices ∀ lo, memFrom lo m = true → readByte (writeByte m a b) c = readByte m c from this 0 h
  induction m with
  | nil =>
    intro lo _
    by_cases hb : b = 0#8
    · simp [writeByte, hb]
    · have : ¬ a = c := Ne.symm hc
      by_cases h3 : c < a <;> simp [writeByte, hb, readByte, this, h3]
  | cons e r ih =>
    intro lo h
    obtain ⟨k, v⟩ := e
    simp [memFrom] at h
    by_cases h1 : k = a
    · subst h1
      have hk : ¬ k = c := Ne.symm hc
      by_cases hb : b = 0#8
      · simp only [writeByte, hb, if_true, readByte, hk, if_false]
        by_cases h3 : c < k
        · simp [h3]; exact readByte_below h.2 (by omega)
        · simp [h3]
      · simp [writeByte, hb, readByte, hk]
    · by_cases h2 : a < k
      · by_cases hb : b = 0#8
        · simp [writeByte, h1, h2, hb]
        · have ha : ¬ a = c := Ne.symm hc
          by_cases h3 : c < a
          · have h4 : ¬ k = c := by omega
            have h5 : c < k := by omega
            simp [writeByte, h1, h2, hb, readByte, ha, h3, h4, h5]
          · simp [writeByte, h1, h2, hb, readByte, ha, h3]
      · by_cases h3 : k = c
        · subst h3; simp [writeByte, h1, h2, readByte]
        · by_cases h4 : c < k
          · simp [writeByte, h1, h2, readByte, h3, h4]
          · simp only [writeByte, h1, h2, readByte, h3, h4, if_false]
            exact ih (memFrom_mono h.2 (Nat.zero_le _)) (k + 1) h.2

/-- Bytes outside those written stay. -/
theorem readByte_writeBytes_outside (m : Mem) (a : Nat) (bs : List Byte) {c : Nat} (h : Memory.wf m = true)
    (hc : c < a ∨ a + bs.length ≤ c) : readByte (writeBytes m a bs) c = readByte m c := by
  induction bs generalizing m a with
  | nil => rfl
  | cons b r ih =>
    simp at hc
    rw [writeBytes, ih (writeByte m a b) (a + 1) (wf_writeByte a b h) (by omega)]
    exact readByte_writeByte_other m b h (by omega)

/-- The bytes written are read back. -/
theorem readBytes_writeBytes_same (m : Mem) (a : Nat) (bs : List Byte) (h : Memory.wf m = true) :
    readBytes (writeBytes m a bs) a bs.length = bs := by
  induction bs generalizing m a with
  | nil => rfl
  | cons b r ih =>
    simp only [List.length_cons, readBytes, writeBytes]
    rw [ih (writeByte m a b) (a + 1) (wf_writeByte a b h)]
    rw [readByte_writeBytes_outside (writeByte m a b) (a + 1) r (wf_writeByte a b h) (by omega)]
    rw [readByte_writeByte_same m a b h]

@[simp] theorem readBytes_length (m : Mem) (a n : Nat) : (readBytes m a n).length = n := by
  induction n generalizing a with
  | zero => rfl
  | succ n ih => simp [readBytes, ih]

@[simp] theorem natLE_length (n v : Nat) : (natLE n v).length = n := by
  induction n generalizing v with
  | zero => rfl
  | succ n ih => simp [natLE, ih]

/-- Little-endian bytes give their number back, modulo their width. -/
theorem leNat_natLE (n v : Nat) : leNat (natLE n v) = v % 256 ^ n := by
  induction n generalizing v with
  | zero => simp [natLE, leNat, Nat.mod_one]
  | succ n ih =>
    simp only [natLE, leNat, ih, BitVec.toNat_ofNat]
    have : 256 ^ (n + 1) = 256 * 256 ^ n := by rw [Nat.pow_succ, Nat.mul_comm]
    rw [this, Nat.mod_mul]

@[simp] theorem leWord_wordLE (w : Word) : leWord (wordLE w) = w := by
  unfold leWord wordLE
  rw [leNat_natLE]
  apply BitVec.eq_of_toNat_eq
  simp only [BitVec.toNat_ofNat]
  have := w.isLt
  omega

end Machine
end Sys2Proof
end

