-- ==== Sys2Proof/Laws/State.lean ====
section
/-!
SUPPORT. What each update of State leaves in each field, so that no later proof unfolds a record update, and what the parts of
the state by number read after it. Written by tools/gen_laws_state.py.
-/
set_option linter.all false
namespace Sys2Proof.Machine
open Sys2Proof

variable (s : State)

/-! `State.setCore`. -/
@[simp] theorem State.setCore_devcap (c : Nat) (k : Core) : (s.setCore c k).devcap = s.devcap := rfl
@[simp] theorem State.setCore_pkid (c : Nat) (k : Core) : (s.setCore c k).pkid = s.pkid := rfl
@[simp] theorem State.setCore_cores (c : Nat) (k : Core) : (s.setCore c k).cores = Tbl.put s.cores c k := rfl
@[simp] theorem State.setCore_dies (c : Nat) (k : Core) : (s.setCore c k).dies = s.dies := rfl
@[simp] theorem State.setCore_octets (c : Nat) (k : Core) : (s.setCore c k).octets = s.octets := rfl
@[simp] theorem State.setCore_mem (c : Nat) (k : Core) : (s.setCore c k).mem = s.mem := rfl
@[simp] theorem State.setCore_poison (c : Nat) (k : Core) : (s.setCore c k).poison = s.poison := rfl
@[simp] theorem State.setCore_dir (c : Nat) (k : Core) : (s.setCore c k).dir = s.dir := rfl
@[simp] theorem State.setCore_awaiting (c : Nat) (k : Core) : (s.setCore c k).awaiting = s.awaiting := rfl
@[simp] theorem State.setCore_tlb (c : Nat) (k : Core) : (s.setCore c k).tlb = s.tlb := rfl
@[simp] theorem State.setCore_faults (c : Nat) (k : Core) : (s.setCore c k).faults = s.faults := rfl
@[simp] theorem State.setCore_tags (c : Nat) (k : Core) : (s.setCore c k).tags = s.tags := rfl
@[simp] theorem State.setCore_migCount (c : Nat) (k : Core) : (s.setCore c k).migCount = s.migCount := rfl
@[simp] theorem State.setCore_moves (c : Nat) (k : Core) : (s.setCore c k).moves = s.moves := rfl
@[simp] theorem State.setCore_migPage (c : Nat) (k : Core) : (s.setCore c k).migPage = s.migPage := rfl
@[simp] theorem State.setCore_doms (c : Nat) (k : Core) : (s.setCore c k).doms = s.doms := rfl
@[simp] theorem State.setCore_wins (c : Nat) (k : Core) : (s.setCore c k).wins = s.wins := rfl
@[simp] theorem State.setCore_pendingLaunch (c : Nat) (k : Core) : (s.setCore c k).pendingLaunch = s.pendingLaunch := rfl
@[simp] theorem State.setCore_reservoir (c : Nat) (k : Core) : (s.setCore c k).reservoir = s.reservoir := rfl
@[simp] theorem State.setCore_debt (c : Nat) (k : Core) : (s.setCore c k).debt = s.debt := rfl
@[simp] theorem State.setCore_carried (c : Nat) (k : Core) : (s.setCore c k).carried = s.carried := rfl
@[simp] theorem State.setCore_barriers (c : Nat) (k : Core) : (s.setCore c k).barriers = s.barriers := rfl
@[simp] theorem State.setCore_exchs (c : Nat) (k : Core) : (s.setCore c k).exchs = s.exchs := rfl
@[simp] theorem State.setCore_xmsgs (c : Nat) (k : Core) : (s.setCore c k).xmsgs = s.xmsgs := rfl
@[simp] theorem State.setCore_lmsgs (c : Nat) (k : Core) : (s.setCore c k).lmsgs = s.lmsgs := rfl
@[simp] theorem State.setCore_amoSeq (c : Nat) (k : Core) : (s.setCore c k).amoSeq = s.amoSeq := rfl
@[simp] theorem State.setCore_seqOut (c : Nat) (k : Core) : (s.setCore c k).seqOut = s.seqOut := rfl
@[simp] theorem State.setCore_sent (c : Nat) (k : Core) : (s.setCore c k).sent = s.sent := rfl
@[simp] theorem State.setCore_replies (c : Nat) (k : Core) : (s.setCore c k).replies = s.replies := rfl
@[simp] theorem State.setCore_linkDown (c : Nat) (k : Core) : (s.setCore c k).linkDown = s.linkDown := rfl
@[simp] theorem State.setCore_asterism (c : Nat) (k : Core) : (s.setCore c k).asterism = s.asterism := rfl
@[simp] theorem State.setCore_acl (c : Nat) (k : Core) : (s.setCore c k).acl = s.acl := rfl
@[simp] theorem State.setCore_groups (c : Nat) (k : Core) : (s.setCore c k).groups = s.groups := rfl
@[simp] theorem State.setCore_inbound (c : Nat) (k : Core) : (s.setCore c k).inbound = s.inbound := rfl
@[simp] theorem State.setCore_eth (c : Nat) (k : Core) : (s.setCore c k).eth = s.eth := rfl
@[simp] theorem State.setCore_stops (c : Nat) (k : Core) : (s.setCore c k).stops = s.stops := rfl
@[simp] theorem State.setCore_sgtid (c : Nat) (k : Core) : (s.setCore c k).sgtid = s.sgtid := rfl
@[simp] theorem State.setCore_sgNone (c : Nat) (k : Core) : (s.setCore c k).sgNone = s.sgNone := rfl
@[simp] theorem State.setCore_dbuf (c : Nat) (k : Core) : (s.setCore c k).dbuf = s.dbuf := rfl
@[simp] theorem State.setCore_dlen (c : Nat) (k : Core) : (s.setCore c k).dlen = s.dlen := rfl
@[simp] theorem State.setCore_dbytes (c : Nat) (k : Core) : (s.setCore c k).dbytes = s.dbytes := rfl
@[simp] theorem State.setCore_dstat (c : Nat) (k : Core) : (s.setCore c k).dstat = s.dstat := rfl
@[simp] theorem State.setCore_dgtb (c : Nat) (k : Core) : (s.setCore c k).dgtb = s.dgtb := rfl
@[simp] theorem State.setCore_replay (c : Nat) (k : Core) : (s.setCore c k).replay = s.replay := rfl
@[simp] theorem State.setCore_nbase (c : Nat) (k : Core) : (s.setCore c k).nbase = s.nbase := rfl
@[simp] theorem State.setCore_nsize (c : Nat) (k : Core) : (s.setCore c k).nsize = s.nsize := rfl
@[simp] theorem State.setCore_ntail (c : Nat) (k : Core) : (s.setCore c k).ntail = s.ntail := rfl
@[simp] theorem State.setCore_nhead (c : Nat) (k : Core) : (s.setCore c k).nhead = s.nhead := rfl
@[simp] theorem State.setCore_nheld (c : Nat) (k : Core) : (s.setCore c k).nheld = s.nheld := rfl
@[simp] theorem State.setCore_supCmd (c : Nat) (k : Core) : (s.setCore c k).supCmd = s.supCmd := rfl
@[simp] theorem State.setCore_hlogs (c : Nat) (k : Core) : (s.setCore c k).hlogs = s.hlogs := rfl
@[simp] theorem State.setCore_hinj (c : Nat) (k : Core) : (s.setCore c k).hinj = s.hinj := rfl
@[simp] theorem State.setCore_weights (c : Nat) (k : Core) : (s.setCore c k).weights = s.weights := rfl
@[simp] theorem State.setCore_fw (c : Nat) (k : Core) : (s.setCore c k).fw = s.fw := rfl
@[simp] theorem State.setCore_fwImage (c : Nat) (k : Core) : (s.setCore c k).fwImage = s.fwImage := rfl
@[simp] theorem State.setCore_migth (c : Nat) (k : Core) : (s.setCore c k).migth = s.migth := rfl
@[simp] theorem State.setCore_agesh (c : Nat) (k : Core) : (s.setCore c k).agesh = s.agesh := rfl
@[simp] theorem State.setCore_pcap (c : Nat) (k : Core) : (s.setCore c k).pcap = s.pcap := rfl
@[simp] theorem State.setCore_rchkEn (c : Nat) (k : Core) : (s.setCore c k).rchkEn = s.rchkEn := rfl
@[simp] theorem State.setCore_races (c : Nat) (k : Core) : (s.setCore c k).races = s.races := rfl
@[simp] theorem State.setCore_time (c : Nat) (k : Core) : (s.setCore c k).time = s.time := rfl
@[simp] theorem State.setCore_events (c : Nat) (k : Core) : (s.setCore c k).events = s.events := rfl
@[simp] theorem State.setCore_turns (c : Nat) (k : Core) : (s.setCore c k).turns = s.turns := rfl
@[simp] theorem State.setCore_cur (c : Nat) (k : Core) : (s.setCore c k).cur = s.cur := rfl
@[simp] theorem State.setCore_selected (c : Nat) (k : Core) : (s.setCore c k).selected = s.selected := rfl
@[simp] theorem State.setCore_spun (c : Nat) (k : Core) : (s.setCore c k).spun = s.spun := rfl
@[simp] theorem State.setCore_stalled (c : Nat) (k : Core) : (s.setCore c k).stalled = s.stalled := rfl
@[simp] theorem State.setCore_free (c : Nat) (k : Core) : (s.setCore c k).free = s.free := rfl
@[simp] theorem State.setCore_nextId (c : Nat) (k : Core) : (s.setCore c k).nextId = s.nextId := rfl
@[simp] theorem State.setCore_out (c : Nat) (k : Core) : (s.setCore c k).out = s.out := rfl

/-! `State.setCtx`. -/
@[simp] theorem State.setCtx_devcap (c x : Nat) (k : Ctx) : (s.setCtx c x k).devcap = s.devcap := rfl
@[simp] theorem State.setCtx_pkid (c x : Nat) (k : Ctx) : (s.setCtx c x k).pkid = s.pkid := rfl
@[simp] theorem State.setCtx_cores (c x : Nat) (k : Ctx) : (s.setCtx c x k).cores = Tbl.put s.cores c { s.core c with ctxs := Tbl.put (s.core c).ctxs x k } := rfl
@[simp] theorem State.setCtx_dies (c x : Nat) (k : Ctx) : (s.setCtx c x k).dies = s.dies := rfl
@[simp] theorem State.setCtx_octets (c x : Nat) (k : Ctx) : (s.setCtx c x k).octets = s.octets := rfl
@[simp] theorem State.setCtx_mem (c x : Nat) (k : Ctx) : (s.setCtx c x k).mem = s.mem := rfl
@[simp] theorem State.setCtx_poison (c x : Nat) (k : Ctx) : (s.setCtx c x k).poison = s.poison := rfl
@[simp] theorem State.setCtx_dir (c x : Nat) (k : Ctx) : (s.setCtx c x k).dir = s.dir := rfl
@[simp] theorem State.setCtx_awaiting (c x : Nat) (k : Ctx) : (s.setCtx c x k).awaiting = s.awaiting := rfl
@[simp] theorem State.setCtx_tlb (c x : Nat) (k : Ctx) : (s.setCtx c x k).tlb = s.tlb := rfl
@[simp] theorem State.setCtx_faults (c x : Nat) (k : Ctx) : (s.setCtx c x k).faults = s.faults := rfl
@[simp] theorem State.setCtx_tags (c x : Nat) (k : Ctx) : (s.setCtx c x k).tags = s.tags := rfl
@[simp] theorem State.setCtx_migCount (c x : Nat) (k : Ctx) : (s.setCtx c x k).migCount = s.migCount := rfl
@[simp] theorem State.setCtx_moves (c x : Nat) (k : Ctx) : (s.setCtx c x k).moves = s.moves := rfl
@[simp] theorem State.setCtx_migPage (c x : Nat) (k : Ctx) : (s.setCtx c x k).migPage = s.migPage := rfl
@[simp] theorem State.setCtx_doms (c x : Nat) (k : Ctx) : (s.setCtx c x k).doms = s.doms := rfl
@[simp] theorem State.setCtx_wins (c x : Nat) (k : Ctx) : (s.setCtx c x k).wins = s.wins := rfl
@[simp] theorem State.setCtx_pendingLaunch (c x : Nat) (k : Ctx) : (s.setCtx c x k).pendingLaunch = s.pendingLaunch := rfl
@[simp] theorem State.setCtx_reservoir (c x : Nat) (k : Ctx) : (s.setCtx c x k).reservoir = s.reservoir := rfl
@[simp] theorem State.setCtx_debt (c x : Nat) (k : Ctx) : (s.setCtx c x k).debt = s.debt := rfl
@[simp] theorem State.setCtx_carried (c x : Nat) (k : Ctx) : (s.setCtx c x k).carried = s.carried := rfl
@[simp] theorem State.setCtx_barriers (c x : Nat) (k : Ctx) : (s.setCtx c x k).barriers = s.barriers := rfl
@[simp] theorem State.setCtx_exchs (c x : Nat) (k : Ctx) : (s.setCtx c x k).exchs = s.exchs := rfl
@[simp] theorem State.setCtx_xmsgs (c x : Nat) (k : Ctx) : (s.setCtx c x k).xmsgs = s.xmsgs := rfl
@[simp] theorem State.setCtx_lmsgs (c x : Nat) (k : Ctx) : (s.setCtx c x k).lmsgs = s.lmsgs := rfl
@[simp] theorem State.setCtx_amoSeq (c x : Nat) (k : Ctx) : (s.setCtx c x k).amoSeq = s.amoSeq := rfl
@[simp] theorem State.setCtx_seqOut (c x : Nat) (k : Ctx) : (s.setCtx c x k).seqOut = s.seqOut := rfl
@[simp] theorem State.setCtx_sent (c x : Nat) (k : Ctx) : (s.setCtx c x k).sent = s.sent := rfl
@[simp] theorem State.setCtx_replies (c x : Nat) (k : Ctx) : (s.setCtx c x k).replies = s.replies := rfl
@[simp] theorem State.setCtx_linkDown (c x : Nat) (k : Ctx) : (s.setCtx c x k).linkDown = s.linkDown := rfl
@[simp] theorem State.setCtx_asterism (c x : Nat) (k : Ctx) : (s.setCtx c x k).asterism = s.asterism := rfl
@[simp] theorem State.setCtx_acl (c x : Nat) (k : Ctx) : (s.setCtx c x k).acl = s.acl := rfl
@[simp] theorem State.setCtx_groups (c x : Nat) (k : Ctx) : (s.setCtx c x k).groups = s.groups := rfl
@[simp] theorem State.setCtx_inbound (c x : Nat) (k : Ctx) : (s.setCtx c x k).inbound = s.inbound := rfl
@[simp] theorem State.setCtx_eth (c x : Nat) (k : Ctx) : (s.setCtx c x k).eth = s.eth := rfl
@[simp] theorem State.setCtx_stops (c x : Nat) (k : Ctx) : (s.setCtx c x k).stops = s.stops := rfl
@[simp] theorem State.setCtx_sgtid (c x : Nat) (k : Ctx) : (s.setCtx c x k).sgtid = s.sgtid := rfl
@[simp] theorem State.setCtx_sgNone (c x : Nat) (k : Ctx) : (s.setCtx c x k).sgNone = s.sgNone := rfl
@[simp] theorem State.setCtx_dbuf (c x : Nat) (k : Ctx) : (s.setCtx c x k).dbuf = s.dbuf := rfl
@[simp] theorem State.setCtx_dlen (c x : Nat) (k : Ctx) : (s.setCtx c x k).dlen = s.dlen := rfl
@[simp] theorem State.setCtx_dbytes (c x : Nat) (k : Ctx) : (s.setCtx c x k).dbytes = s.dbytes := rfl
@[simp] theorem State.setCtx_dstat (c x : Nat) (k : Ctx) : (s.setCtx c x k).dstat = s.dstat := rfl
@[simp] theorem State.setCtx_dgtb (c x : Nat) (k : Ctx) : (s.setCtx c x k).dgtb = s.dgtb := rfl
@[simp] theorem State.setCtx_replay (c x : Nat) (k : Ctx) : (s.setCtx c x k).replay = s.replay := rfl
@[simp] theorem State.setCtx_nbase (c x : Nat) (k : Ctx) : (s.setCtx c x k).nbase = s.nbase := rfl
@[simp] theorem State.setCtx_nsize (c x : Nat) (k : Ctx) : (s.setCtx c x k).nsize = s.nsize := rfl
@[simp] theorem State.setCtx_ntail (c x : Nat) (k : Ctx) : (s.setCtx c x k).ntail = s.ntail := rfl
@[simp] theorem State.setCtx_nhead (c x : Nat) (k : Ctx) : (s.setCtx c x k).nhead = s.nhead := rfl
@[simp] theorem State.setCtx_nheld (c x : Nat) (k : Ctx) : (s.setCtx c x k).nheld = s.nheld := rfl
@[simp] theorem State.setCtx_supCmd (c x : Nat) (k : Ctx) : (s.setCtx c x k).supCmd = s.supCmd := rfl
@[simp] theorem State.setCtx_hlogs (c x : Nat) (k : Ctx) : (s.setCtx c x k).hlogs = s.hlogs := rfl
@[simp] theorem State.setCtx_hinj (c x : Nat) (k : Ctx) : (s.setCtx c x k).hinj = s.hinj := rfl
@[simp] theorem State.setCtx_weights (c x : Nat) (k : Ctx) : (s.setCtx c x k).weights = s.weights := rfl
@[simp] theorem State.setCtx_fw (c x : Nat) (k : Ctx) : (s.setCtx c x k).fw = s.fw := rfl
@[simp] theorem State.setCtx_fwImage (c x : Nat) (k : Ctx) : (s.setCtx c x k).fwImage = s.fwImage := rfl
@[simp] theorem State.setCtx_migth (c x : Nat) (k : Ctx) : (s.setCtx c x k).migth = s.migth := rfl
@[simp] theorem State.setCtx_agesh (c x : Nat) (k : Ctx) : (s.setCtx c x k).agesh = s.agesh := rfl
@[simp] theorem State.setCtx_pcap (c x : Nat) (k : Ctx) : (s.setCtx c x k).pcap = s.pcap := rfl
@[simp] theorem State.setCtx_rchkEn (c x : Nat) (k : Ctx) : (s.setCtx c x k).rchkEn = s.rchkEn := rfl
@[simp] theorem State.setCtx_races (c x : Nat) (k : Ctx) : (s.setCtx c x k).races = s.races := rfl
@[simp] theorem State.setCtx_time (c x : Nat) (k : Ctx) : (s.setCtx c x k).time = s.time := rfl
@[simp] theorem State.setCtx_events (c x : Nat) (k : Ctx) : (s.setCtx c x k).events = s.events := rfl
@[simp] theorem State.setCtx_turns (c x : Nat) (k : Ctx) : (s.setCtx c x k).turns = s.turns := rfl
@[simp] theorem State.setCtx_cur (c x : Nat) (k : Ctx) : (s.setCtx c x k).cur = s.cur := rfl
@[simp] theorem State.setCtx_selected (c x : Nat) (k : Ctx) : (s.setCtx c x k).selected = s.selected := rfl
@[simp] theorem State.setCtx_spun (c x : Nat) (k : Ctx) : (s.setCtx c x k).spun = s.spun := rfl
@[simp] theorem State.setCtx_stalled (c x : Nat) (k : Ctx) : (s.setCtx c x k).stalled = s.stalled := rfl
@[simp] theorem State.setCtx_free (c x : Nat) (k : Ctx) : (s.setCtx c x k).free = s.free := rfl
@[simp] theorem State.setCtx_nextId (c x : Nat) (k : Ctx) : (s.setCtx c x k).nextId = s.nextId := rfl
@[simp] theorem State.setCtx_out (c x : Nat) (k : Ctx) : (s.setCtx c x k).out = s.out := rfl

/-! `State.setDie`. -/
@[simp] theorem State.setDie_devcap (d : Nat) (k : Die) : (s.setDie d k).devcap = s.devcap := rfl
@[simp] theorem State.setDie_pkid (d : Nat) (k : Die) : (s.setDie d k).pkid = s.pkid := rfl
@[simp] theorem State.setDie_cores (d : Nat) (k : Die) : (s.setDie d k).cores = s.cores := rfl
@[simp] theorem State.setDie_dies (d : Nat) (k : Die) : (s.setDie d k).dies = Tbl.put s.dies d k := rfl
@[simp] theorem State.setDie_octets (d : Nat) (k : Die) : (s.setDie d k).octets = s.octets := rfl
@[simp] theorem State.setDie_mem (d : Nat) (k : Die) : (s.setDie d k).mem = s.mem := rfl
@[simp] theorem State.setDie_poison (d : Nat) (k : Die) : (s.setDie d k).poison = s.poison := rfl
@[simp] theorem State.setDie_dir (d : Nat) (k : Die) : (s.setDie d k).dir = s.dir := rfl
@[simp] theorem State.setDie_awaiting (d : Nat) (k : Die) : (s.setDie d k).awaiting = s.awaiting := rfl
@[simp] theorem State.setDie_tlb (d : Nat) (k : Die) : (s.setDie d k).tlb = s.tlb := rfl
@[simp] theorem State.setDie_faults (d : Nat) (k : Die) : (s.setDie d k).faults = s.faults := rfl
@[simp] theorem State.setDie_tags (d : Nat) (k : Die) : (s.setDie d k).tags = s.tags := rfl
@[simp] theorem State.setDie_migCount (d : Nat) (k : Die) : (s.setDie d k).migCount = s.migCount := rfl
@[simp] theorem State.setDie_moves (d : Nat) (k : Die) : (s.setDie d k).moves = s.moves := rfl
@[simp] theorem State.setDie_migPage (d : Nat) (k : Die) : (s.setDie d k).migPage = s.migPage := rfl
@[simp] theorem State.setDie_doms (d : Nat) (k : Die) : (s.setDie d k).doms = s.doms := rfl
@[simp] theorem State.setDie_wins (d : Nat) (k : Die) : (s.setDie d k).wins = s.wins := rfl
@[simp] theorem State.setDie_pendingLaunch (d : Nat) (k : Die) : (s.setDie d k).pendingLaunch = s.pendingLaunch := rfl
@[simp] theorem State.setDie_reservoir (d : Nat) (k : Die) : (s.setDie d k).reservoir = s.reservoir := rfl
@[simp] theorem State.setDie_debt (d : Nat) (k : Die) : (s.setDie d k).debt = s.debt := rfl
@[simp] theorem State.setDie_carried (d : Nat) (k : Die) : (s.setDie d k).carried = s.carried := rfl
@[simp] theorem State.setDie_barriers (d : Nat) (k : Die) : (s.setDie d k).barriers = s.barriers := rfl
@[simp] theorem State.setDie_exchs (d : Nat) (k : Die) : (s.setDie d k).exchs = s.exchs := rfl
@[simp] theorem State.setDie_xmsgs (d : Nat) (k : Die) : (s.setDie d k).xmsgs = s.xmsgs := rfl
@[simp] theorem State.setDie_lmsgs (d : Nat) (k : Die) : (s.setDie d k).lmsgs = s.lmsgs := rfl
@[simp] theorem State.setDie_amoSeq (d : Nat) (k : Die) : (s.setDie d k).amoSeq = s.amoSeq := rfl
@[simp] theorem State.setDie_seqOut (d : Nat) (k : Die) : (s.setDie d k).seqOut = s.seqOut := rfl
@[simp] theorem State.setDie_sent (d : Nat) (k : Die) : (s.setDie d k).sent = s.sent := rfl
@[simp] theorem State.setDie_replies (d : Nat) (k : Die) : (s.setDie d k).replies = s.replies := rfl
@[simp] theorem State.setDie_linkDown (d : Nat) (k : Die) : (s.setDie d k).linkDown = s.linkDown := rfl
@[simp] theorem State.setDie_asterism (d : Nat) (k : Die) : (s.setDie d k).asterism = s.asterism := rfl
@[simp] theorem State.setDie_acl (d : Nat) (k : Die) : (s.setDie d k).acl = s.acl := rfl
@[simp] theorem State.setDie_groups (d : Nat) (k : Die) : (s.setDie d k).groups = s.groups := rfl
@[simp] theorem State.setDie_inbound (d : Nat) (k : Die) : (s.setDie d k).inbound = s.inbound := rfl
@[simp] theorem State.setDie_eth (d : Nat) (k : Die) : (s.setDie d k).eth = s.eth := rfl
@[simp] theorem State.setDie_stops (d : Nat) (k : Die) : (s.setDie d k).stops = s.stops := rfl
@[simp] theorem State.setDie_sgtid (d : Nat) (k : Die) : (s.setDie d k).sgtid = s.sgtid := rfl
@[simp] theorem State.setDie_sgNone (d : Nat) (k : Die) : (s.setDie d k).sgNone = s.sgNone := rfl
@[simp] theorem State.setDie_dbuf (d : Nat) (k : Die) : (s.setDie d k).dbuf = s.dbuf := rfl
@[simp] theorem State.setDie_dlen (d : Nat) (k : Die) : (s.setDie d k).dlen = s.dlen := rfl
@[simp] theorem State.setDie_dbytes (d : Nat) (k : Die) : (s.setDie d k).dbytes = s.dbytes := rfl
@[simp] theorem State.setDie_dstat (d : Nat) (k : Die) : (s.setDie d k).dstat = s.dstat := rfl
@[simp] theorem State.setDie_dgtb (d : Nat) (k : Die) : (s.setDie d k).dgtb = s.dgtb := rfl
@[simp] theorem State.setDie_replay (d : Nat) (k : Die) : (s.setDie d k).replay = s.replay := rfl
@[simp] theorem State.setDie_nbase (d : Nat) (k : Die) : (s.setDie d k).nbase = s.nbase := rfl
@[simp] theorem State.setDie_nsize (d : Nat) (k : Die) : (s.setDie d k).nsize = s.nsize := rfl
@[simp] theorem State.setDie_ntail (d : Nat) (k : Die) : (s.setDie d k).ntail = s.ntail := rfl
@[simp] theorem State.setDie_nhead (d : Nat) (k : Die) : (s.setDie d k).nhead = s.nhead := rfl
@[simp] theorem State.setDie_nheld (d : Nat) (k : Die) : (s.setDie d k).nheld = s.nheld := rfl
@[simp] theorem State.setDie_supCmd (d : Nat) (k : Die) : (s.setDie d k).supCmd = s.supCmd := rfl
@[simp] theorem State.setDie_hlogs (d : Nat) (k : Die) : (s.setDie d k).hlogs = s.hlogs := rfl
@[simp] theorem State.setDie_hinj (d : Nat) (k : Die) : (s.setDie d k).hinj = s.hinj := rfl
@[simp] theorem State.setDie_weights (d : Nat) (k : Die) : (s.setDie d k).weights = s.weights := rfl
@[simp] theorem State.setDie_fw (d : Nat) (k : Die) : (s.setDie d k).fw = s.fw := rfl
@[simp] theorem State.setDie_fwImage (d : Nat) (k : Die) : (s.setDie d k).fwImage = s.fwImage := rfl
@[simp] theorem State.setDie_migth (d : Nat) (k : Die) : (s.setDie d k).migth = s.migth := rfl
@[simp] theorem State.setDie_agesh (d : Nat) (k : Die) : (s.setDie d k).agesh = s.agesh := rfl
@[simp] theorem State.setDie_pcap (d : Nat) (k : Die) : (s.setDie d k).pcap = s.pcap := rfl
@[simp] theorem State.setDie_rchkEn (d : Nat) (k : Die) : (s.setDie d k).rchkEn = s.rchkEn := rfl
@[simp] theorem State.setDie_races (d : Nat) (k : Die) : (s.setDie d k).races = s.races := rfl
@[simp] theorem State.setDie_time (d : Nat) (k : Die) : (s.setDie d k).time = s.time := rfl
@[simp] theorem State.setDie_events (d : Nat) (k : Die) : (s.setDie d k).events = s.events := rfl
@[simp] theorem State.setDie_turns (d : Nat) (k : Die) : (s.setDie d k).turns = s.turns := rfl
@[simp] theorem State.setDie_cur (d : Nat) (k : Die) : (s.setDie d k).cur = s.cur := rfl
@[simp] theorem State.setDie_selected (d : Nat) (k : Die) : (s.setDie d k).selected = s.selected := rfl
@[simp] theorem State.setDie_spun (d : Nat) (k : Die) : (s.setDie d k).spun = s.spun := rfl
@[simp] theorem State.setDie_stalled (d : Nat) (k : Die) : (s.setDie d k).stalled = s.stalled := rfl
@[simp] theorem State.setDie_free (d : Nat) (k : Die) : (s.setDie d k).free = s.free := rfl
@[simp] theorem State.setDie_nextId (d : Nat) (k : Die) : (s.setDie d k).nextId = s.nextId := rfl
@[simp] theorem State.setDie_out (d : Nat) (k : Die) : (s.setDie d k).out = s.out := rfl

/-! `State.updDom`. -/
@[simp] theorem State.updDom_devcap (g : Nat) (f : Dom → Dom) : (s.updDom g f).devcap = s.devcap := rfl
@[simp] theorem State.updDom_pkid (g : Nat) (f : Dom → Dom) : (s.updDom g f).pkid = s.pkid := rfl
@[simp] theorem State.updDom_cores (g : Nat) (f : Dom → Dom) : (s.updDom g f).cores = s.cores := rfl
@[simp] theorem State.updDom_dies (g : Nat) (f : Dom → Dom) : (s.updDom g f).dies = s.dies := rfl
@[simp] theorem State.updDom_octets (g : Nat) (f : Dom → Dom) : (s.updDom g f).octets = s.octets := rfl
@[simp] theorem State.updDom_mem (g : Nat) (f : Dom → Dom) : (s.updDom g f).mem = s.mem := rfl
@[simp] theorem State.updDom_poison (g : Nat) (f : Dom → Dom) : (s.updDom g f).poison = s.poison := rfl
@[simp] theorem State.updDom_dir (g : Nat) (f : Dom → Dom) : (s.updDom g f).dir = s.dir := rfl
@[simp] theorem State.updDom_awaiting (g : Nat) (f : Dom → Dom) : (s.updDom g f).awaiting = s.awaiting := rfl
@[simp] theorem State.updDom_tlb (g : Nat) (f : Dom → Dom) : (s.updDom g f).tlb = s.tlb := rfl
@[simp] theorem State.updDom_faults (g : Nat) (f : Dom → Dom) : (s.updDom g f).faults = s.faults := rfl
@[simp] theorem State.updDom_tags (g : Nat) (f : Dom → Dom) : (s.updDom g f).tags = s.tags := rfl
@[simp] theorem State.updDom_migCount (g : Nat) (f : Dom → Dom) : (s.updDom g f).migCount = s.migCount := rfl
@[simp] theorem State.updDom_moves (g : Nat) (f : Dom → Dom) : (s.updDom g f).moves = s.moves := rfl
@[simp] theorem State.updDom_migPage (g : Nat) (f : Dom → Dom) : (s.updDom g f).migPage = s.migPage := rfl
@[simp] theorem State.updDom_doms (g : Nat) (f : Dom → Dom) : (s.updDom g f).doms = Tbl.put s.doms g (f (s.dom g)) := rfl
@[simp] theorem State.updDom_wins (g : Nat) (f : Dom → Dom) : (s.updDom g f).wins = s.wins := rfl
@[simp] theorem State.updDom_pendingLaunch (g : Nat) (f : Dom → Dom) : (s.updDom g f).pendingLaunch = s.pendingLaunch := rfl
@[simp] theorem State.updDom_reservoir (g : Nat) (f : Dom → Dom) : (s.updDom g f).reservoir = s.reservoir := rfl
@[simp] theorem State.updDom_debt (g : Nat) (f : Dom → Dom) : (s.updDom g f).debt = s.debt := rfl
@[simp] theorem State.updDom_carried (g : Nat) (f : Dom → Dom) : (s.updDom g f).carried = s.carried := rfl
@[simp] theorem State.updDom_barriers (g : Nat) (f : Dom → Dom) : (s.updDom g f).barriers = s.barriers := rfl
@[simp] theorem State.updDom_exchs (g : Nat) (f : Dom → Dom) : (s.updDom g f).exchs = s.exchs := rfl
@[simp] theorem State.updDom_xmsgs (g : Nat) (f : Dom → Dom) : (s.updDom g f).xmsgs = s.xmsgs := rfl
@[simp] theorem State.updDom_lmsgs (g : Nat) (f : Dom → Dom) : (s.updDom g f).lmsgs = s.lmsgs := rfl
@[simp] theorem State.updDom_amoSeq (g : Nat) (f : Dom → Dom) : (s.updDom g f).amoSeq = s.amoSeq := rfl
@[simp] theorem State.updDom_seqOut (g : Nat) (f : Dom → Dom) : (s.updDom g f).seqOut = s.seqOut := rfl
@[simp] theorem State.updDom_sent (g : Nat) (f : Dom → Dom) : (s.updDom g f).sent = s.sent := rfl
@[simp] theorem State.updDom_replies (g : Nat) (f : Dom → Dom) : (s.updDom g f).replies = s.replies := rfl
@[simp] theorem State.updDom_linkDown (g : Nat) (f : Dom → Dom) : (s.updDom g f).linkDown = s.linkDown := rfl
@[simp] theorem State.updDom_asterism (g : Nat) (f : Dom → Dom) : (s.updDom g f).asterism = s.asterism := rfl
@[simp] theorem State.updDom_acl (g : Nat) (f : Dom → Dom) : (s.updDom g f).acl = s.acl := rfl
@[simp] theorem State.updDom_groups (g : Nat) (f : Dom → Dom) : (s.updDom g f).groups = s.groups := rfl
@[simp] theorem State.updDom_inbound (g : Nat) (f : Dom → Dom) : (s.updDom g f).inbound = s.inbound := rfl
@[simp] theorem State.updDom_eth (g : Nat) (f : Dom → Dom) : (s.updDom g f).eth = s.eth := rfl
@[simp] theorem State.updDom_stops (g : Nat) (f : Dom → Dom) : (s.updDom g f).stops = s.stops := rfl
@[simp] theorem State.updDom_sgtid (g : Nat) (f : Dom → Dom) : (s.updDom g f).sgtid = s.sgtid := rfl
@[simp] theorem State.updDom_sgNone (g : Nat) (f : Dom → Dom) : (s.updDom g f).sgNone = s.sgNone := rfl
@[simp] theorem State.updDom_dbuf (g : Nat) (f : Dom → Dom) : (s.updDom g f).dbuf = s.dbuf := rfl
@[simp] theorem State.updDom_dlen (g : Nat) (f : Dom → Dom) : (s.updDom g f).dlen = s.dlen := rfl
@[simp] theorem State.updDom_dbytes (g : Nat) (f : Dom → Dom) : (s.updDom g f).dbytes = s.dbytes := rfl
@[simp] theorem State.updDom_dstat (g : Nat) (f : Dom → Dom) : (s.updDom g f).dstat = s.dstat := rfl
@[simp] theorem State.updDom_dgtb (g : Nat) (f : Dom → Dom) : (s.updDom g f).dgtb = s.dgtb := rfl
@[simp] theorem State.updDom_replay (g : Nat) (f : Dom → Dom) : (s.updDom g f).replay = s.replay := rfl
@[simp] theorem State.updDom_nbase (g : Nat) (f : Dom → Dom) : (s.updDom g f).nbase = s.nbase := rfl
@[simp] theorem State.updDom_nsize (g : Nat) (f : Dom → Dom) : (s.updDom g f).nsize = s.nsize := rfl
@[simp] theorem State.updDom_ntail (g : Nat) (f : Dom → Dom) : (s.updDom g f).ntail = s.ntail := rfl
@[simp] theorem State.updDom_nhead (g : Nat) (f : Dom → Dom) : (s.updDom g f).nhead = s.nhead := rfl
@[simp] theorem State.updDom_nheld (g : Nat) (f : Dom → Dom) : (s.updDom g f).nheld = s.nheld := rfl
@[simp] theorem State.updDom_supCmd (g : Nat) (f : Dom → Dom) : (s.updDom g f).supCmd = s.supCmd := rfl
@[simp] theorem State.updDom_hlogs (g : Nat) (f : Dom → Dom) : (s.updDom g f).hlogs = s.hlogs := rfl
@[simp] theorem State.updDom_hinj (g : Nat) (f : Dom → Dom) : (s.updDom g f).hinj = s.hinj := rfl
@[simp] theorem State.updDom_weights (g : Nat) (f : Dom → Dom) : (s.updDom g f).weights = s.weights := rfl
@[simp] theorem State.updDom_fw (g : Nat) (f : Dom → Dom) : (s.updDom g f).fw = s.fw := rfl
@[simp] theorem State.updDom_fwImage (g : Nat) (f : Dom → Dom) : (s.updDom g f).fwImage = s.fwImage := rfl
@[simp] theorem State.updDom_migth (g : Nat) (f : Dom → Dom) : (s.updDom g f).migth = s.migth := rfl
@[simp] theorem State.updDom_agesh (g : Nat) (f : Dom → Dom) : (s.updDom g f).agesh = s.agesh := rfl
@[simp] theorem State.updDom_pcap (g : Nat) (f : Dom → Dom) : (s.updDom g f).pcap = s.pcap := rfl
@[simp] theorem State.updDom_rchkEn (g : Nat) (f : Dom → Dom) : (s.updDom g f).rchkEn = s.rchkEn := rfl
@[simp] theorem State.updDom_races (g : Nat) (f : Dom → Dom) : (s.updDom g f).races = s.races := rfl
@[simp] theorem State.updDom_time (g : Nat) (f : Dom → Dom) : (s.updDom g f).time = s.time := rfl
@[simp] theorem State.updDom_events (g : Nat) (f : Dom → Dom) : (s.updDom g f).events = s.events := rfl
@[simp] theorem State.updDom_turns (g : Nat) (f : Dom → Dom) : (s.updDom g f).turns = s.turns := rfl
@[simp] theorem State.updDom_cur (g : Nat) (f : Dom → Dom) : (s.updDom g f).cur = s.cur := rfl
@[simp] theorem State.updDom_selected (g : Nat) (f : Dom → Dom) : (s.updDom g f).selected = s.selected := rfl
@[simp] theorem State.updDom_spun (g : Nat) (f : Dom → Dom) : (s.updDom g f).spun = s.spun := rfl
@[simp] theorem State.updDom_stalled (g : Nat) (f : Dom → Dom) : (s.updDom g f).stalled = s.stalled := rfl
@[simp] theorem State.updDom_free (g : Nat) (f : Dom → Dom) : (s.updDom g f).free = s.free := rfl
@[simp] theorem State.updDom_nextId (g : Nat) (f : Dom → Dom) : (s.updDom g f).nextId = s.nextId := rfl
@[simp] theorem State.updDom_out (g : Nat) (f : Dom → Dom) : (s.updDom g f).out = s.out := rfl

/-! `State.push`. -/
@[simp] theorem State.push_devcap (e : Event) : (s.push e).devcap = s.devcap := rfl
@[simp] theorem State.push_pkid (e : Event) : (s.push e).pkid = s.pkid := rfl
@[simp] theorem State.push_cores (e : Event) : (s.push e).cores = s.cores := rfl
@[simp] theorem State.push_dies (e : Event) : (s.push e).dies = s.dies := rfl
@[simp] theorem State.push_octets (e : Event) : (s.push e).octets = s.octets := rfl
@[simp] theorem State.push_mem (e : Event) : (s.push e).mem = s.mem := rfl
@[simp] theorem State.push_poison (e : Event) : (s.push e).poison = s.poison := rfl
@[simp] theorem State.push_dir (e : Event) : (s.push e).dir = s.dir := rfl
@[simp] theorem State.push_awaiting (e : Event) : (s.push e).awaiting = s.awaiting := rfl
@[simp] theorem State.push_tlb (e : Event) : (s.push e).tlb = s.tlb := rfl
@[simp] theorem State.push_faults (e : Event) : (s.push e).faults = s.faults := rfl
@[simp] theorem State.push_tags (e : Event) : (s.push e).tags = s.tags := rfl
@[simp] theorem State.push_migCount (e : Event) : (s.push e).migCount = s.migCount := rfl
@[simp] theorem State.push_moves (e : Event) : (s.push e).moves = s.moves := rfl
@[simp] theorem State.push_migPage (e : Event) : (s.push e).migPage = s.migPage := rfl
@[simp] theorem State.push_doms (e : Event) : (s.push e).doms = s.doms := rfl
@[simp] theorem State.push_wins (e : Event) : (s.push e).wins = s.wins := rfl
@[simp] theorem State.push_pendingLaunch (e : Event) : (s.push e).pendingLaunch = s.pendingLaunch := rfl
@[simp] theorem State.push_reservoir (e : Event) : (s.push e).reservoir = s.reservoir := rfl
@[simp] theorem State.push_debt (e : Event) : (s.push e).debt = s.debt := rfl
@[simp] theorem State.push_carried (e : Event) : (s.push e).carried = s.carried := rfl
@[simp] theorem State.push_barriers (e : Event) : (s.push e).barriers = s.barriers := rfl
@[simp] theorem State.push_exchs (e : Event) : (s.push e).exchs = s.exchs := rfl
@[simp] theorem State.push_xmsgs (e : Event) : (s.push e).xmsgs = s.xmsgs := rfl
@[simp] theorem State.push_lmsgs (e : Event) : (s.push e).lmsgs = s.lmsgs := rfl
@[simp] theorem State.push_amoSeq (e : Event) : (s.push e).amoSeq = s.amoSeq := rfl
@[simp] theorem State.push_seqOut (e : Event) : (s.push e).seqOut = s.seqOut := rfl
@[simp] theorem State.push_sent (e : Event) : (s.push e).sent = s.sent := rfl
@[simp] theorem State.push_replies (e : Event) : (s.push e).replies = s.replies := rfl
@[simp] theorem State.push_linkDown (e : Event) : (s.push e).linkDown = s.linkDown := rfl
@[simp] theorem State.push_asterism (e : Event) : (s.push e).asterism = s.asterism := rfl
@[simp] theorem State.push_acl (e : Event) : (s.push e).acl = s.acl := rfl
@[simp] theorem State.push_groups (e : Event) : (s.push e).groups = s.groups := rfl
@[simp] theorem State.push_inbound (e : Event) : (s.push e).inbound = s.inbound := rfl
@[simp] theorem State.push_eth (e : Event) : (s.push e).eth = s.eth := rfl
@[simp] theorem State.push_stops (e : Event) : (s.push e).stops = s.stops := rfl
@[simp] theorem State.push_sgtid (e : Event) : (s.push e).sgtid = s.sgtid := rfl
@[simp] theorem State.push_sgNone (e : Event) : (s.push e).sgNone = s.sgNone := rfl
@[simp] theorem State.push_dbuf (e : Event) : (s.push e).dbuf = s.dbuf := rfl
@[simp] theorem State.push_dlen (e : Event) : (s.push e).dlen = s.dlen := rfl
@[simp] theorem State.push_dbytes (e : Event) : (s.push e).dbytes = s.dbytes := rfl
@[simp] theorem State.push_dstat (e : Event) : (s.push e).dstat = s.dstat := rfl
@[simp] theorem State.push_dgtb (e : Event) : (s.push e).dgtb = s.dgtb := rfl
@[simp] theorem State.push_replay (e : Event) : (s.push e).replay = s.replay := rfl
@[simp] theorem State.push_nbase (e : Event) : (s.push e).nbase = s.nbase := rfl
@[simp] theorem State.push_nsize (e : Event) : (s.push e).nsize = s.nsize := rfl
@[simp] theorem State.push_ntail (e : Event) : (s.push e).ntail = s.ntail := rfl
@[simp] theorem State.push_nhead (e : Event) : (s.push e).nhead = s.nhead := rfl
@[simp] theorem State.push_nheld (e : Event) : (s.push e).nheld = s.nheld := rfl
@[simp] theorem State.push_supCmd (e : Event) : (s.push e).supCmd = s.supCmd := rfl
@[simp] theorem State.push_hlogs (e : Event) : (s.push e).hlogs = s.hlogs := rfl
@[simp] theorem State.push_hinj (e : Event) : (s.push e).hinj = s.hinj := rfl
@[simp] theorem State.push_weights (e : Event) : (s.push e).weights = s.weights := rfl
@[simp] theorem State.push_fw (e : Event) : (s.push e).fw = s.fw := rfl
@[simp] theorem State.push_fwImage (e : Event) : (s.push e).fwImage = s.fwImage := rfl
@[simp] theorem State.push_migth (e : Event) : (s.push e).migth = s.migth := rfl
@[simp] theorem State.push_agesh (e : Event) : (s.push e).agesh = s.agesh := rfl
@[simp] theorem State.push_pcap (e : Event) : (s.push e).pcap = s.pcap := rfl
@[simp] theorem State.push_rchkEn (e : Event) : (s.push e).rchkEn = s.rchkEn := rfl
@[simp] theorem State.push_races (e : Event) : (s.push e).races = s.races := rfl
@[simp] theorem State.push_time (e : Event) : (s.push e).time = s.time := rfl
@[simp] theorem State.push_events (e : Event) : (s.push e).events = s.events ++ [e] := rfl
@[simp] theorem State.push_turns (e : Event) : (s.push e).turns = s.turns := rfl
@[simp] theorem State.push_cur (e : Event) : (s.push e).cur = s.cur := rfl
@[simp] theorem State.push_selected (e : Event) : (s.push e).selected = s.selected := rfl
@[simp] theorem State.push_spun (e : Event) : (s.push e).spun = s.spun := rfl
@[simp] theorem State.push_stalled (e : Event) : (s.push e).stalled = s.stalled := rfl
@[simp] theorem State.push_free (e : Event) : (s.push e).free = s.free := rfl
@[simp] theorem State.push_nextId (e : Event) : (s.push e).nextId = s.nextId := rfl
@[simp] theorem State.push_out (e : Event) : (s.push e).out = s.out := rfl

/-! `State.pushAll`. -/
@[simp] theorem State.pushAll_devcap (es : List Event) : (s.pushAll es).devcap = s.devcap := rfl
@[simp] theorem State.pushAll_pkid (es : List Event) : (s.pushAll es).pkid = s.pkid := rfl
@[simp] theorem State.pushAll_cores (es : List Event) : (s.pushAll es).cores = s.cores := rfl
@[simp] theorem State.pushAll_dies (es : List Event) : (s.pushAll es).dies = s.dies := rfl
@[simp] theorem State.pushAll_octets (es : List Event) : (s.pushAll es).octets = s.octets := rfl
@[simp] theorem State.pushAll_mem (es : List Event) : (s.pushAll es).mem = s.mem := rfl
@[simp] theorem State.pushAll_poison (es : List Event) : (s.pushAll es).poison = s.poison := rfl
@[simp] theorem State.pushAll_dir (es : List Event) : (s.pushAll es).dir = s.dir := rfl
@[simp] theorem State.pushAll_awaiting (es : List Event) : (s.pushAll es).awaiting = s.awaiting := rfl
@[simp] theorem State.pushAll_tlb (es : List Event) : (s.pushAll es).tlb = s.tlb := rfl
@[simp] theorem State.pushAll_faults (es : List Event) : (s.pushAll es).faults = s.faults := rfl
@[simp] theorem State.pushAll_tags (es : List Event) : (s.pushAll es).tags = s.tags := rfl
@[simp] theorem State.pushAll_migCount (es : List Event) : (s.pushAll es).migCount = s.migCount := rfl
@[simp] theorem State.pushAll_moves (es : List Event) : (s.pushAll es).moves = s.moves := rfl
@[simp] theorem State.pushAll_migPage (es : List Event) : (s.pushAll es).migPage = s.migPage := rfl
@[simp] theorem State.pushAll_doms (es : List Event) : (s.pushAll es).doms = s.doms := rfl
@[simp] theorem State.pushAll_wins (es : List Event) : (s.pushAll es).wins = s.wins := rfl
@[simp] theorem State.pushAll_pendingLaunch (es : List Event) : (s.pushAll es).pendingLaunch = s.pendingLaunch := rfl
@[simp] theorem State.pushAll_reservoir (es : List Event) : (s.pushAll es).reservoir = s.reservoir := rfl
@[simp] theorem State.pushAll_debt (es : List Event) : (s.pushAll es).debt = s.debt := rfl
@[simp] theorem State.pushAll_carried (es : List Event) : (s.pushAll es).carried = s.carried := rfl
@[simp] theorem State.pushAll_barriers (es : List Event) : (s.pushAll es).barriers = s.barriers := rfl
@[simp] theorem State.pushAll_exchs (es : List Event) : (s.pushAll es).exchs = s.exchs := rfl
@[simp] theorem State.pushAll_xmsgs (es : List Event) : (s.pushAll es).xmsgs = s.xmsgs := rfl
@[simp] theorem State.pushAll_lmsgs (es : List Event) : (s.pushAll es).lmsgs = s.lmsgs := rfl
@[simp] theorem State.pushAll_amoSeq (es : List Event) : (s.pushAll es).amoSeq = s.amoSeq := rfl
@[simp] theorem State.pushAll_seqOut (es : List Event) : (s.pushAll es).seqOut = s.seqOut := rfl
@[simp] theorem State.pushAll_sent (es : List Event) : (s.pushAll es).sent = s.sent := rfl
@[simp] theorem State.pushAll_replies (es : List Event) : (s.pushAll es).replies = s.replies := rfl
@[simp] theorem State.pushAll_linkDown (es : List Event) : (s.pushAll es).linkDown = s.linkDown := rfl
@[simp] theorem State.pushAll_asterism (es : List Event) : (s.pushAll es).asterism = s.asterism := rfl
@[simp] theorem State.pushAll_acl (es : List Event) : (s.pushAll es).acl = s.acl := rfl
@[simp] theorem State.pushAll_groups (es : List Event) : (s.pushAll es).groups = s.groups := rfl
@[simp] theorem State.pushAll_inbound (es : List Event) : (s.pushAll es).inbound = s.inbound := rfl
@[simp] theorem State.pushAll_eth (es : List Event) : (s.pushAll es).eth = s.eth := rfl
@[simp] theorem State.pushAll_stops (es : List Event) : (s.pushAll es).stops = s.stops := rfl
@[simp] theorem State.pushAll_sgtid (es : List Event) : (s.pushAll es).sgtid = s.sgtid := rfl
@[simp] theorem State.pushAll_sgNone (es : List Event) : (s.pushAll es).sgNone = s.sgNone := rfl
@[simp] theorem State.pushAll_dbuf (es : List Event) : (s.pushAll es).dbuf = s.dbuf := rfl
@[simp] theorem State.pushAll_dlen (es : List Event) : (s.pushAll es).dlen = s.dlen := rfl
@[simp] theorem State.pushAll_dbytes (es : List Event) : (s.pushAll es).dbytes = s.dbytes := rfl
@[simp] theorem State.pushAll_dstat (es : List Event) : (s.pushAll es).dstat = s.dstat := rfl
@[simp] theorem State.pushAll_dgtb (es : List Event) : (s.pushAll es).dgtb = s.dgtb := rfl
@[simp] theorem State.pushAll_replay (es : List Event) : (s.pushAll es).replay = s.replay := rfl
@[simp] theorem State.pushAll_nbase (es : List Event) : (s.pushAll es).nbase = s.nbase := rfl
@[simp] theorem State.pushAll_nsize (es : List Event) : (s.pushAll es).nsize = s.nsize := rfl
@[simp] theorem State.pushAll_ntail (es : List Event) : (s.pushAll es).ntail = s.ntail := rfl
@[simp] theorem State.pushAll_nhead (es : List Event) : (s.pushAll es).nhead = s.nhead := rfl
@[simp] theorem State.pushAll_nheld (es : List Event) : (s.pushAll es).nheld = s.nheld := rfl
@[simp] theorem State.pushAll_supCmd (es : List Event) : (s.pushAll es).supCmd = s.supCmd := rfl
@[simp] theorem State.pushAll_hlogs (es : List Event) : (s.pushAll es).hlogs = s.hlogs := rfl
@[simp] theorem State.pushAll_hinj (es : List Event) : (s.pushAll es).hinj = s.hinj := rfl
@[simp] theorem State.pushAll_weights (es : List Event) : (s.pushAll es).weights = s.weights := rfl
@[simp] theorem State.pushAll_fw (es : List Event) : (s.pushAll es).fw = s.fw := rfl
@[simp] theorem State.pushAll_fwImage (es : List Event) : (s.pushAll es).fwImage = s.fwImage := rfl
@[simp] theorem State.pushAll_migth (es : List Event) : (s.pushAll es).migth = s.migth := rfl
@[simp] theorem State.pushAll_agesh (es : List Event) : (s.pushAll es).agesh = s.agesh := rfl
@[simp] theorem State.pushAll_pcap (es : List Event) : (s.pushAll es).pcap = s.pcap := rfl
@[simp] theorem State.pushAll_rchkEn (es : List Event) : (s.pushAll es).rchkEn = s.rchkEn := rfl
@[simp] theorem State.pushAll_races (es : List Event) : (s.pushAll es).races = s.races := rfl
@[simp] theorem State.pushAll_time (es : List Event) : (s.pushAll es).time = s.time := rfl
@[simp] theorem State.pushAll_events (es : List Event) : (s.pushAll es).events = s.events ++ es := rfl
@[simp] theorem State.pushAll_turns (es : List Event) : (s.pushAll es).turns = s.turns := rfl
@[simp] theorem State.pushAll_cur (es : List Event) : (s.pushAll es).cur = s.cur := rfl
@[simp] theorem State.pushAll_selected (es : List Event) : (s.pushAll es).selected = s.selected := rfl
@[simp] theorem State.pushAll_spun (es : List Event) : (s.pushAll es).spun = s.spun := rfl
@[simp] theorem State.pushAll_stalled (es : List Event) : (s.pushAll es).stalled = s.stalled := rfl
@[simp] theorem State.pushAll_free (es : List Event) : (s.pushAll es).free = s.free := rfl
@[simp] theorem State.pushAll_nextId (es : List Event) : (s.pushAll es).nextId = s.nextId := rfl
@[simp] theorem State.pushAll_out (es : List Event) : (s.pushAll es).out = s.out := rfl

/-! `State.emit`. -/
@[simp] theorem State.emit_devcap (o : Output) : (s.emit o).devcap = s.devcap := rfl
@[simp] theorem State.emit_pkid (o : Output) : (s.emit o).pkid = s.pkid := rfl
@[simp] theorem State.emit_cores (o : Output) : (s.emit o).cores = s.cores := rfl
@[simp] theorem State.emit_dies (o : Output) : (s.emit o).dies = s.dies := rfl
@[simp] theorem State.emit_octets (o : Output) : (s.emit o).octets = s.octets := rfl
@[simp] theorem State.emit_mem (o : Output) : (s.emit o).mem = s.mem := rfl
@[simp] theorem State.emit_poison (o : Output) : (s.emit o).poison = s.poison := rfl
@[simp] theorem State.emit_dir (o : Output) : (s.emit o).dir = s.dir := rfl
@[simp] theorem State.emit_awaiting (o : Output) : (s.emit o).awaiting = s.awaiting := rfl
@[simp] theorem State.emit_tlb (o : Output) : (s.emit o).tlb = s.tlb := rfl
@[simp] theorem State.emit_faults (o : Output) : (s.emit o).faults = s.faults := rfl
@[simp] theorem State.emit_tags (o : Output) : (s.emit o).tags = s.tags := rfl
@[simp] theorem State.emit_migCount (o : Output) : (s.emit o).migCount = s.migCount := rfl
@[simp] theorem State.emit_moves (o : Output) : (s.emit o).moves = s.moves := rfl
@[simp] theorem State.emit_migPage (o : Output) : (s.emit o).migPage = s.migPage := rfl
@[simp] theorem State.emit_doms (o : Output) : (s.emit o).doms = s.doms := rfl
@[simp] theorem State.emit_wins (o : Output) : (s.emit o).wins = s.wins := rfl
@[simp] theorem State.emit_pendingLaunch (o : Output) : (s.emit o).pendingLaunch = s.pendingLaunch := rfl
@[simp] theorem State.emit_reservoir (o : Output) : (s.emit o).reservoir = s.reservoir := rfl
@[simp] theorem State.emit_debt (o : Output) : (s.emit o).debt = s.debt := rfl
@[simp] theorem State.emit_carried (o : Output) : (s.emit o).carried = s.carried := rfl
@[simp] theorem State.emit_barriers (o : Output) : (s.emit o).barriers = s.barriers := rfl
@[simp] theorem State.emit_exchs (o : Output) : (s.emit o).exchs = s.exchs := rfl
@[simp] theorem State.emit_xmsgs (o : Output) : (s.emit o).xmsgs = s.xmsgs := rfl
@[simp] theorem State.emit_lmsgs (o : Output) : (s.emit o).lmsgs = s.lmsgs := rfl
@[simp] theorem State.emit_amoSeq (o : Output) : (s.emit o).amoSeq = s.amoSeq := rfl
@[simp] theorem State.emit_seqOut (o : Output) : (s.emit o).seqOut = s.seqOut := rfl
@[simp] theorem State.emit_sent (o : Output) : (s.emit o).sent = s.sent := rfl
@[simp] theorem State.emit_replies (o : Output) : (s.emit o).replies = s.replies := rfl
@[simp] theorem State.emit_linkDown (o : Output) : (s.emit o).linkDown = s.linkDown := rfl
@[simp] theorem State.emit_asterism (o : Output) : (s.emit o).asterism = s.asterism := rfl
@[simp] theorem State.emit_acl (o : Output) : (s.emit o).acl = s.acl := rfl
@[simp] theorem State.emit_groups (o : Output) : (s.emit o).groups = s.groups := rfl
@[simp] theorem State.emit_inbound (o : Output) : (s.emit o).inbound = s.inbound := rfl
@[simp] theorem State.emit_eth (o : Output) : (s.emit o).eth = s.eth := rfl
@[simp] theorem State.emit_stops (o : Output) : (s.emit o).stops = s.stops := rfl
@[simp] theorem State.emit_sgtid (o : Output) : (s.emit o).sgtid = s.sgtid := rfl
@[simp] theorem State.emit_sgNone (o : Output) : (s.emit o).sgNone = s.sgNone := rfl
@[simp] theorem State.emit_dbuf (o : Output) : (s.emit o).dbuf = s.dbuf := rfl
@[simp] theorem State.emit_dlen (o : Output) : (s.emit o).dlen = s.dlen := rfl
@[simp] theorem State.emit_dbytes (o : Output) : (s.emit o).dbytes = s.dbytes := rfl
@[simp] theorem State.emit_dstat (o : Output) : (s.emit o).dstat = s.dstat := rfl
@[simp] theorem State.emit_dgtb (o : Output) : (s.emit o).dgtb = s.dgtb := rfl
@[simp] theorem State.emit_replay (o : Output) : (s.emit o).replay = s.replay := rfl
@[simp] theorem State.emit_nbase (o : Output) : (s.emit o).nbase = s.nbase := rfl
@[simp] theorem State.emit_nsize (o : Output) : (s.emit o).nsize = s.nsize := rfl
@[simp] theorem State.emit_ntail (o : Output) : (s.emit o).ntail = s.ntail := rfl
@[simp] theorem State.emit_nhead (o : Output) : (s.emit o).nhead = s.nhead := rfl
@[simp] theorem State.emit_nheld (o : Output) : (s.emit o).nheld = s.nheld := rfl
@[simp] theorem State.emit_supCmd (o : Output) : (s.emit o).supCmd = s.supCmd := rfl
@[simp] theorem State.emit_hlogs (o : Output) : (s.emit o).hlogs = s.hlogs := rfl
@[simp] theorem State.emit_hinj (o : Output) : (s.emit o).hinj = s.hinj := rfl
@[simp] theorem State.emit_weights (o : Output) : (s.emit o).weights = s.weights := rfl
@[simp] theorem State.emit_fw (o : Output) : (s.emit o).fw = s.fw := rfl
@[simp] theorem State.emit_fwImage (o : Output) : (s.emit o).fwImage = s.fwImage := rfl
@[simp] theorem State.emit_migth (o : Output) : (s.emit o).migth = s.migth := rfl
@[simp] theorem State.emit_agesh (o : Output) : (s.emit o).agesh = s.agesh := rfl
@[simp] theorem State.emit_pcap (o : Output) : (s.emit o).pcap = s.pcap := rfl
@[simp] theorem State.emit_rchkEn (o : Output) : (s.emit o).rchkEn = s.rchkEn := rfl
@[simp] theorem State.emit_races (o : Output) : (s.emit o).races = s.races := rfl
@[simp] theorem State.emit_time (o : Output) : (s.emit o).time = s.time := rfl
@[simp] theorem State.emit_events (o : Output) : (s.emit o).events = s.events := rfl
@[simp] theorem State.emit_turns (o : Output) : (s.emit o).turns = s.turns := rfl
@[simp] theorem State.emit_cur (o : Output) : (s.emit o).cur = s.cur := rfl
@[simp] theorem State.emit_selected (o : Output) : (s.emit o).selected = s.selected := rfl
@[simp] theorem State.emit_spun (o : Output) : (s.emit o).spun = s.spun := rfl
@[simp] theorem State.emit_stalled (o : Output) : (s.emit o).stalled = s.stalled := rfl
@[simp] theorem State.emit_free (o : Output) : (s.emit o).free = s.free := rfl
@[simp] theorem State.emit_nextId (o : Output) : (s.emit o).nextId = s.nextId := rfl
@[simp] theorem State.emit_out (o : Output) : (s.emit o).out = s.out ++ [o] := rfl

/-! The other updates are these. -/

@[simp] theorem State.updCtx_eq (c x : Nat) (f : Ctx → Ctx) : s.updCtx c x f = s.setCtx c x (f (s.ctx c x)) := rfl
@[simp] theorem State.updCore_eq (c : Nat) (f : Core → Core) : s.updCore c f = s.setCore c (f (s.core c)) := rfl
@[simp] theorem State.updDie_eq (d : Nat) (f : Die → Die) : s.updDie d f = s.setDie d (f (s.die d)) := rfl
@[simp] theorem State.setK_eq (k : Ctx) : s.setK k = s.setCtx s.cur.1 s.cur.2 k := rfl
@[simp] theorem State.updK_eq (f : Ctx → Ctx) : s.updK f = s.setCtx s.cur.1 s.cur.2 (f s.k) := rfl
@[simp] theorem State.wrK_eq (r : Reg) (v : Word) : s.wrK r v = s.setCtx s.cur.1 s.cur.2 (wr s.k r v) := rfl

/-! Parts by number after an update. -/

@[simp] theorem State.core_setCore_same (c : Nat) (k : Core) : (s.setCore c k).core c = k := by simp [State.core]
theorem State.core_setCore (c d : Nat) (k : Core) : (s.setCore c k).core d = if d = c then k else s.core d := by
  simp [State.core, Tbl.read_put]
theorem State.core_setCore_other {c d : Nat} (k : Core) (h : d ≠ c) : (s.setCore c k).core d = s.core d := by
  simp [State.core_setCore, h]
theorem State.core_setCtx (c x d : Nat) (k : Ctx) :
    (s.setCtx c x k).core d = if d = c then { s.core c with ctxs := Tbl.put (s.core c).ctxs x k } else s.core d := by
  simp [State.core, Tbl.read_put]
@[simp] theorem State.core_setCtx_same (c x : Nat) (k : Ctx) :
    (s.setCtx c x k).core c = { s.core c with ctxs := Tbl.put (s.core c).ctxs x k } := by simp [State.core_setCtx]
@[simp] theorem State.ctx_setCtx_same (c x : Nat) (k : Ctx) : (s.setCtx c x k).ctx c x = k := by simp [State.ctx]
theorem State.ctx_setCtx (c x d y : Nat) (k : Ctx) :
    (s.setCtx c x k).ctx d y = if d = c ∧ y = x then k else s.ctx d y := by
  by_cases h : d = c
  · subst h; by_cases hy : y = x <;> simp [State.ctx, Tbl.read_put, hy]
  · simp [State.ctx, State.core_setCtx, h]
theorem State.ctx_setCore (c d y : Nat) (k : Core) :
    (s.setCore c k).ctx d y = if d = c then Tbl.read k.ctxs y {} else s.ctx d y := by
  by_cases h : d = c
  · subst h; simp [State.ctx]
  · simp [State.ctx, State.core_setCore, h]
@[simp] theorem State.die_setDie_same (d : Nat) (k : Die) : (s.setDie d k).die d = k := by simp [State.die]
theorem State.die_setDie (d e : Nat) (k : Die) : (s.setDie d k).die e = if e = d then k else s.die e := by
  simp [State.die, Tbl.read_put]
@[simp] theorem State.dom_updDom_same (g : Nat) (f : Dom → Dom) : (s.updDom g f).dom g = f (s.dom g) := by simp [State.dom]
theorem State.dom_updDom (g h : Nat) (f : Dom → Dom) : (s.updDom g f).dom h = if h = g then f (s.dom g) else s.dom h := by
  simp [State.dom, Tbl.read_put]
theorem State.dom?_updDom (g h : Nat) (f : Dom → Dom) :
    (s.updDom g f).dom? h = if h = g then some (f (s.dom g)) else s.dom? h := by
  simp [State.dom?, Tbl.find_put]

/-! Parts that an update does not reach. -/

@[simp] theorem State.die_setCore (c : Nat) (k : Core) (j : Nat) : (s.setCore c k).die j = s.die j := rfl
@[simp] theorem State.dom_setCore (c : Nat) (k : Core) (j : Nat) : (s.setCore c k).dom j = s.dom j := rfl
@[simp] theorem State.dom?_setCore (c : Nat) (k : Core) (j : Nat) : (s.setCore c k).dom? j = s.dom? j := rfl
@[simp] theorem State.die_setCtx (c x : Nat) (k : Ctx) (j : Nat) : (s.setCtx c x k).die j = s.die j := rfl
@[simp] theorem State.dom_setCtx (c x : Nat) (k : Ctx) (j : Nat) : (s.setCtx c x k).dom j = s.dom j := rfl
@[simp] theorem State.dom?_setCtx (c x : Nat) (k : Ctx) (j : Nat) : (s.setCtx c x k).dom? j = s.dom? j := rfl
@[simp] theorem State.core_setDie (d : Nat) (k : Die) (j : Nat) : (s.setDie d k).core j = s.core j := rfl
@[simp] theorem State.ctx_setDie (d : Nat) (k : Die) (j y : Nat) : (s.setDie d k).ctx j y = s.ctx j y := rfl
@[simp] theorem State.dom_setDie (d : Nat) (k : Die) (j : Nat) : (s.setDie d k).dom j = s.dom j := rfl
@[simp] theorem State.dom?_setDie (d : Nat) (k : Die) (j : Nat) : (s.setDie d k).dom? j = s.dom? j := rfl
@[simp] theorem State.k_setDie (d : Nat) (k : Die) : (s.setDie d k).k = s.k := rfl
@[simp] theorem State.core_updDom (g : Nat) (f : Dom → Dom) (j : Nat) : (s.updDom g f).core j = s.core j := rfl
@[simp] theorem State.ctx_updDom (g : Nat) (f : Dom → Dom) (j y : Nat) : (s.updDom g f).ctx j y = s.ctx j y := rfl
@[simp] theorem State.die_updDom (g : Nat) (f : Dom → Dom) (j : Nat) : (s.updDom g f).die j = s.die j := rfl
@[simp] theorem State.k_updDom (g : Nat) (f : Dom → Dom) : (s.updDom g f).k = s.k := rfl
@[simp] theorem State.core_push (e : Event) (j : Nat) : (s.push e).core j = s.core j := rfl
@[simp] theorem State.ctx_push (e : Event) (j y : Nat) : (s.push e).ctx j y = s.ctx j y := rfl
@[simp] theorem State.die_push (e : Event) (j : Nat) : (s.push e).die j = s.die j := rfl
@[simp] theorem State.dom_push (e : Event) (j : Nat) : (s.push e).dom j = s.dom j := rfl
@[simp] theorem State.dom?_push (e : Event) (j : Nat) : (s.push e).dom? j = s.dom? j := rfl
@[simp] theorem State.k_push (e : Event) : (s.push e).k = s.k := rfl
@[simp] theorem State.core_pushAll (es : List Event) (j : Nat) : (s.pushAll es).core j = s.core j := rfl
@[simp] theorem State.ctx_pushAll (es : List Event) (j y : Nat) : (s.pushAll es).ctx j y = s.ctx j y := rfl
@[simp] theorem State.die_pushAll (es : List Event) (j : Nat) : (s.pushAll es).die j = s.die j := rfl
@[simp] theorem State.dom_pushAll (es : List Event) (j : Nat) : (s.pushAll es).dom j = s.dom j := rfl
@[simp] theorem State.dom?_pushAll (es : List Event) (j : Nat) : (s.pushAll es).dom? j = s.dom? j := rfl
@[simp] theorem State.k_pushAll (es : List Event) : (s.pushAll es).k = s.k := rfl
@[simp] theorem State.core_emit (o : Output) (j : Nat) : (s.emit o).core j = s.core j := rfl
@[simp] theorem State.ctx_emit (o : Output) (j y : Nat) : (s.emit o).ctx j y = s.ctx j y := rfl
@[simp] theorem State.die_emit (o : Output) (j : Nat) : (s.emit o).die j = s.die j := rfl
@[simp] theorem State.dom_emit (o : Output) (j : Nat) : (s.emit o).dom j = s.dom j := rfl
@[simp] theorem State.dom?_emit (o : Output) (j : Nat) : (s.emit o).dom? j = s.dom? j := rfl
@[simp] theorem State.k_emit (o : Output) : (s.emit o).k = s.k := rfl
@[simp] theorem State.k_setCtx_cur (k : Ctx) : (s.setCtx s.cur.1 s.cur.2 k).k = k := by simp [State.k]

end Sys2Proof.Machine
end

