-- ==== Sys2Proof/Laws/Ops.lean ====
section
/-!
SUPPORT. What the shared operations of Machine/Ops.lean do: one lemma for each, which says everything that it can change.
-/
set_option linter.all false
namespace Sys2Proof.Machine
open Sys2Proof

/-! Registers and guards. -/

@[simp] theorem rd_zero (k : Ctx) : rd k 0#5 = 0#64 := by simp [rd]

theorem reg_toNat_inj {a b : Reg} : a.toNat = b.toNat ↔ a = b := ⟨BitVec.eq_of_toNat_eq, fun h => by rw [h]⟩

/-- A register read after a write. -/
theorem rd_wr (k : Ctx) (d r : Reg) (v : Word) : rd (wr k d v) r = if r = d ∧ ¬ d = 0#5 then v else rd k r := by
  by_cases hd : d = 0#5
  · simp [wr, hd]
  · by_cases hr : r = 0#5
    · have : ¬ 0#5 = d := Ne.symm hd
      simp [hr, this]
    · by_cases h : r = d
      · subst h; simp [wr, rd, hr]
      · have : r.toNat ≠ d.toNat := fun e => h (reg_toNat_inj.1 e)
        simp [wr, rd, hd, hr, h, Tbl.read_put_other _ _ _ this]

@[simp] theorem rd_wr_same (k : Ctx) (d : Reg) (v : Word) : rd (wr k d v) d = if d = 0#5 then 0#64 else v := by
  by_cases hd : d = 0#5
  · subst hd; simp
  · simp [rd_wr, hd]

theorem rd_wr_other (k : Ctx) {d r : Reg} (v : Word) (h : r ≠ d) : rd (wr k d v) r = rd k r := by simp [rd_wr, h]

@[simp] theorem rd_readReplies (k : Ctx) (rs : List Reg) (r : Reg) : rd (readReplies k rs) r = rd k r := by
  unfold readReplies; split <;> rfl

/-- A guard read after a write (R127). -/
theorem guardOf_setGuard (k : Ctx) (q r : QIx) (v : Option Bool) :
    guardOf (setGuard k q v) r = if r = q ∧ ¬ q = 0#3 then v else guardOf k r := by
  by_cases hq : q = 0#3
  · simp [setGuard, hq]
  · by_cases hr : r = 0#3
    · have : ¬ 0#3 = q := Ne.symm hq
      simp [hr, guardOf, this]
    · by_cases h : r = q
      · subst h; cases v <;> simp [setGuard, guardOf, hr]
      · have hn : r.toNat ≠ q.toNat := fun e => h (BitVec.eq_of_toNat_eq e)
        cases v <;> simp [setGuard, guardOf, hq, hr, h, Tbl.find_put_other _ _ hn, Tbl.find_del_other _ hn]

theorem contextKept_refl (k : Ctx) : ContextKept k k := rfl
theorem contextKept_trans {a b c : Ctx} (h : ContextKept a b) (g : ContextKept b c) : ContextKept a c := by
  unfold ContextKept at *
  rw [← g] at h
  exact h
theorem contextKept_wr (k : Ctx) (d : Reg) (v : Word) : ContextKept k (wr k d v) := by unfold wr; split <;> rfl
theorem contextKept_readReplies (k : Ctx) (rs : List Reg) : ContextKept k (readReplies k rs) := by
  unfold readReplies; split <;> rfl
theorem contextKept_advance (k : Ctx) (len : Nat) : ContextKept k (advance k len) := by
  unfold advance; split
  · rfl
  · rfl
  · split <;> rfl

/-! What leaves the package as it was. -/

theorem packageKept_refl (s : State) : PackageKept s s := ⟨rfl, fun _ => rfl, fun _ _ _ => rfl, fun _ => rfl⟩

theorem PackageKept.cur {s t : State} (h : PackageKept s t) : t.cur = s.cur := by
  have e := congrArg State.cur h.1; exact e
theorem PackageKept.mem {s t : State} (h : PackageKept s t) : t.mem = s.mem := by
  have e := congrArg State.mem h.1; exact e
theorem PackageKept.dies {s t : State} (h : PackageKept s t) : t.dies = s.dies := by
  have e := congrArg State.dies h.1; exact e

theorem packageKept_trans {s t u : State} (h : PackageKept s t) (g : PackageKept t u) : PackageKept s u := by
  have hc := h.cur
  obtain ⟨h1, h2, h3, h4⟩ := h
  obtain ⟨g1, g2, g3, g4⟩ := g
  refine ⟨?_, fun c => ?_, fun c x hx => ?_, fun d => ?_⟩
  · rw [← g1] at h1; exact h1
  · have a := h2 c
    have b := g2 c
    unfold CoreKept at *
    rw [← b] at a; exact a
  · rw [g3 c x (by rw [hc]; exact hx), h3 c x hx]
  · have a := h4 d
    rw [← g4 d] at a; exact a

/-- No byte of any memory changes where the package is kept. -/
theorem PackageKept.bytes {s t : State} (h : PackageKept s t) : BytesKept s t := by
  refine ⟨fun a => by rw [h.mem], fun d => by simp [State.die, h.dies], fun c a => ?_⟩
  have := congrArg Core.mem (h.2.1 c)
  simp only at this
  rw [this]

theorem packageKept_setCtx_cur (s : State) (k : Ctx) : PackageKept s (s.setCtx s.cur.1 s.cur.2 k) := by
  refine ⟨rfl, fun c => ?_, fun c x h => ?_, fun _ => rfl⟩
  · rw [State.core_setCtx]
    split
    · subst_vars; rfl
    · rfl
  · rw [State.ctx_setCtx, if_neg]
    intro e
    exact h (Prod.ext e.1 e.2)

theorem packageKept_dropFetch (s : State) (c : Nat) : PackageKept s (dropFetch s c) := by
  have hk : ∀ d, (dropFetch s c).core d = if d = c then { s.core c with fetch := none } else s.core d := by
    intro d; simp [dropFetch, State.core_setCore]
  refine ⟨rfl, fun d => ?_, fun d x _ => ?_, fun _ => rfl⟩
  · rw [hk]; split
    · subst_vars; rfl
    · rfl
  · rw [State.ctx, hk]; split
    · subst_vars; rfl
    · rfl

theorem k_dropFetch (s : State) (c : Nat) : (dropFetch s c).k = s.k := by
  simp only [dropFetch, State.updCore_eq, State.k, State.setCore_cur, State.ctx_setCore]
  split
  · rename_i h; rw [← h]; rfl
  · rfl

theorem packageKept_charge (s : State) (g w n : Nat) : PackageKept s (charge s g w n) := by
  unfold charge
  cases hd : s.dom? g with
  | none => exact packageKept_refl s
  | some d =>
    have hr : s.dom g = d := by
      simp only [State.dom?] at hd
      simp [State.dom, Tbl.read, hd]
    have key : ∀ m, PackageKept s (s.updDom g fun d => { d with meter := m }) := fun m =>
      ⟨rfl, fun _ => rfl, fun _ _ _ => rfl, fun j => by
        rw [State.dom_updDom]; split
        · subst_vars; rfl
        · rfl⟩
    dsimp only
    split
    · split
      · exact packageKept_trans (key _) ⟨rfl, fun _ => rfl, fun _ _ _ => rfl, fun _ => rfl⟩
      · exact key _
    · exact key _

theorem cores_charge (s : State) (g w n : Nat) : (charge s g w n).cores = s.cores := by
  unfold charge; split
  · rfl
  · dsimp only; split
    · split <;> rfl
    · rfl

theorem k_charge (s : State) (g w n : Nat) : (charge s g w n).k = s.k := by
  have h := (packageKept_charge s g w n).cur
  simp [State.k, State.ctx, State.core, h, cores_charge]

theorem core_countEv (s : State) (c x ev n d : Nat) :
    ∃ p, (countEv s c x ev n).core d = { s.core d with pmc := p } ∧ { countEv s c x ev n with cores := s.cores } = s := by
  unfold countEv
  dsimp only
  split
  · exact ⟨_, rfl, rfl⟩
  · split
    · exact ⟨_, rfl, rfl⟩
    · rw [State.core_setCore]
      by_cases h : d = c
      · subst h; exact ⟨_, by simp; rfl, rfl⟩
      · exact ⟨(s.core d).pmc, by simp [h], rfl⟩

theorem packageKept_countEv (s : State) (c x ev n : Nat) : PackageKept s (countEv s c x ev n) := by
  obtain ⟨-, -, h⟩ := core_countEv s c x ev n 0
  refine ⟨?_, fun d => ?_, fun d y _ => ?_, fun d => ?_⟩
  · have := congrArg (fun z : State => { z with doms := s.doms, events := s.events }) h; exact this
  · obtain ⟨p, hp, -⟩ := core_countEv s c x ev n d
    rw [CoreKept, hp]
  · obtain ⟨p, hp, -⟩ := core_countEv s c x ev n d
    rw [State.ctx, hp]; rfl
  · have := congrArg State.doms h
    simp only at this
    rw [State.dom, this]; rfl

theorem k_countEv (s : State) (c x ev n : Nat) : (countEv s c x ev n).k = s.k := by
  obtain ⟨p, hp, -⟩ := core_countEv s c x ev n s.cur.1
  rw [State.k, (packageKept_countEv s c x ev n).cur, State.ctx, hp]; rfl

/-! How an instruction ends. -/

/-- What a retirement leaves of the issuing context: the PC goes on, and what holds for one instruction is cleared (R138, R291, R374,
R378). -/
def retired (k : Ctx) (len : Nat) : Ctx :=
  let k := advance k len
  { k with oneDefault := false, xwait := none, first := false, pass := false, guardWait := false, stepping := false, dhalt := k.dhalt || k.stepping }

/-- `finish` of a retirement: everything it does. -/
theorem finish_ret (len : Nat) (d : Option Reg) (s : State) :
    (finish len d (.ret s)).k = retired s.k len ∧ PackageKept s (finish len d (.ret s)) := by
  have one : PackageKept s (if loopTakes s.k then dropFetch s s.cur.1 else s) := by
    split
    · exact packageKept_dropFetch s _
    · exact packageKept_refl s
  have onek : (if loopTakes s.k then dropFetch s s.cur.1 else s).k = s.k := by
    split
    · exact k_dropFetch s _
    · rfl
  generalize hu : (if loopTakes s.k then dropFetch s s.cur.1 else s) = u at one onek
  have two := packageKept_trans one (packageKept_charge u (domOf u.k) 0 1)
  have twok := k_charge u (domOf u.k) 0 1
  generalize hv : charge u (domOf u.k) 0 1 = v at two twok
  have hvc : v.cur = s.cur := two.cur
  have three := packageKept_trans two (packageKept_setCtx_cur v (advance v.k len))
  have four := packageKept_trans three (packageKept_countEv _ s.cur.1 s.cur.2 2 1)
  have fourk := k_countEv (v.setCtx v.cur.1 v.cur.2 (advance v.k len)) s.cur.1 s.cur.2 2 1
  generalize hw : countEv (v.setCtx v.cur.1 v.cur.2 (advance v.k len)) s.cur.1 s.cur.2 2 1 = w at four fourk
  have hwc : w.cur = s.cur := four.cur
  have e : finish len d (.ret s) = w.setCtx w.cur.1 w.cur.2
      { w.k with oneDefault := false, xwait := none, first := false, pass := false, guardWait := false, stepping := false, dhalt := w.k.dhalt || w.k.stepping } := by
    show afterIssue (countEv ((charge (if loopTakes s.k then dropFetch s s.cur.1 else s)
      (domOf (if loopTakes s.k then dropFetch s s.cur.1 else s).k) 0 1).updK fun k => advance k len)
      s.cur.1 s.cur.2 2 1) s.cur.1 s.cur.2 = _
    rw [hu, hv, State.updK_eq, hw, afterIssue, State.updCtx_eq, ← hwc]
    rfl
  refine ⟨?_, e ▸ packageKept_trans four (packageKept_setCtx_cur w _)⟩
  rw [e, State.k_setCtx_cur, fourk, State.k_setCtx_cur, twok, onek]
  rfl

theorem contextKept_retired (k : Ctx) (len : Nat) : ContextKept k (retired k len) := by
  have h := contextKept_advance k len
  exact contextKept_trans h rfl

theorem rd_retired (k : Ctx) (len : Nat) (r : Reg) : rd (retired k len) r = rd k r := by
  unfold retired advance
  split
  · rfl
  · rfl
  · split <;> rfl

theorem pc_retired (k : Ctx) (len : Nat) : (retired k len).pc = nextPc k len := by
  unfold retired advance nextPc
  rcases hb : k.back with _ | ⟨⟨p, q⟩, rest⟩
  · cases hl : k.loop with
    | none => rfl
    | some l =>
      by_cases h1 : l.slot ≤ 1
      · simp [h1, Nat.not_lt.2 h1]
      · cases h2 : l.taken <;> simp [h1, h2, Nat.lt_of_not_le h1]
  · rfl

/-- `finish` of a transfer: everything it does. -/
theorem finish_goto (len : Nat) (d : Option Reg) (s : State) (p : Nat) :
    (finish len d (.goto s p)).k.pc = p ∧ (∀ r, rd (finish len d (.goto s p)).k r = rd s.k r)
      ∧ ContextKept s.k (finish len d (.goto s p)).k ∧ PackageKept s (finish len d (.goto s p)) := by
  have one := packageKept_dropFetch s s.cur.1
  have onek := k_dropFetch s s.cur.1
  generalize hu : dropFetch s s.cur.1 = u at one onek
  have two := packageKept_trans one (packageKept_charge u (domOf s.k) 0 1)
  have twok := k_charge u (domOf s.k) 0 1
  generalize hv : charge u (domOf s.k) 0 1 = v at two twok
  have hvc : v.cur = s.cur := two.cur
  have three := packageKept_trans two (packageKept_setCtx_cur v { v.k with pc := p, loop := none, back := v.k.back.drop 1 })
  have four := packageKept_trans three (packageKept_countEv _ s.cur.1 s.cur.2 2 1)
  have fourk := k_countEv (v.setCtx v.cur.1 v.cur.2 { v.k with pc := p, loop := none, back := v.k.back.drop 1 }) s.cur.1 s.cur.2 2 1
  generalize hw : countEv (v.setCtx v.cur.1 v.cur.2 { v.k with pc := p, loop := none, back := v.k.back.drop 1 }) s.cur.1 s.cur.2 2 1 = w at four fourk
  have hwc : w.cur = s.cur := four.cur
  have e : finish len d (.goto s p) = w.setCtx w.cur.1 w.cur.2
      { w.k with oneDefault := false, xwait := none, first := false, pass := false, guardWait := false, stepping := false, dhalt := w.k.dhalt || w.k.stepping } := by
    show afterIssue (countEv ((charge (dropFetch s s.cur.1) (domOf s.k) 0 1).updK
      fun k => { k with pc := p, loop := none, back := k.back.drop 1 }) s.cur.1 s.cur.2 2 1) s.cur.1 s.cur.2 = _
    rw [hu, hv, State.updK_eq, hw, afterIssue, State.updCtx_eq, ← hwc]
    rfl
  have ek : (finish len d (.goto s p)).k = { w.k with oneDefault := false, xwait := none, first := false, pass := false, guardWait := false, stepping := false, dhalt := w.k.dhalt || w.k.stepping } := by
    rw [e, State.k_setCtx_cur]
  rw [State.k_setCtx_cur, twok, onek] at fourk
  refine ⟨by rw [ek, fourk], fun r => by rw [ek, fourk]; rfl, by rw [ek, fourk], e ▸ packageKept_trans four (packageKept_setCtx_cur w _)⟩

/-- An instruction whose registers have no reply outstanding is issued at once. -/
theorem issue_settled {len : Nat} {d : Option Reg} {srcs : List Reg} {body : State → Res} {s : State}
    (h : Settled s (d.toList ++ srcs)) :
    issue len d srcs body s = finish len d (atIssue s srcs d (body (s.updK fun k => readReplies k srcs))) := by
  have : (d.toList ++ srcs).any (busyReg (opsOf s s.cur.1 s.cur.2)) = false := by
    rw [List.any_eq_false]
    intro r hr
    simp [h r hr]
  simp [issue, this]

/-- Reading reply registers touches the issuing context's region number alone. -/
theorem issued_kept (s : State) (srcs : List Reg) :
    PackageKept s (s.updK fun k => readReplies k srcs) ∧ (s.updK fun k => readReplies k srcs).k = readReplies s.k srcs := by
  rw [State.updK_eq]
  exact ⟨packageKept_setCtx_cur s _, State.k_setCtx_cur s _⟩

theorem nextPc_readReplies (k : Ctx) (srcs : List Reg) (len : Nat) : nextPc (readReplies k srcs) len = nextPc k len := by
  unfold readReplies; split <;> rfl

theorem nextPc_wr (k : Ctx) (d : Reg) (v : Word) (len : Nat) : nextPc (wr k d v) len = nextPc k len := by
  unfold wr; split <;> rfl

/-- What issuing adds to a retirement: the register bytes moved are charged. -/
theorem atIssue_ret (s : State) (srcs : List Reg) (d : Option Reg) (t : State) :
    ∃ u, atIssue s srcs d (.ret t) = .ret u ∧ PackageKept t u ∧ u.k = t.k :=
  ⟨_, rfl, packageKept_charge .., k_charge ..⟩

/-- An issue whose body writes one register and retires. -/
theorem issue_writes {len : Nat} {d : Reg} {srcs : List Reg} {body : State → Res} {s : State} {v : Word}
    (h : Settled s (d :: srcs))
    (hb : body (s.updK fun k => readReplies k srcs) = .ret ((s.updK fun k => readReplies k srcs).wrK d v)) :
    Writes len d v s (issue len (some d) srcs body s) := by
  have hi := issue_settled (len := len) (d := some d) (body := body) h
  rw [hi, hb]
  obtain ⟨k1, kk⟩ := issued_kept s srcs
  generalize (s.updK fun k => readReplies k srcs) = u at k1 kk
  obtain ⟨w, hw, w1, w2⟩ := atIssue_ret s srcs (some d) (u.wrK d v)
  rw [hw]
  rw [State.wrK_eq] at w1 w2
  rw [State.k_setCtx_cur] at w2
  have k2 := packageKept_trans (packageKept_trans k1 (packageKept_setCtx_cur u (wr u.k d v))) w1
  obtain ⟨f1, f2⟩ := finish_ret len (some d) w
  rw [w2] at f1
  refine ⟨?_, fun r hr => ?_, ?_, ?_, packageKept_trans k2 f2⟩
  · rw [f1, rd_retired, rd_wr_same]; rfl
  · simp at hr
    rw [f1, rd_retired, rd_wr_other _ _ hr, kk, rd_readReplies]
  · rw [f1, kk]
    exact contextKept_trans (contextKept_trans (contextKept_readReplies s.k srcs) (contextKept_wr _ d v)) (contextKept_retired _ len)
  · rw [f1, pc_retired, nextPc_wr, kk, nextPc_readReplies]

/-- An issue whose body changes nothing and retires. -/
theorem issue_retires {len : Nat} {d : Option Reg} {srcs : List Reg} {body : State → Res} {s : State}
    (h : Settled s (d.toList ++ srcs))
    (hb : body (s.updK fun k => readReplies k srcs) = .ret (s.updK fun k => readReplies k srcs)) :
    RegsKept s (issue len d srcs body s) [] ∧ ContextKept s.k (issue len d srcs body s).k ∧ Retires len s (issue len d srcs body s) := by
  rw [issue_settled h, hb]
  obtain ⟨k1, kk⟩ := issued_kept s srcs
  generalize (s.updK fun k => readReplies k srcs) = u at k1 kk
  obtain ⟨w, hw, w1, w2⟩ := atIssue_ret s srcs d u
  rw [hw]
  obtain ⟨f1, f2⟩ := finish_ret len d w
  rw [w2, kk] at f1
  refine ⟨fun r _ => ?_, ?_, ?_, packageKept_trans (packageKept_trans k1 w1) f2⟩
  · rw [f1, rd_retired, rd_readReplies]
  · rw [f1]; exact contextKept_trans (contextKept_readReplies s.k srcs) (contextKept_retired _ len)
  · rw [f1, pc_retired, nextPc_readReplies]

/-! Parking. -/

/-- What a park leaves of its context. -/
def parkedCtx (k : Ctx) (kind : ParkKind) (p : Stop) (epc : Nat) (eng : Bool) (reix : Nat) : Ctx :=
  { k with
    status := .parked, park := some kind, parkPage := p.page, estat := estatAt k eng true, epc := BitVec.ofNat 64 epc
    ecause := BitVec.ofNat 64 p.cause.code, eaddr := p.eaddr, einfo := p.einfo, reix := BitVec.ofNat 64 reix }

/-- The cores, the memory, the dies and the issuing context are the same. -/
def SameParts (s t : State) : Prop := t.cores = s.cores ∧ t.cur = s.cur ∧ t.mem = s.mem ∧ t.dies = s.dies

theorem SameParts.trans {s t u : State} (h : SameParts s t) (g : SameParts t u) : SameParts s u :=
  ⟨g.1.trans h.1, g.2.1.trans h.2.1, g.2.2.1.trans h.2.2.1, g.2.2.2.trans h.2.2.2⟩

theorem sameParts_pushOnce (s : State) (e : Event) : SameParts s (s.pushOnce e) := by
  unfold State.pushOnce; split <;> exact ⟨rfl, rfl, rfl, rfl⟩

theorem sameParts_notify (s : State) (kind g : Nat) (w : Word) (m : Option SMsg) : SameParts s (notify s kind g w m) := by
  unfold notify notifyRec
  exact SameParts.trans (t := { s with nheld := _ }) ⟨rfl, rfl, rfl, rfl⟩ (sameParts_pushOnce _ _)

theorem sameParts_toSuper (s : State) (g : Nat) (m : SMsg) : SameParts s (toSuper s g m) := ⟨rfl, rfl, rfl, rfl⟩

theorem SameParts.core {s t : State} (h : SameParts s t) (c : Nat) : t.core c = s.core c := by simp [State.core, h.1]
theorem SameParts.ctx {s t : State} (h : SameParts s t) (c x : Nat) : t.ctx c x = s.ctx c x := by simp [State.ctx, h.core]
theorem SameParts.k {s t : State} (h : SameParts s t) : t.k = s.k := by simp [State.k, h.2.1, h.ctx]

/-- `parkTold` changes the domain's freeze and messages and the host's records only. -/
theorem sameParts_parkTold (s : State) (g : Nat) (m : SMsg) (sup joined : Bool) : SameParts s (parkTold s g m sup joined) := by
  have one : SameParts s ((notify s 4 g 0 (some m)).updDom g fun d => { d with frozen := true, hostFreeze := !d.frozen }) :=
    (sameParts_notify s 4 g 0 (some m)).trans ⟨rfl, rfl, rfl, rfl⟩
  unfold parkTold
  dsimp only
  generalize (notify s 4 g 0 (some m)).updDom g (fun d => { d with frozen := true, hostFreeze := !d.frozen }) = v at one ⊢
  cases sup
  · cases joined
    · exact sameParts_toSuper s g m
    · exact ⟨rfl, rfl, rfl, rfl⟩
  · simp only [if_true]
    split
    · exact one
    · exact one.trans (sameParts_pushOnce _ _)

/-- `parkAt`: the context is parked, and of the rest only the fault table, the domain's messages and the host's records change. -/
theorem parkAt_parts (s : State) (c x : Nat) (kind : ParkKind) (p : Stop) (epc : Nat) (eng : Bool) (reix : Nat) :
    SameParts (s.setCtx c x (parkedCtx (s.ctx c x) kind p epc eng reix)) (parkAt s c x kind p epc eng reix) := by
  unfold parkAt
  dsimp only
  refine SameParts.trans ?_ (sameParts_parkTold _ _ _ _ _)
  change SameParts (s.setCtx c x (parkedCtx (s.ctx c x) kind p epc eng reix)) _
  unfold parkedCtx
  cases p.page with
  | none => exact ⟨rfl, rfl, rfl, rfl⟩
  | some pg => dsimp only; split <;> exact ⟨rfl, rfl, rfl, rfl⟩

/-- What a park of the issuing context changes, seen from a state that differs from the one before by a kept package. -/
theorem parkAt_parks {s u : State} {kind : ParkKind} {p : Stop} {reix : Nat} (h : PackageKept s u) (hk : ContextKept s.k u.k)
    (hr : RegsKept s u []) (hpc : u.k.pc = s.k.pc) : Parks p s (parkAt u u.cur.1 u.cur.2 kind p u.k.pc false reix) := by
  have e := parkAt_parts u u.cur.1 u.cur.2 kind p u.k.pc false reix
  generalize parkAt u u.cur.1 u.cur.2 kind p u.k.pc false reix = t at e
  have two := packageKept_trans h (packageKept_setCtx_cur u (parkedCtx (u.ctx u.cur.1 u.cur.2) kind p u.k.pc false reix))
  have ek : t.k = parkedCtx u.k kind p u.k.pc false reix := by rw [e.k, State.k_setCtx_cur]; rfl
  have hg : u.k.guards = s.k.guards := by have := congrArg Ctx.guards hk; exact this
  refine ⟨by rw [ek]; rfl, by rw [ek]; exact hpc, by rw [ek, hpc]; rfl, by rw [ek]; rfl, by rw [ek]; rfl, by rw [ek]; rfl, ?_, ?_, ?_, ?_, ?_⟩
  · rw [ek]
    have hh := congrArg (fun k : Ctx => (k.handles, k.frames, k.depth, k.wp, k.lvstep, k.acc, k.matCls, k.nbv, k.events,
      [k.fpc, k.widl, k.supv, k.tvec, k.wins])) hk
    exact hh
  · intro r hr'; rw [ek]; exact hr r hr'
  · intro q _; rw [ek]; simp only [guardOf, parkedCtx, hg]
  · intro c x hx; rw [e.ctx]; exact two.2.2.1 c x hx
  · obtain ⟨b1, b2, b3⟩ := two.bytes
    exact ⟨fun a => by rw [e.2.2.1]; exact b1 a, fun d => by rw [State.die, e.2.2.2]; exact b2 d, fun c a => by rw [e.core]; exact b3 c a⟩

/-- A precise fault that names no page parks the firing. -/
theorem issue_parks {len : Nat} {d : Option Reg} {srcs : List Reg} {body : State → Res} {s : State} {p : Stop}
    (h : Settled s (d.toList ++ srcs)) (hp : p.page = none)
    (hb : body (s.updK fun k => readReplies k srcs) = .fault p (s.updK fun k => readReplies k srcs)) :
    Parks p s (issue len d srcs body s) := by
  rw [issue_settled h, hb]
  obtain ⟨k1, kk⟩ := issued_kept s srcs
  show Parks p s (finish len d (.fault p ((s.updK fun k => readReplies k srcs).updK fun k => { k with region := s.k.region })))
  generalize (s.updK fun k => readReplies k srcs) = v at k1 kk
  have k3 := packageKept_trans k1 (packageKept_setCtx_cur v { v.k with region := s.k.region })
  have kk3 : (v.updK fun k => { k with region := s.k.region }).k = { readReplies s.k srcs with region := s.k.region } := by
    rw [State.updK_eq, State.k_setCtx_cur, kk]
  rw [← State.updK_eq v fun k => { k with region := s.k.region }] at k3
  generalize (v.updK fun k => { k with region := s.k.region }) = u at k3 kk3
  have nf : faultsFull u (domOf u.k) p = false := by simp [faultsFull, hp]
  have e : finish len d (.fault p u) = parkAt (u.setCtx u.cur.1 u.cur.2 { u.k with stepping := false, oneDefault := false })
      u.cur.1 u.cur.2 (if p.cause = .fpx then .fpxScalar d len else .precise d len) p u.k.pc false 0 := by
    show (if faultsFull u (domOf u.k) p then _ else _) = _
    rw [nf]; rfl
  rw [e]
  have one := packageKept_trans k3 (packageKept_setCtx_cur u { u.k with stepping := false, oneDefault := false })
  have wk : (u.setCtx u.cur.1 u.cur.2 { u.k with stepping := false, oneDefault := false }).k = { u.k with stepping := false, oneDefault := false } :=
    State.k_setCtx_cur u _
  have hpc : u.k.pc = s.k.pc := by rw [kk3]; unfold readReplies; split <;> rfl
  have := parkAt_parks (p := p) (reix := 0) (kind := if p.cause = .fpx then .fpxScalar d len else .precise d len) one
    (by rw [wk, kk3]; exact contextKept_trans (contextKept_readReplies s.k srcs) rfl)
    (by intro r _; rw [wk, kk3]; exact rd_readReplies s.k srcs r) (by rw [wk]; exact hpc)
  rw [wk] at this
  exact this

end Sys2Proof.Machine
end

