-- ==== Sys2Proof/Laws/PerInstr.lean ====
section
/-!
SUPPORT. For every constructor of Instr: its words are as many as the LEN bits of its first word say (R9), and a unit's step has none.
-/
set_option linter.all false
namespace Sys2Proof.Laws.Coded
open Sys2Proof

/-- An instruction's length in words is what the LEN bits of its first word say; a unit's step has no words. -/
def Statement (i : Instr) : Prop := encode i = [] ∨ (encode i).length = lenWords ((encode i).headD 0 % 4)

theorem wA_len (maj f x b a d : Nat) : wA maj f x b a d % 4 = 0 := by unfold wA; omega
theorem wI_len (maj len i a d : Nat) : wI maj len i a d % 4 = len % 4 := by unfold wI; omega
theorem wM_len (maj o z a d : Nat) : wM maj o z a d % 4 = 0 := by unfold wM; omega
theorem wF_len (fn : Nat) (x : FFmt) (rm b a d : Nat) : wF fn x rm b a d % 4 = 0 := wA_len ..
theorem one {w : Nat} (h : w % 4 = 0) : [w].length = lenWords ([w].headD 0 % 4) := by simp [h, lenWords]
theorem lit {w : Nat} (h : w % 4 = 1) (v : Word) : (w :: litWords v).length = lenWords ((w :: litWords v).headD 0 % 4) := by
  simp [h, litWords, lenWords]
theorem three {w v u : Nat} (h : w % 4 = 2) : [w, v, u].length = lenWords ([w, v, u].headD 0 % 4) := by simp [h, lenWords]
theorem five {w v u : Nat} (h : w % 4 = 3) (l : Word) : (w :: v :: u :: litWords l).length = lenWords ((w :: v :: u :: litWords l).headD 0 % 4) := by
  simp [h, litWords, lenWords]
theorem vx_len (fn : Nat) (v : Vx) : (encVx fn v).length = lenWords ((encVx fn v).headD 0 % 4) := by
  unfold encVx
  cases v.lit with
  | none => exact three (by simp; omega)
  | some l => exact five (by simp; omega) l
theorem mx_len (fn : Nat) (m : Mx) : (encMx fn m).length = lenWords ((encMx fn m).headD 0 % 4) := three (by omega)
theorem ecx_len (fn : Nat) (e : Ecx) : (encEcx fn e).length = lenWords ((encEcx fn e).headD 0 % 4) := by
  unfold encEcx
  cases e.lit with
  | none => exact three (by simp; omega)
  | some l => exact five (by simp; omega) l
theorem lsxLoad_len (l : LsxLoad) : (encLsxLoad l).length = lenWords ((encLsxLoad l).headD 0 % 4) := three (by omega)
theorem lsxStore_len (l : LsxStore) : (encLsxStore l).length = lenWords ((encLsxStore l).headD 0 % 4) := three (by omega)
theorem amo_len (op : Nat) (m : AmoF) : (encAmo op m).length = lenWords ((encAmo op m).headD 0 % 4) := three (by omega)

theorem nop : Statement .nop := .inr (one (wA_len ..))
theorem trap : ∀ x0, Statement (.trap x0) := fun _ => .inr (one (wA_len ..))
theorem svc : ∀ x0 x1, Statement (.svc x0 x1) := fun _ _ => .inr (one (wA_len ..))
theorem hret : Statement .hret := .inr (one (wA_len ..))
theorem evwait : ∀ x0, Statement (.evwait x0) := fun _ => .inr (one (wA_len ..))
theorem evpost : ∀ x0, Statement (.evpost x0) := fun _ => .inr (one (wA_len ..))
theorem brk : ∀ x0, Statement (.brk x0) := fun _ => .inr (one (wA_len ..))
theorem synci : Statement .synci := .inr (one (wA_len ..))
theorem fence : ∀ x0 x1 x2, Statement (.fence x0 x1 x2) := fun _ _ _ => .inr (one (wA_len ..))
theorem bar : ∀ x0 x1, Statement (.bar x0 x1) := fun _ _ => .inr (one (wA_len ..))
theorem halt : Statement .halt := .inr (one (wA_len ..))
theorem add : ∀ x0 x1 x2 x3, Statement (.add x0 x1 x2 x3) := fun _ _ _ _ => .inr (one (wA_len ..))
theorem sub : ∀ x0 x1 x2 x3, Statement (.sub x0 x1 x2 x3) := fun _ _ _ _ => .inr (one (wA_len ..))
theorem and : ∀ x0 x1 x2 x3, Statement (.and x0 x1 x2 x3) := fun _ _ _ _ => .inr (one (wA_len ..))
theorem or : ∀ x0 x1 x2 x3, Statement (.or x0 x1 x2 x3) := fun _ _ _ _ => .inr (one (wA_len ..))
theorem xor : ∀ x0 x1 x2 x3, Statement (.xor x0 x1 x2 x3) := fun _ _ _ _ => .inr (one (wA_len ..))
theorem andn : ∀ x0 x1 x2 x3, Statement (.andn x0 x1 x2 x3) := fun _ _ _ _ => .inr (one (wA_len ..))
theorem shl : ∀ x0 x1 x2 x3, Statement (.shl x0 x1 x2 x3) := fun _ _ _ _ => .inr (one (wA_len ..))
theorem shr : ∀ x0 x1 x2 x3, Statement (.shr x0 x1 x2 x3) := fun _ _ _ _ => .inr (one (wA_len ..))
theorem sar : ∀ x0 x1 x2 x3, Statement (.sar x0 x1 x2 x3) := fun _ _ _ _ => .inr (one (wA_len ..))
theorem rol : ∀ x0 x1 x2 x3, Statement (.rol x0 x1 x2 x3) := fun _ _ _ _ => .inr (one (wA_len ..))
theorem slt : ∀ x0 x1 x2 x3, Statement (.slt x0 x1 x2 x3) := fun _ _ _ _ => .inr (one (wA_len ..))
theorem sltn : ∀ x0 x1 x2 x3, Statement (.sltn x0 x1 x2 x3) := fun _ _ _ _ => .inr (one (wA_len ..))
theorem min : ∀ x0 x1 x2 x3, Statement (.min x0 x1 x2 x3) := fun _ _ _ _ => .inr (one (wA_len ..))
theorem max : ∀ x0 x1 x2 x3, Statement (.max x0 x1 x2 x3) := fun _ _ _ _ => .inr (one (wA_len ..))
theorem minn : ∀ x0 x1 x2 x3, Statement (.minn x0 x1 x2 x3) := fun _ _ _ _ => .inr (one (wA_len ..))
theorem maxn : ∀ x0 x1 x2 x3, Statement (.maxn x0 x1 x2 x3) := fun _ _ _ _ => .inr (one (wA_len ..))
theorem mul : ∀ x0 x1 x2 x3, Statement (.mul x0 x1 x2 x3) := fun _ _ _ _ => .inr (one (wA_len ..))
theorem mulh : ∀ x0 x1 x2 x3, Statement (.mulh x0 x1 x2 x3) := fun _ _ _ _ => .inr (one (wA_len ..))
theorem mulhn : ∀ x0 x1 x2 x3, Statement (.mulhn x0 x1 x2 x3) := fun _ _ _ _ => .inr (one (wA_len ..))
theorem div : ∀ x0 x1 x2 x3, Statement (.div x0 x1 x2 x3) := fun _ _ _ _ => .inr (one (wA_len ..))
theorem divn : ∀ x0 x1 x2 x3, Statement (.divn x0 x1 x2 x3) := fun _ _ _ _ => .inr (one (wA_len ..))
theorem rem : ∀ x0 x1 x2 x3, Statement (.rem x0 x1 x2 x3) := fun _ _ _ _ => .inr (one (wA_len ..))
theorem remn : ∀ x0 x1 x2 x3, Statement (.remn x0 x1 x2 x3) := fun _ _ _ _ => .inr (one (wA_len ..))
theorem clz : ∀ x0 x1 x2, Statement (.clz x0 x1 x2) := fun _ _ _ => .inr (one (wA_len ..))
theorem ctz : ∀ x0 x1 x2, Statement (.ctz x0 x1 x2) := fun _ _ _ => .inr (one (wA_len ..))
theorem popc : ∀ x0 x1 x2, Statement (.popc x0 x1 x2) := fun _ _ _ => .inr (one (wA_len ..))
theorem sext : ∀ x0 x1 x2, Statement (.sext x0 x1 x2) := fun _ _ _ => .inr (one (wA_len ..))
theorem zext : ∀ x0 x1 x2, Statement (.zext x0 x1 x2) := fun _ _ _ => .inr (one (wA_len ..))
theorem movg : ∀ x0 x1 x2 x3, Statement (.movg x0 x1 x2 x3) := fun _ _ _ _ => .inr (one (wA_len ..))
theorem bswap : ∀ x0 x1 x2, Statement (.bswap x0 x1 x2) := fun _ _ _ => .inr (one (wA_len ..))
theorem addi : ∀ x0 x1 x2, Statement (.addi x0 x1 x2) := fun _ _ _ => .inr (one (wI_len ..))
theorem addiLit : ∀ x0 x1 x2, Statement (.addiLit x0 x1 x2) := fun _ _ _ => .inr (lit (wI_len ..) _)
theorem andi : ∀ x0 x1 x2, Statement (.andi x0 x1 x2) := fun _ _ _ => .inr (one (wI_len ..))
theorem andiLit : ∀ x0 x1 x2, Statement (.andiLit x0 x1 x2) := fun _ _ _ => .inr (lit (wI_len ..) _)
theorem ori : ∀ x0 x1 x2, Statement (.ori x0 x1 x2) := fun _ _ _ => .inr (one (wI_len ..))
theorem oriLit : ∀ x0 x1 x2, Statement (.oriLit x0 x1 x2) := fun _ _ _ => .inr (lit (wI_len ..) _)
theorem xori : ∀ x0 x1 x2, Statement (.xori x0 x1 x2) := fun _ _ _ => .inr (one (wI_len ..))
theorem xoriLit : ∀ x0 x1 x2, Statement (.xoriLit x0 x1 x2) := fun _ _ _ => .inr (lit (wI_len ..) _)
theorem shli : ∀ x0 x1 x2, Statement (.shli x0 x1 x2) := fun _ _ _ => .inr (one (wI_len ..))
theorem shri : ∀ x0 x1 x2, Statement (.shri x0 x1 x2) := fun _ _ _ => .inr (one (wI_len ..))
theorem sari : ∀ x0 x1 x2, Statement (.sari x0 x1 x2) := fun _ _ _ => .inr (one (wI_len ..))
theorem roli : ∀ x0 x1 x2, Statement (.roli x0 x1 x2) := fun _ _ _ => .inr (one (wI_len ..))
theorem slti : ∀ x0 x1 x2, Statement (.slti x0 x1 x2) := fun _ _ _ => .inr (one (wI_len ..))
theorem sltiLit : ∀ x0 x1 x2, Statement (.sltiLit x0 x1 x2) := fun _ _ _ => .inr (lit (wI_len ..) _)
theorem sltin : ∀ x0 x1 x2, Statement (.sltin x0 x1 x2) := fun _ _ _ => .inr (one (wI_len ..))
theorem sltinLit : ∀ x0 x1 x2, Statement (.sltinLit x0 x1 x2) := fun _ _ _ => .inr (lit (wI_len ..) _)
theorem ldi : ∀ x0 x1, Statement (.ldi x0 x1) := fun _ _ => .inr (one (by omega))
theorem ldl : ∀ x0 x1, Statement (.ldl x0 x1) := fun _ _ => .inr (lit (by omega) _)
theorem cadr : ∀ x0 x1 x2, Statement (.cadr x0 x1 x2) := fun _ _ _ => .inr (one (wA_len ..))
theorem crel : ∀ x0 x1 x2, Statement (.crel x0 x1 x2) := fun _ _ _ => .inr (one (wA_len ..))
theorem cxy : ∀ x0 x1, Statement (.cxy x0 x1) := fun _ _ => .inr (one (wA_len ..))
theorem cres : ∀ x0 x1, Statement (.cres x0 x1) := fun _ _ => .inr (one (wA_len ..))
theorem wfld : ∀ x0 x1 x2, Statement (.wfld x0 x1 x2) := fun _ _ _ => .inr (one (wA_len ..))
theorem ld : ∀ x0 x1 x2 x3, Statement (.ld x0 x1 x2 x3) := fun _ _ _ _ => .inr (one (wM_len ..))
theorem st : ∀ x0 x1 x2 x3 x4, Statement (.st x0 x1 x2 x3 x4) := fun _ _ _ _ _ => .inr (one (wM_len ..))
theorem lsxLoad : ∀ x0, Statement (.lsxLoad x0) := fun _ => .inr (lsxLoad_len ..)
theorem lsxStore : ∀ x0, Statement (.lsxStore x0) := fun _ => .inr (lsxStore_len ..)
theorem stmap : ∀ x0 x1 x2, Statement (.stmap x0 x1 x2) := fun _ _ _ => .inr (one (wA_len ..))
theorem stunmap : ∀ x0, Statement (.stunmap x0) := fun _ => .inr (one (wA_len ..))
theorem stflush : ∀ x0, Statement (.stflush x0) := fun _ => .inr (one (wA_len ..))
theorem lastuse : ∀ x0 x1, Statement (.lastuse x0 x1) := fun _ _ => .inr (one (wA_len ..))
theorem discard : ∀ x0 x1, Statement (.discard x0 x1) := fun _ _ => .inr (one (wA_len ..))
theorem pref : ∀ x0 x1, Statement (.pref x0 x1) := fun _ _ => .inr (one (wA_len ..))
theorem tlbinv : ∀ x0, Statement (.tlbinv x0) := fun _ => .inr (one (wA_len ..))
theorem aadd : ∀ x0, Statement (.aadd x0) := fun _ => .inr (amo_len ..)
theorem aand : ∀ x0, Statement (.aand x0) := fun _ => .inr (amo_len ..)
theorem aor : ∀ x0, Statement (.aor x0) := fun _ => .inr (amo_len ..)
theorem axor : ∀ x0, Statement (.axor x0) := fun _ => .inr (amo_len ..)
theorem amin : ∀ x0, Statement (.amin x0) := fun _ => .inr (amo_len ..)
theorem amax : ∀ x0, Statement (.amax x0) := fun _ => .inr (amo_len ..)
theorem aminn : ∀ x0, Statement (.aminn x0) := fun _ => .inr (amo_len ..)
theorem amaxn : ∀ x0, Statement (.amaxn x0) := fun _ => .inr (amo_len ..)
theorem aswap : ∀ x0, Statement (.aswap x0) := fun _ => .inr (amo_len ..)
theorem acas : ∀ x0, Statement (.acas x0) := fun _ => .inr (amo_len ..)
theorem afadd : ∀ x0, Statement (.afadd x0) := fun _ => .inr (amo_len ..)
theorem bz : ∀ x0 x1 x2 x3, Statement (.bz x0 x1 x2 x3) := fun _ _ _ _ => .inr (one (by omega))
theorem bg : ∀ x0 x1 x2 x3, Statement (.bg x0 x1 x2 x3) := fun _ _ _ _ => .inr (one (by omega))
theorem j : ∀ x0, Statement (.j x0) := fun _ => .inr (one (by omega))
theorem call : ∀ x0, Statement (.call x0) := fun _ => .inr (one (by omega))
theorem jr : ∀ x0, Statement (.jr x0) := fun _ => .inr (one (wA_len ..))
theorem callr : ∀ x0, Statement (.callr x0) := fun _ => .inr (one (wA_len ..))
theorem ret : Statement .ret := .inr (one (wA_len ..))
theorem loop : ∀ x0 x1, Statement (.loop x0 x1) := fun _ _ => .inr (one (by omega))
theorem cmpgEq : ∀ x0 x1 x2, Statement (.cmpgEq x0 x1 x2) := fun _ _ _ => .inr (one (wA_len ..))
theorem cmpgNe : ∀ x0 x1 x2, Statement (.cmpgNe x0 x1 x2) := fun _ _ _ => .inr (one (wA_len ..))
theorem cmpgLt : ∀ x0 x1 x2, Statement (.cmpgLt x0 x1 x2) := fun _ _ _ => .inr (one (wA_len ..))
theorem cmpgGe : ∀ x0 x1 x2, Statement (.cmpgGe x0 x1 x2) := fun _ _ _ => .inr (one (wA_len ..))
theorem cmpgLtn : ∀ x0 x1 x2, Statement (.cmpgLtn x0 x1 x2) := fun _ _ _ => .inr (one (wA_len ..))
theorem cmpgGen : ∀ x0 x1 x2, Statement (.cmpgGen x0 x1 x2) := fun _ _ _ => .inr (one (wA_len ..))
theorem gset : ∀ x0 x1, Statement (.gset x0 x1) := fun _ _ => .inr (one (wA_len ..))
theorem gclr : ∀ x0, Statement (.gclr x0) := fun _ => .inr (one (wA_len ..))
theorem gmov : ∀ x0 x1, Statement (.gmov x0 x1) := fun _ _ => .inr (one (wA_len ..))
theorem gand : ∀ x0 x1 x2, Statement (.gand x0 x1 x2) := fun _ _ _ => .inr (one (wA_len ..))
theorem gor : ∀ x0 x1 x2, Statement (.gor x0 x1 x2) := fun _ _ _ => .inr (one (wA_len ..))
theorem gnot : ∀ x0 x1, Statement (.gnot x0 x1) := fun _ _ => .inr (one (wA_len ..))
theorem cmpgi : ∀ x0 x1 x2 x3, Statement (.cmpgi x0 x1 x2 x3) := fun _ _ _ _ => .inr (one (wI_len ..))
theorem cmpgiLit : ∀ x0 x1 x2 x3, Statement (.cmpgiLit x0 x1 x2 x3) := fun _ _ _ _ => .inr (lit (wI_len ..) _)
theorem hld : ∀ x0 x1, Statement (.hld x0 x1) := fun _ _ => .inr (one (wA_len ..))
theorem hst : ∀ x0 x1, Statement (.hst x0 x1) := fun _ _ => .inr (one (wA_len ..))
theorem hset : ∀ x0 x1 x2, Statement (.hset x0 x1 x2) := fun _ _ _ => .inr (one (wA_len ..))
theorem hget : ∀ x0 x1 x2, Statement (.hget x0 x1 x2) := fun _ _ _ => .inr (one (wA_len ..))
theorem hadv : ∀ x0, Statement (.hadv x0) := fun _ => .inr (one (wA_len ..))
theorem hcopy : ∀ x0 x1, Statement (.hcopy x0 x1) := fun _ _ => .inr (one (wA_len ..))
theorem part : ∀ x0 x1 x2, Statement (.part x0 x1 x2) := fun _ _ _ => .inr (one (wA_len ..))
theorem rbind : ∀ x0 x1, Statement (.rbind x0 x1) := fun _ _ => .inr (one (wA_len ..))
theorem rwait : ∀ x0 x1, Statement (.rwait x0 x1) := fun _ _ => .inr (one (wA_len ..))
theorem radvp : ∀ x0 x1, Statement (.radvp x0 x1) := fun _ _ => .inr (one (wA_len ..))
theorem radvc : ∀ x0 x1, Statement (.radvc x0 x1) := fun _ _ => .inr (one (wA_len ..))
theorem rcnt : ∀ x0 x1, Statement (.rcnt x0 x1) := fun _ _ => .inr (one (wA_len ..))
theorem wprd : ∀ x0 x1, Statement (.wprd x0 x1) := fun _ _ => .inr (one (wA_len ..))
theorem wpwait : ∀ x0 x1, Statement (.wpwait x0 x1) := fun _ _ => .inr (one (wA_len ..))
theorem fadd : ∀ x0 x1 x2 x3 x4, Statement (.fadd x0 x1 x2 x3 x4) := fun _ _ _ _ _ => .inr (one (wF_len ..))
theorem fsub : ∀ x0 x1 x2 x3 x4, Statement (.fsub x0 x1 x2 x3 x4) := fun _ _ _ _ _ => .inr (one (wF_len ..))
theorem fmul : ∀ x0 x1 x2 x3 x4, Statement (.fmul x0 x1 x2 x3 x4) := fun _ _ _ _ _ => .inr (one (wF_len ..))
theorem fdiv : ∀ x0 x1 x2 x3 x4, Statement (.fdiv x0 x1 x2 x3 x4) := fun _ _ _ _ _ => .inr (one (wF_len ..))
theorem fsqrt : ∀ x0 x1 x2 x3, Statement (.fsqrt x0 x1 x2 x3) := fun _ _ _ _ => .inr (one (wF_len ..))
theorem fmac : ∀ x0 x1 x2 x3 x4, Statement (.fmac x0 x1 x2 x3 x4) := fun _ _ _ _ _ => .inr (one (wF_len ..))
theorem fmin : ∀ x0 x1 x2 x3, Statement (.fmin x0 x1 x2 x3) := fun _ _ _ _ => .inr (one (wF_len ..))
theorem fmax : ∀ x0 x1 x2 x3, Statement (.fmax x0 x1 x2 x3) := fun _ _ _ _ => .inr (one (wF_len ..))
theorem fabs : ∀ x0 x1 x2, Statement (.fabs x0 x1 x2) := fun _ _ _ => .inr (one (wF_len ..))
theorem fneg : ∀ x0 x1 x2, Statement (.fneg x0 x1 x2) := fun _ _ _ => .inr (one (wF_len ..))
theorem fcvt : ∀ x0 x1 x2 x3 x4, Statement (.fcvt x0 x1 x2 x3 x4) := fun _ _ _ _ _ => .inr (one (wF_len ..))
theorem fclass : ∀ x0 x1 x2, Statement (.fclass x0 x1 x2) := fun _ _ _ => .inr (one (wF_len ..))
theorem fcmpg : ∀ x0 x1 x2 x3 x4, Statement (.fcmpg x0 x1 x2 x3 x4) := fun _ _ _ _ _ => .inr (one (wF_len ..))
theorem copy : ∀ x0 x1 x2 x3, Statement (.copy x0 x1 x2 x3) := fun _ _ _ _ => .inr (one (wA_len ..))
theorem gather : ∀ x0 x1 x2 x3, Statement (.gather x0 x1 x2 x3) := fun _ _ _ _ => .inr (one (wA_len ..))
theorem scatter : ∀ x0 x1 x2 x3, Statement (.scatter x0 x1 x2 x3) := fun _ _ _ _ => .inr (one (wA_len ..))
theorem compact : ∀ x0 x1 x2 x3, Statement (.compact x0 x1 x2 x3) := fun _ _ _ _ => .inr (one (wA_len ..))
theorem fill : ∀ x0 x1 x2 x3, Statement (.fill x0 x1 x2 x3) := fun _ _ _ _ => .inr (one (wA_len ..))
theorem flushr : ∀ x0 x1 x2, Statement (.flushr x0 x1 x2) := fun _ _ _ => .inr (one (wA_len ..))
theorem cstat : ∀ x0, Statement (.cstat x0) := fun _ => .inr (one (wA_len ..))
theorem copyEcx : ∀ x0, Statement (.copyEcx x0) := fun _ => .inr (ecx_len ..)
theorem gatherEcx : ∀ x0, Statement (.gatherEcx x0) := fun _ => .inr (ecx_len ..)
theorem scatterEcx : ∀ x0, Statement (.scatterEcx x0) := fun _ => .inr (ecx_len ..)
theorem compactEcx : ∀ x0, Statement (.compactEcx x0) := fun _ => .inr (ecx_len ..)
theorem fillEcx : ∀ x0, Statement (.fillEcx x0) := fun _ => .inr (ecx_len ..)
theorem flushrEcx : ∀ x0, Statement (.flushrEcx x0) := fun _ => .inr (ecx_len ..)
theorem xstart : ∀ x0 x1, Statement (.xstart x0 x1) := fun _ _ => .inr (one (wA_len ..))
theorem xstartEcx : ∀ x0 x1 x2, Statement (.xstartEcx x0 x1 x2) := fun _ _ _ => .inr (three (by omega))
theorem xwait : ∀ x0 x1, Statement (.xwait x0 x1) := fun _ _ => .inr (one (wA_len ..))
theorem xstat : ∀ x0 x1, Statement (.xstat x0 x1) := fun _ _ => .inr (one (wA_len ..))
theorem xcancel : ∀ x0, Statement (.xcancel x0) := fun _ => .inr (one (wA_len ..))
theorem mcwr : ∀ x0 x1 x2, Statement (.mcwr x0 x1 x2) := fun _ _ _ => .inr (one (wA_len ..))
theorem aclwr : ∀ x0 x1 x2, Statement (.aclwr x0 x1 x2) := fun _ _ _ => .inr (one (wA_len ..))
theorem fend : Statement .fend := .inr (one (wA_len ..))
theorem fendCommit : ∀ x0 x1, Statement (.fendCommit x0 x1) := fun _ _ => .inl rfl
theorem lvrd : ∀ x0 x1, Statement (.lvrd x0 x1) := fun _ _ => .inr (one (wA_len ..))
theorem lvstep : ∀ x0, Statement (.lvstep x0) := fun _ => .inr (one (wA_len ..))
theorem lvbind : ∀ x0 x1, Statement (.lvbind x0 x1) := fun _ _ => .inr (one (wA_len ..))
theorem lvsend : ∀ x0 x1, Statement (.lvsend x0 x1) := fun _ _ => .inr (one (wA_len ..))
theorem lvrecv : ∀ x0 x1, Statement (.lvrecv x0 x1) := fun _ _ => .inr (one (wA_len ..))
theorem freeze : Statement .freeze := .inr (one (wA_len ..))
theorem thaw : Statement .thaw := .inr (one (wA_len ..))
theorem front : ∀ x0 x1, Statement (.front x0 x1) := fun _ _ => .inr (one (wA_len ..))
theorem spawn : ∀ x0 x1 x2, Statement (.spawn x0 x1 x2) := fun _ _ _ => .inr (one (wA_len ..))
theorem tend : Statement .tend := .inr (one (wA_len ..))
theorem joinw : ∀ x0, Statement (.joinw x0) := fun _ => .inr (one (wA_len ..))
theorem launch : ∀ x0 x1, Statement (.launch x0 x1) := fun _ _ => .inr (one (wA_len ..))
theorem vadd : ∀ x0, Statement (.vadd x0) := fun _ => .inr (vx_len ..)
theorem vsub : ∀ x0, Statement (.vsub x0) := fun _ => .inr (vx_len ..)
theorem vmul : ∀ x0, Statement (.vmul x0) := fun _ => .inr (vx_len ..)
theorem vfma : ∀ x0, Statement (.vfma x0) := fun _ => .inr (vx_len ..)
theorem vfms : ∀ x0, Statement (.vfms x0) := fun _ => .inr (vx_len ..)
theorem vmin : ∀ x0, Statement (.vmin x0) := fun _ => .inr (vx_len ..)
theorem vmax : ∀ x0, Statement (.vmax x0) := fun _ => .inr (vx_len ..)
theorem vabs : ∀ x0, Statement (.vabs x0) := fun _ => .inr (vx_len ..)
theorem vneg : ∀ x0, Statement (.vneg x0) := fun _ => .inr (vx_len ..)
theorem vdiv : ∀ x0, Statement (.vdiv x0) := fun _ => .inr (vx_len ..)
theorem vsqrt : ∀ x0, Statement (.vsqrt x0) := fun _ => .inr (vx_len ..)
theorem vrcp : ∀ x0, Statement (.vrcp x0) := fun _ => .inr (vx_len ..)
theorem vrsq : ∀ x0, Statement (.vrsq x0) := fun _ => .inr (vx_len ..)
theorem vexp2 : ∀ x0, Statement (.vexp2 x0) := fun _ => .inr (vx_len ..)
theorem vlog2 : ∀ x0, Statement (.vlog2 x0) := fun _ => .inr (vx_len ..)
theorem vtanh : ∀ x0, Statement (.vtanh x0) := fun _ => .inr (vx_len ..)
theorem vsigm : ∀ x0, Statement (.vsigm x0) := fun _ => .inr (vx_len ..)
theorem vand : ∀ x0, Statement (.vand x0) := fun _ => .inr (vx_len ..)
theorem vor : ∀ x0, Statement (.vor x0) := fun _ => .inr (vx_len ..)
theorem vxor : ∀ x0, Statement (.vxor x0) := fun _ => .inr (vx_len ..)
theorem vnot : ∀ x0, Statement (.vnot x0) := fun _ => .inr (vx_len ..)
theorem vshl : ∀ x0, Statement (.vshl x0) := fun _ => .inr (vx_len ..)
theorem vshr : ∀ x0, Statement (.vshr x0) := fun _ => .inr (vx_len ..)
theorem vsar : ∀ x0, Statement (.vsar x0) := fun _ => .inr (vx_len ..)
theorem vcmp : ∀ x0, Statement (.vcmp x0) := fun _ => .inr (vx_len ..)
theorem vsel : ∀ x0, Statement (.vsel x0) := fun _ => .inr (vx_len ..)
theorem vcvt : ∀ x0, Statement (.vcvt x0) := fun _ => .inr (vx_len ..)
theorem vred : ∀ x0, Statement (.vred x0) := fun _ => .inr (vx_len ..)
theorem vscan : ∀ x0, Statement (.vscan x0) := fun _ => .inr (vx_len ..)
theorem vbcst : ∀ x0, Statement (.vbcst x0) := fun _ => .inr (vx_len ..)
theorem vlerp : ∀ x0, Statement (.vlerp x0) := fun _ => .inr (vx_len ..)
theorem vqexp : ∀ x0, Statement (.vqexp x0) := fun _ => .inr (vx_len ..)
theorem viota : ∀ x0, Statement (.viota x0) := fun _ => .inr (vx_len ..)
theorem vcount : ∀ x0, Statement (.vcount x0) := fun _ => .inr (vx_len ..)
theorem vclamp : ∀ x0, Statement (.vclamp x0) := fun _ => .inr (vx_len ..)
theorem mma : ∀ x0, Statement (.mma x0) := fun _ => .inr (mx_len ..)
theorem mmag : ∀ x0, Statement (.mmag x0) := fun _ => .inr (mx_len ..)
theorem mzero : ∀ x0, Statement (.mzero x0) := fun _ => .inr (mx_len ..)
theorem msca : ∀ x0, Statement (.msca x0) := fun _ => .inr (mx_len ..)
theorem mrd : ∀ x0, Statement (.mrd x0) := fun _ => .inr (mx_len ..)
theorem mpri : ∀ x0, Statement (.mpri x0) := fun _ => .inr (three (by omega))
theorem mwait : Statement .mwait := .inr (three (by omega))
theorem cntrd : ∀ x0 x1, Statement (.cntrd x0 x1) := fun _ _ => .inr (one (wA_len ..))
theorem mark : ∀ x0, Statement (.mark x0) := fun _ => .inr (one (wA_len ..))
theorem csrrd : ∀ x0 x1, Statement (.csrrd x0 x1) := fun _ _ => .inr (one (by omega))
theorem csrwr : ∀ x0 x1, Statement (.csrwr x0 x1) := fun _ _ => .inr (one (by omega))
theorem csrsw : ∀ x0 x1 x2, Statement (.csrsw x0 x1 x2) := fun _ _ _ => .inr (one (by omega))
theorem csrset : ∀ x0 x1 x2, Statement (.csrset x0 x1 x2) := fun _ _ _ => .inr (one (by omega))
theorem csrclr : ∀ x0 x1 x2, Statement (.csrclr x0 x1 x2) := fun _ _ _ => .inr (one (by omega))
theorem stszWrite : ∀ x0, Statement (.stszWrite x0) := fun _ => .inl rfl
theorem migthWrite : ∀ x0, Statement (.migthWrite x0) := fun _ => .inl rfl
theorem rchkClr : Statement .rchkClr := .inl rfl
theorem rchkEnWrite : ∀ x0, Statement (.rchkEnWrite x0) := fun _ => .inl rfl
theorem qtableWrite : ∀ x0 x1, Statement (.qtableWrite x0 x1) := fun _ _ => .inl rfl
theorem fpCsrAccess : ∀ x0, Statement (.fpCsrAccess x0) := fun _ => .inl rfl
theorem pcapWrite : ∀ x0, Statement (.pcapWrite x0) := fun _ => .inl rfl
theorem registerWrite : ∀ x0 x1, Statement (.registerWrite x0 x1) := fun _ _ => .inl rfl
theorem contextSelect : ∀ x0, Statement (.contextSelect x0) := fun _ => .inl rfl
theorem loadReply : ∀ x0 x1, Statement (.loadReply x0 x1) := fun _ _ => .inl rfl
theorem storePerform : ∀ x0 x1, Statement (.storePerform x0 x1) := fun _ _ => .inl rfl
theorem park : ∀ x0 x1, Statement (.park x0 x1) := fun _ _ => .inl rfl
theorem stashFill : ∀ x0 x1, Statement (.stashFill x0 x1) := fun _ _ => .inl rfl
theorem dieCacheEvict : ∀ x0 x1, Statement (.dieCacheEvict x0 x1) := fun _ _ => .inl rfl
theorem directoryOverflowEvent : ∀ x0 x1 x2, Statement (.directoryOverflowEvent x0 x1 x2) := fun _ _ _ => .inl rfl
theorem directoryOvfWrite : ∀ x0 x1, Statement (.directoryOvfWrite x0 x1) := fun _ _ => .inl rfl
theorem pageWalk : ∀ x0 x1 x2, Statement (.pageWalk x0 x1 x2) := fun _ _ _ => .inl rfl
theorem migrationStart : ∀ x0 x1 x2, Statement (.migrationStart x0 x1 x2) := fun _ _ _ => .inl rfl
theorem migrationComplete : ∀ x0, Statement (.migrationComplete x0) := fun _ => .inl rfl
theorem crossPackageMigration : ∀ x0 x1 x2, Statement (.crossPackageMigration x0 x1 x2) := fun _ _ _ => .inl rfl
theorem ownershipRequest : ∀ x0 x1 x2, Statement (.ownershipRequest x0 x1 x2) := fun _ _ _ => .inl rfl
theorem invalidationAck : ∀ x0 x1, Statement (.invalidationAck x0 x1) := fun _ _ => .inl rfl
theorem invalidationResend : ∀ x0 x1, Statement (.invalidationResend x0 x1) := fun _ _ => .inl rfl
theorem dieUnresponsive : ∀ x0, Statement (.dieUnresponsive x0) := fun _ => .inl rfl
theorem hostCxlRead : ∀ x0 x1, Statement (.hostCxlRead x0 x1) := fun _ _ => .inl rfl
theorem hostCxlWrite : ∀ x0 x1, Statement (.hostCxlWrite x0 x1) := fun _ _ => .inl rfl
theorem memoryErrorDetected : ∀ x0, Statement (.memoryErrorDetected x0) := fun _ => .inl rfl
theorem dieResetGraceful : ∀ x0, Statement (.dieResetGraceful x0) := fun _ => .inl rfl
theorem dieResetForced : ∀ x0, Statement (.dieResetForced x0) := fun _ => .inl rfl
theorem dieResetEnd : ∀ x0, Statement (.dieResetEnd x0) := fun _ => .inl rfl
theorem poolPush : ∀ x0 x1, Statement (.poolPush x0 x1) := fun _ _ => .inl rfl
theorem copyQueueRelease : ∀ x0, Statement (.copyQueueRelease x0) := fun _ => .inl rfl
theorem copyBeat : ∀ x0 x1, Statement (.copyBeat x0 x1) := fun _ _ => .inl rfl
theorem copyCommandEnd : ∀ x0 x1, Statement (.copyCommandEnd x0 x1) := fun _ _ => .inl rfl
theorem vectorBeat : ∀ x0, Statement (.vectorBeat x0) := fun _ => .inl rfl
theorem vectorCommandEnd : ∀ x0, Statement (.vectorCommandEnd x0) := fun _ => .inl rfl
theorem matrixSelect : ∀ x0, Statement (.matrixSelect x0) := fun _ => .inl rfl
theorem matrixKstep : ∀ x0, Statement (.matrixKstep x0) := fun _ => .inl rfl
theorem matrixOvertake : ∀ x0 x1, Statement (.matrixOvertake x0 x1) := fun _ _ => .inl rfl
theorem matrixCommandEnd : ∀ x0, Statement (.matrixCommandEnd x0) := fun _ => .inl rfl
theorem ringNotification : ∀ x0 x1 x2, Statement (.ringNotification x0 x1 x2) := fun _ _ _ => .inl rfl
theorem levelNotification : ∀ x0 x1 x2 x3 x4 x5, Statement (.levelNotification x0 x1 x2 x3 x4 x5) := fun _ _ _ _ _ _ => .inl rfl
theorem gateEvaluate : ∀ x0 x1, Statement (.gateEvaluate x0 x1) := fun _ _ => .inl rfl
theorem firingDispatch : ∀ x0 x1, Statement (.firingDispatch x0 x1) := fun _ _ => .inl rfl
theorem nadirRefresh : ∀ x0, Statement (.nadirRefresh x0) := fun _ => .inl rfl
theorem lvstall : ∀ x0, Statement (.lvstall x0) := fun _ => .inl rfl
theorem domainComplete : ∀ x0, Statement (.domainComplete x0) := fun _ => .inl rfl
theorem inboxMessage : ∀ x0, Statement (.inboxMessage x0) := fun _ => .inl rfl
theorem supervisorMessage : ∀ x0, Statement (.supervisorMessage x0) := fun _ => .inl rfl
theorem resume : ∀ x0 x1, Statement (.resume x0 x1) := fun _ _ => .inl rfl
theorem resumeValue : ∀ x0 x1 x2, Statement (.resumeValue x0 x1 x2) := fun _ _ _ => .inl rfl
theorem restart : ∀ x0 x1, Statement (.restart x0 x1) := fun _ _ => .inl rfl
theorem abort : ∀ x0 x1, Statement (.abort x0 x1) := fun _ _ => .inl rfl
theorem p0Request : ∀ x0, Statement (.p0Request x0) := fun _ => .inl rfl
theorem contextSave : ∀ x0 x1, Statement (.contextSave x0 x1) := fun _ _ => .inl rfl
theorem contextResume : ∀ x0 x1, Statement (.contextResume x0 x1) := fun _ _ => .inl rfl
theorem taskSearch : ∀ x0 x1, Statement (.taskSearch x0 x1) := fun _ _ => .inl rfl
theorem taskSearchRestEnd : ∀ x0, Statement (.taskSearchRestEnd x0) := fun _ => .inl rfl
theorem joinwWake : ∀ x0 x1, Statement (.joinwWake x0 x1) := fun _ _ => .inl rfl
theorem barrierDepart : ∀ x0, Statement (.barrierDepart x0) := fun _ => .inl rfl
theorem exchangeStart : ∀ x0, Statement (.exchangeStart x0) := fun _ => .inl rfl
theorem exchangeRun : ∀ x0, Statement (.exchangeRun x0) := fun _ => .inl rfl
theorem exchangeRunDeliver : ∀ x0, Statement (.exchangeRunDeliver x0) := fun _ => .inl rfl
theorem exchangeAck : ∀ x0, Statement (.exchangeAck x0) := fun _ => .inl rfl
theorem closingNotice : ∀ x0, Statement (.closingNotice x0) := fun _ => .inl rfl
theorem abandonment : ∀ x0, Statement (.abandonment x0) := fun _ => .inl rfl
theorem exchangeEnd : ∀ x0, Statement (.exchangeEnd x0) := fun _ => .inl rfl
theorem rd : ∀ x0, Statement (.rd x0) := fun _ => .inl rfl
theorem wr : ∀ x0, Statement (.wr x0) := fun _ => .inl rfl
theorem amo : ∀ x0, Statement (.amo x0) := fun _ => .inl rfl
theorem gwr : ∀ x0, Statement (.gwr x0) := fun _ => .inl rfl
theorem xrun : ∀ x0, Statement (.xrun x0) := fun _ => .inl rfl
theorem msg : ∀ x0, Statement (.msg x0) := fun _ => .inl rfl
theorem gangReserve : ∀ x0, Statement (.gangReserve x0) := fun _ => .inl rfl
theorem gangCommit : ∀ x0, Statement (.gangCommit x0) := fun _ => .inl rfl
theorem gangAbort : ∀ x0, Statement (.gangAbort x0) := fun _ => .inl rfl
theorem mig : ∀ x0, Statement (.mig x0) := fun _ => .inl rfl
theorem shoot : ∀ x0, Statement (.shoot x0) := fun _ => .inl rfl
theorem nadir : ∀ x0, Statement (.nadir x0) := fun _ => .inl rfl
theorem cfg : ∀ x0, Statement (.cfg x0) := fun _ => .inl rfl
theorem val : ∀ x0, Statement (.val x0) := fun _ => .inl rfl
theorem dep : ∀ x0, Statement (.dep x0) := fun _ => .inl rfl
theorem cnt : ∀ x0, Statement (.cnt x0) := fun _ => .inl rfl
theorem done : ∀ x0, Statement (.done x0) := fun _ => .inl rfl
theorem mack : ∀ x0, Statement (.mack x0) := fun _ => .inl rfl
theorem nack : ∀ x0, Statement (.nack x0) := fun _ => .inl rfl
theorem unknown : ∀ x0, Statement (.unknown x0) := fun _ => .inl rfl
theorem mackPortTimeout : ∀ x0 x1, Statement (.mackPortTimeout x0 x1) := fun _ _ => .inl rfl
theorem amoRetransmit : ∀ x0, Statement (.amoRetransmit x0) := fun _ => .inl rfl
theorem amoTimeout : ∀ x0, Statement (.amoTimeout x0) := fun _ => .inl rfl
theorem linkGroupFail : ∀ x0, Statement (.linkGroupFail x0) := fun _ => .inl rfl
theorem linkGroupRestore : ∀ x0, Statement (.linkGroupRestore x0) := fun _ => .inl rfl
theorem gangReserveTimeout : ∀ x0, Statement (.gangReserveTimeout x0) := fun _ => .inl rfl
theorem gangCommitTimeout : ∀ x0, Statement (.gangCommitTimeout x0) := fun _ => .inl rfl
theorem reservationExpire : ∀ x0, Statement (.reservationExpire x0) := fun _ => .inl rfl
theorem gangAbortResend : ∀ x0, Statement (.gangAbortResend x0) := fun _ => .inl rfl
theorem launchWindowCopy : ∀ x0 x1, Statement (.launchWindowCopy x0 x1) := fun _ _ => .inl rfl
theorem launchRetry : Statement .launchRetry := .inl rfl
theorem energyWindow : Statement .energyWindow := .inl rfl
theorem energyBudgetSpent : ∀ x0, Statement (.energyBudgetSpent x0) := fun _ => .inl rfl
theorem windowEnable : ∀ x0, Statement (.windowEnable x0) := fun _ => .inl rfl
theorem windowDestroy : ∀ x0, Statement (.windowDestroy x0) := fun _ => .inl rfl
theorem domainAbort : ∀ x0, Statement (.domainAbort x0) := fun _ => .inl rfl
theorem hostSupervisorCommand : ∀ x0, Statement (.hostSupervisorCommand x0) := fun _ => .inl rfl
theorem dctlHaltreq : ∀ x0 x1, Statement (.dctlHaltreq x0 x1) := fun _ _ => .inl rfl
theorem dctlResume : ∀ x0 x1, Statement (.dctlResume x0 x1) := fun _ _ => .inl rfl
theorem dctlStep : ∀ x0 x1, Statement (.dctlStep x0 x1) := fun _ _ => .inl rfl
theorem dctlCancel : ∀ x0 x1, Statement (.dctlCancel x0 x1) := fun _ _ => .inl rfl
theorem contextStateWrite : ∀ x0 x1 x2 x3, Statement (.contextStateWrite x0 x1 x2 x3) := fun _ _ _ _ => .inl rfl
theorem stopEntryWrite : ∀ x0 x1 x2, Statement (.stopEntryWrite x0 x1 x2) := fun _ _ _ => .inl rfl
theorem stopRequest : ∀ x0, Statement (.stopRequest x0) := fun _ => .inl rfl
theorem dumpStart : ∀ x0, Statement (.dumpStart x0) := fun _ => .inl rfl
theorem dumpWrite : Statement .dumpWrite := .inl rfl
theorem traceEnable : ∀ x0, Statement (.traceEnable x0) := fun _ => .inl rfl
theorem replayArm : ∀ x0, Statement (.replayArm x0) := fun _ => .inl rfl
theorem replayPassEnd : Statement .replayPassEnd := .inl rfl
theorem errorInjectWrite : ∀ x0 x1 x2 x3, Statement (.errorInjectWrite x0 x1 x2 x3) := fun _ _ _ _ => .inl rfl
theorem notificationDrain : ∀ x0, Statement (.notificationDrain x0) := fun _ => .inl rfl
theorem ethQueueEnable : ∀ x0 x1 x2, Statement (.ethQueueEnable x0 x1 x2) := fun _ _ _ => .inl rfl
theorem ethQueueDisable : ∀ x0 x1 x2, Statement (.ethQueueDisable x0 x1 x2) := fun _ _ _ => .inl rfl
theorem ethProducerUpdate : ∀ x0 x1 x2, Statement (.ethProducerUpdate x0 x1 x2) := fun _ _ _ => .inl rfl
theorem ethTransmit : ∀ x0 x1, Statement (.ethTransmit x0 x1) := fun _ _ => .inl rfl
theorem ethReceive : ∀ x0 x1 x2, Statement (.ethReceive x0 x1 x2) := fun _ _ _ => .inl rfl
theorem ethPauseReceive : ∀ x0 x1, Statement (.ethPauseReceive x0 x1) := fun _ _ => .inl rfl
theorem ethLinkChange : ∀ x0 x1, Statement (.ethLinkChange x0 x1) := fun _ _ => .inl rfl
theorem powerGood : ∀ x0, Statement (.powerGood x0) := fun _ => .inl rfl
theorem packageReset : ∀ x0, Statement (.packageReset x0) := fun _ => .inl rfl
theorem firmwareLoadWrite : ∀ x0 x1, Statement (.firmwareLoadWrite x0 x1) := fun _ _ => .inl rfl
theorem amoPerform : ∀ x0 x1, Statement (.amoPerform x0 x1) := fun _ _ => .inl rfl
theorem backgroundRangeOperation : ∀ x0 x1, Statement (.backgroundRangeOperation x0 x1) := fun _ _ => .inl rfl
theorem cxlCacheSnoop : ∀ x0, Statement (.cxlCacheSnoop x0) := fun _ => .inl rfl
theorem spdmRequest : ∀ x0, Statement (.spdmRequest x0) := fun _ => .inl rfl
theorem ethPauseExpire : ∀ x0 x1, Statement (.ethPauseExpire x0 x1) := fun _ _ => .inl rfl

end Sys2Proof.Laws.Coded
end

