-- ==== Sys2Proof/Tests/Slice0.lean ====
section
/-!
SUPPORT. Tests of one step each, with results worked out from the spec, and for every obligation with hypotheses a state that meets them.
-/
set_option linter.all false
set_option maxRecDepth 10000
namespace Sys2Proof.Tests
open Sys2Proof Sys2Proof.Machine Sys2Proof.Claims

/-! ## Words written out from the encoding tables -/

/-- Every listed word decodes to the instruction beside it. -/
def decodes (l : List (Nat × Nat × Instr)) : Bool := l.all fun e => decodeTableWord e.1 e.2.1 == some e.2.2

/-- Words of the SYS functions (R29). -/
theorem test_words_sys : decodes
  [(32, formatA 0x00 0x00 0 0 0 0, .nop),
   (32, formatA 0x00 0x01 0 31 0 0, .trap 31),
   (32, formatA 0x00 0x02 0 9 8 0, .svc 9 8),
   (32, formatA 0x00 0x03 0 0 0 0, .hret),
   (32, formatA 0x00 0x04 0 0 0 7, .evwait 7),
   (32, formatA 0x00 0x05 0 0 12 0, .evpost 12),
   (32, formatA 0x00 0x06 0 3 0 0, .brk 3),
   (32, formatA 0x00 0x07 0 0 0 0, .synci),
   (32, 0x042C0000, .fence .die true true),
   (32, formatA 0x00 0x08 0 (4 * 4 + 2) 0 0, .fence .sys true false),
   (32, formatA 0x00 0x09 0 3 10 0, .bar .pkg 10),
   (32, formatA 0x00 0x0a 0 0 0 0, .halt)] = true := by decide

/-- Words of the ALU functions (R30). -/
theorem test_words_alu : decodes
  [(32, formatA 0x01 0x00 0 10 9 16, .add false 10 9 16),
   (32, formatA 0x01 0x01 1 10 9 16, .sub true 10 9 16),
   (32, formatA 0x01 0x02 0 10 9 16, .and false 10 9 16),
   (32, formatA 0x01 0x03 1 10 9 16, .or true 10 9 16),
   (32, formatA 0x01 0x04 0 10 9 16, .xor false 10 9 16),
   (32, formatA 0x01 0x05 1 10 9 16, .andn true 10 9 16),
   (32, formatA 0x01 0x08 0 10 9 16, .shl false 10 9 16),
   (32, formatA 0x01 0x09 1 10 9 16, .shr true 10 9 16),
   (32, formatA 0x01 0x0a 0 10 9 16, .sar false 10 9 16),
   (32, formatA 0x01 0x0b 1 10 9 16, .rol true 10 9 16),
   (32, formatA 0x01 0x0c 0 10 9 16, .slt false 10 9 16),
   (32, formatA 0x01 0x0d 1 10 9 16, .sltn true 10 9 16),
   (32, formatA 0x01 0x0e 0 10 9 16, .min false 10 9 16),
   (32, formatA 0x01 0x0f 1 10 9 16, .max true 10 9 16),
   (32, formatA 0x01 0x10 0 10 9 16, .minn false 10 9 16),
   (32, formatA 0x01 0x11 1 10 9 16, .maxn true 10 9 16),
   (32, formatA 0x01 0x12 0 10 9 16, .mul false 10 9 16),
   (32, formatA 0x01 0x13 1 10 9 16, .mulh true 10 9 16),
   (32, formatA 0x01 0x14 0 10 9 16, .mulhn false 10 9 16),
   (32, formatA 0x01 0x15 1 10 9 16, .div true 10 9 16)] = true := by decide

/-- Words of the ALU functions (R30). -/
theorem test_words_alu1 : decodes
  [(32, formatA 0x01 0x16 0 10 9 16, .divn false 10 9 16),
   (32, formatA 0x01 0x17 1 10 9 16, .rem true 10 9 16),
   (32, formatA 0x01 0x18 0 10 9 16, .remn false 10 9 16),
   (32, formatA 0x01 0x19 1 0 9 16, .clz true 9 16),
   (32, formatA 0x01 0x1a 0 0 9 16, .ctz false 9 16),
   (32, formatA 0x01 0x1b 1 0 9 16, .popc true 9 16),
   (32, formatA 0x01 0x1f 1 0 9 16, .bswap true 9 16),
   (32, formatA 0x01 0x1c 0 1 9 16, .sext .h 9 16),
   (32, formatA 0x01 0x1d 0 2 9 16, .zext .w 9 16),
   (32, formatA 0x01 0x1e 0 13 9 16, .movg true 5 9 16),
   (32, 0x00293004, .add false 10 9 16),
   (32, 0x40293004, .add true 10 9 16)] = true := by decide

/-- Words of the I and U majors with their literals (R31, R14). -/
theorem test_words_imm : decodes
  [(32, 0x02 * 4 + 17 * 2 ^ 8 + 3 * 2 ^ 13 + (2 ^ 14 - 2) * 2 ^ 18, .addi (-2) 3 17),
   (96, 1 + 0x02 * 4 + 17 * 2 ^ 8 + 3 * 2 ^ 13 + 0x8000000100000002 * 2 ^ 32, .addiLit 0x8000000100000002 3 17),
   (32, 0x03 * 4 + 17 * 2 ^ 8 + 3 * 2 ^ 13 + (2 ^ 14 - 3) * 2 ^ 18, .andi (-3) 3 17),
   (96, 1 + 0x03 * 4 + 17 * 2 ^ 8 + 3 * 2 ^ 13 + 0x8000000100000003 * 2 ^ 32, .andiLit 0x8000000100000003 3 17),
   (32, 0x04 * 4 + 17 * 2 ^ 8 + 3 * 2 ^ 13 + (2 ^ 14 - 4) * 2 ^ 18, .ori (-4) 3 17),
   (96, 1 + 0x04 * 4 + 17 * 2 ^ 8 + 3 * 2 ^ 13 + 0x8000000100000004 * 2 ^ 32, .oriLit 0x8000000100000004 3 17),
   (32, 0x05 * 4 + 17 * 2 ^ 8 + 3 * 2 ^ 13 + (2 ^ 14 - 5) * 2 ^ 18, .xori (-5) 3 17),
   (96, 1 + 0x05 * 4 + 17 * 2 ^ 8 + 3 * 2 ^ 13 + 0x8000000100000005 * 2 ^ 32, .xoriLit 0x8000000100000005 3 17),
   (32, 0x07 * 4 + 17 * 2 ^ 8 + 3 * 2 ^ 13 + (2 ^ 14 - 7) * 2 ^ 18, .slti (-7) 3 17),
   (96, 1 + 0x07 * 4 + 17 * 2 ^ 8 + 3 * 2 ^ 13 + 0x8000000100000007 * 2 ^ 32, .sltiLit 0x8000000100000007 3 17),
   (32, 0x08 * 4 + 17 * 2 ^ 8 + 3 * 2 ^ 13 + (2 ^ 14 - 8) * 2 ^ 18, .sltin (-8) 3 17),
   (96, 1 + 0x08 * 4 + 17 * 2 ^ 8 + 3 * 2 ^ 13 + 0x8000000100000008 * 2 ^ 32, .sltinLit 0x8000000100000008 3 17),
   (32, 0xFFFE3108, .addi (-1) 17 17),
   (32, 0x06 * 4 + 17 * 2 ^ 8 + 3 * 2 ^ 13 + 40 * 2 ^ 18, .shli 40 3 17),
   (32, 0x06 * 4 + 17 * 2 ^ 8 + 3 * 2 ^ 13 + 41 * 2 ^ 18 + 1 * 2 ^ 30, .shri 41 3 17),
   (32, 0x06 * 4 + 17 * 2 ^ 8 + 3 * 2 ^ 13 + 42 * 2 ^ 18 + 2 * 2 ^ 30, .sari 42 3 17),
   (32, 0x06 * 4 + 17 * 2 ^ 8 + 3 * 2 ^ 13 + 43 * 2 ^ 18 + 3 * 2 ^ 30, .roli 43 3 17),
   (32, 0x007D1224, .ldi 1000 18),
   (96, 0x1225 + 0x00000000 * 2 ^ 32 + 0x00000001 * 2 ^ 64, .ldl 0x100000000 18),
   (32, 0x17 * 4 + 5 * 2 ^ 8 + 2 * 2 ^ 11 + 9 * 2 ^ 13 + (2 ^ 14 - 7) * 2 ^ 18, .cmpgi (-7) 9 .lt 5)] = true := by decide

/-- Words of the I and U majors with their literals (R31, R14). -/
theorem test_words_imm1 : decodes
  [(96, 1 + 0x17 * 4 + 5 * 2 ^ 8 + 3 * 2 ^ 11 + 9 * 2 ^ 13 + 0x123456789 * 2 ^ 32, .cmpgiLit 0x123456789 9 .ge 5)] = true := by decide

/-- Words of ADR and MEMCTL (R32). -/
theorem test_words_adr : decodes
  [(32, formatA 0x0a 0x00 0 3 4 5, .cadr 3 4 5),
   (32, formatA 0x0a 0x01 0 3 4 5, .crel 3 4 5),
   (32, formatA 0x0a 0x02 0 0 4 5, .cxy 4 5),
   (32, formatA 0x0a 0x03 0 0 4 5, .cres 4 5),
   (32, formatA 0x0a 0x04 0 5 4 6, .wfld 5 4 6),
   (32, formatA 0x0e 0x00 0 3 4 5, .stmap 3 4 5),
   (32, formatA 0x0e 0x01 0 0 4 0, .stunmap 4),
   (32, formatA 0x0e 0x02 0 0 4 0, .stflush 4),
   (32, formatA 0x0e 0x03 0 3 4 0, .lastuse 3 4),
   (32, formatA 0x0e 0x04 0 3 4 0, .discard 3 4),
   (32, formatA 0x0e 0x05 0 3 4 0, .pref 3 4),
   (32, 0x03010038, .tlbinv 8)] = true := by decide

/-- Words of LD, ST, LSX and AMO (R10, R15). -/
theorem test_words_mem : decodes
  [(32, 0x0091732C, .ld 4 .s32 11 19),
   (32, 0x0b * 4 + 19 * 2 ^ 8 + 11 * 2 ^ 13 + 1 * 2 ^ 18 + (2 ^ 11 - 3) * 2 ^ 21, .ld (-3) .n8 11 19),
   (32, 0x00599330, .st 2 true .w 12 19),
   (32, 0x0c * 4 + 19 * 2 ^ 8 + 12 * 2 ^ 13 + 1 * 2 ^ 18 + (2 ^ 11 - 3) * 2 ^ 21, .st (-3) false .h 12 19),
   (96, 0x09117336 + 0x00000010 * 2 ^ 32, .lsxLoad ⟨false, .die, .acq, false, .s32, 11, 19, 16⟩),
   (96, 2 + 0x0d * 4 + 19 * 2 ^ 8 + 11 * 2 ^ 13 + 5 * 2 ^ 18 + 1 * 2 ^ 21 + 1 * 2 ^ 22 + 3 * 2 ^ 23 + 4 * 2 ^ 26 + 1 * 2 ^ 29 + (2 ^ 32 - 6) * 2 ^ 32, .lsxStore ⟨true, .sys, .rel, true, .w, 11, 19, -6⟩),
   (96, 2 + 0x0f * 4 + 19 * 2 ^ 8 + 11 * 2 ^ 13 + 13 * 2 ^ 18 + 1 * 2 ^ 28 + 1 * 2 ^ 37 + (2 ^ 32 - 16) * 2 ^ 64, .aadd ⟨true, false, 13, 11, 19, .core, .rlx, 0, -16⟩),
   (96, 2 + 0x0f * 4 + 19 * 2 ^ 8 + 11 * 2 ^ 13 + 13 * 2 ^ 18 + 1 * 2 ^ 23 + 1 * 2 ^ 27 + 2 * 2 ^ 37 + 1 * 2 ^ 40 + (2 ^ 32 - 16) * 2 ^ 64, .aand ⟨false, true, 13, 11, 19, .cl, .acq, 0, -16⟩),
   (96, 2 + 0x0f * 4 + 19 * 2 ^ 8 + 11 * 2 ^ 13 + 13 * 2 ^ 18 + 2 * 2 ^ 23 + 1 * 2 ^ 28 + 3 * 2 ^ 37 + 2 * 2 ^ 40 + (2 ^ 32 - 16) * 2 ^ 64, .aor ⟨true, false, 13, 11, 19, .die, .rel, 0, -16⟩),
   (96, 2 + 0x0f * 4 + 19 * 2 ^ 8 + 11 * 2 ^ 13 + 13 * 2 ^ 18 + 3 * 2 ^ 23 + 1 * 2 ^ 27 + 4 * 2 ^ 37 + 3 * 2 ^ 40 + (2 ^ 32 - 16) * 2 ^ 64, .axor ⟨false, true, 13, 11, 19, .pkg, .acqrel, 0, -16⟩),
   (96, 2 + 0x0f * 4 + 19 * 2 ^ 8 + 11 * 2 ^ 13 + 13 * 2 ^ 18 + 4 * 2 ^ 23 + 1 * 2 ^ 28 + 1 * 2 ^ 37 + 4 * 2 ^ 40 + (2 ^ 32 - 16) * 2 ^ 64, .amin ⟨true, false, 13, 11, 19, .sys, .rlx, 0, -16⟩),
   (96, 2 + 0x0f * 4 + 19 * 2 ^ 8 + 11 * 2 ^ 13 + 13 * 2 ^ 18 + 5 * 2 ^ 23 + 1 * 2 ^ 27 + 2 * 2 ^ 37 + (2 ^ 32 - 16) * 2 ^ 64, .amax ⟨false, true, 13, 11, 19, .core, .acq, 0, -16⟩),
   (96, 2 + 0x0f * 4 + 19 * 2 ^ 8 + 11 * 2 ^ 13 + 13 * 2 ^ 18 + 6 * 2 ^ 23 + 1 * 2 ^ 28 + 3 * 2 ^ 37 + 1 * 2 ^ 40 + (2 ^ 32 - 16) * 2 ^ 64, .aminn ⟨true, false, 13, 11, 19, .cl, .rel, 0, -16⟩),
   (96, 2 + 0x0f * 4 + 19 * 2 ^ 8 + 11 * 2 ^ 13 + 13 * 2 ^ 18 + 7 * 2 ^ 23 + 1 * 2 ^ 27 + 4 * 2 ^ 37 + 2 * 2 ^ 40 + (2 ^ 32 - 16) * 2 ^ 64, .amaxn ⟨false, true, 13, 11, 19, .die, .acqrel, 0, -16⟩),
   (96, 2 + 0x0f * 4 + 19 * 2 ^ 8 + 11 * 2 ^ 13 + 13 * 2 ^ 18 + 8 * 2 ^ 23 + 1 * 2 ^ 28 + 1 * 2 ^ 37 + 3 * 2 ^ 40 + (2 ^ 32 - 16) * 2 ^ 64, .aswap ⟨true, false, 13, 11, 19, .pkg, .rlx, 0, -16⟩),
   (96, 2 + 0x0f * 4 + 19 * 2 ^ 8 + 11 * 2 ^ 13 + 13 * 2 ^ 18 + 9 * 2 ^ 23 + 1 * 2 ^ 27 + 6 * 2 ^ 32 + 2 * 2 ^ 37 + 4 * 2 ^ 40 + (2 ^ 32 - 16) * 2 ^ 64, .acas ⟨false, true, 13, 11, 19, .sys, .acq, 6, -16⟩),
   (96, 2 + 0x0f * 4 + 19 * 2 ^ 8 + 11 * 2 ^ 13 + 13 * 2 ^ 18 + 10 * 2 ^ 23 + 1 * 2 ^ 28 + 3 * 2 ^ 37 + (2 ^ 32 - 16) * 2 ^ 64, .afadd ⟨true, false, 13, 11, 19, .core, .rel, 0, -16⟩)] = true := by decide

/-- Words of branches, jumps and LOOP (R10, R12, R38). -/
theorem test_words_flow : decodes
  [(32, 0xFFFB2840, .bz (-3) true .ne0 8),
   (32, 0x10 * 4 + 8 * 2 ^ 8 + 7 * 2 ^ 13 + 100 * 2 ^ 17, .bz 100 false .b0s 8),
   (32, 0x11 * 4 + 6 * 2 ^ 8 + 1 * 2 ^ 11 + (2 ^ 15 - 9) * 2 ^ 17, .bg (-9) false true 6),
   (32, 0x11 * 4 + 6 * 2 ^ 8 + 1 * 2 ^ 12 + 9 * 2 ^ 17, .bg 9 true false 6),
   (32, 0x12 * 4 + (2 ^ 24 - 2) * 2 ^ 8, .j (-2)),
   (32, 0x13 * 4 + 77 * 2 ^ 8, .call 77),
   (32, formatA 0x14 0x00 0 0 9 0, .jr 9),
   (32, formatA 0x14 0x01 0 0 9 0, .callr 9),
   (32, formatA 0x14 0x02 0 0 0 0, .ret),
   (32, 0x15 * 4 + 9 * 2 ^ 8 + (2 ^ 15 - 40) * 2 ^ 17, .loop (-40) 9)] = true := by decide

/-- Words of the GRD functions (R33). -/
theorem test_words_grd : decodes
  [(32, formatA 0x16 0x00 0 3 4 5, .cmpgEq 3 4 5),
   (32, formatA 0x16 0x01 0 3 4 5, .cmpgNe 3 4 5),
   (32, formatA 0x16 0x02 0 3 4 5, .cmpgLt 3 4 5),
   (32, formatA 0x16 0x03 0 3 4 5, .cmpgGe 3 4 5),
   (32, formatA 0x16 0x04 0 3 4 5, .cmpgLtn 3 4 5),
   (32, formatA 0x16 0x05 0 3 4 5, .cmpgGen 3 4 5),
   (32, formatA 0x16 0x08 0 1 0 5, .gset true 5),
   (32, formatA 0x16 0x09 0 0 0 5, .gclr 5),
   (32, formatA 0x16 0x0a 0 0 3 5, .gmov 3 5),
   (32, formatA 0x16 0x0b 0 2 3 5, .gand 2 3 5),
   (32, formatA 0x16 0x0c 0 2 3 5, .gor 2 3 5),
   (32, formatA 0x16 0x0d 0 0 3 5, .gnot 3 5)] = true := by decide

/-- Words of HND and RNG (R34). -/
theorem test_words_hnd : decodes
  [(32, 0x00020460, .hld 16 4),
   (32, formatA 0x18 0x01 0 0 16 4, .hst 16 4),
   (32, formatA 0x18 0x02 0 3 16 4, .hset 3 16 4),
   (32, formatA 0x18 0x03 0 2 15 20, .hget 2 15 20),
   (32, formatA 0x18 0x04 0 0 0 9, .hadv 9),
   (32, formatA 0x18 0x05 0 0 8 9, .hcopy 8 9),
   (32, formatA 0x18 0x06 0 17 8 9, .part 17 8 9),
   (32, formatA 0x19 0x00 0 0 17 9, .rbind 17 9),
   (32, formatA 0x19 0x01 0 17 9 0, .rwait 17 9),
   (32, formatA 0x19 0x02 0 17 9 0, .radvp 17 9),
   (32, formatA 0x19 0x03 0 17 9 0, .radvc 17 9),
   (32, formatA 0x19 0x04 0 0 9 17, .rcnt 9 17),
   (32, formatA 0x19 0x05 0 0 3 17, .wprd 3 17),
   (32, formatA 0x19 0x06 0 17 2 0, .wpwait 17 2)] = true := by decide

/-- Words of the FPU functions (R35). -/
theorem test_words_fpu : decodes
  [(32, formatA 0x1a 0x10 0 10 9 16, .fadd .d .rne 10 9 16),
   (32, formatA 0x1a 0x21 1 10 9 16, .fsub .s .rtz 10 9 16),
   (32, formatA 0x1a 0x32 0 10 9 16, .fmul .d .rdn 10 9 16),
   (32, formatA 0x1a 0x43 1 10 9 16, .fdiv .s .rup 10 9 16),
   (32, formatA 0x1a 0x54 0 0 9 16, .fsqrt .d .rna 9 16),
   (32, formatA 0x1a 0x05 1 10 9 16, .fmac .s .dyn 10 9 16),
   (32, formatA 0x1a 0x06 0 10 9 16, .fmin .d 10 9 16),
   (32, formatA 0x1a 0x07 1 10 9 16, .fmax .s 10 9 16),
   (32, formatA 0x1a 0x08 0 0 9 16, .fabs .d 9 16),
   (32, formatA 0x1a 0x09 1 0 9 16, .fneg .s 9 16),
   (32, formatA 0x1a 0x2a 0 1 9 16, .fcvt .d .rtz ⟨false, .f32⟩ 9 16),
   (32, formatA 0x1a 0x0a 1 30 9 16, .fcvt .s .dyn ⟨true, .n64⟩ 9 16),
   (32, formatA 0x1a 0x0b 1 0 9 16, .fclass .s 9 16),
   (32, formatA 0x1a 0x0c 0 10 9 (2 * 8 + 5), .fcmpg .d 10 9 .le 5),
   (32, 0x48293068, .fadd .s .rne 10 9 16),
   (32, 0x00293068, .fadd .d .dyn 10 9 16)] = true := by decide

/-- Words of ECOPY, ECX and EXCH (R36). -/
theorem test_words_cpy : decodes
  [(32, formatA 0x1c 0x00 1 10 9 16, .copy 1 10 9 16),
   (32, formatA 0x1c 0x01 2 10 9 16, .gather 2 10 9 16),
   (32, formatA 0x1c 0x02 3 10 9 16, .scatter 3 10 9 16),
   (32, formatA 0x1c 0x03 0 10 9 16, .compact 0 10 9 16),
   (32, formatA 0x1c 0x04 1 10 9 16, .fill 1 10 9 16),
   (32, formatA 0x1c 0x05 2 0 9 16, .flushr 2 9 16),
   (32, formatA 0x1c 0x06 0 0 0 16, .cstat 16),
   (32, 0x004A3070, .copy 0 18 17 16),
   (96, 0x004A308E + 0x00001700 * 2 ^ 32, .copyEcx ⟨0, 18, 17, 16, true, .pkg, true, false, ⟨false, false, 0⟩, none, 0⟩),
   (96, 2 + 0x23 * 4 + 16 * 2 ^ 8 + 9 * 2 ^ 13 + 10 * 2 ^ 18 + 1 * 2 ^ 23 + 3 * 2 ^ 30 + 1 * 2 ^ 34 + 5 * 2 ^ 35 + 1 * 2 ^ 38 + 1 * 2 ^ 39 + 2 * 2 ^ 41 + 1 * 2 ^ 44, .gatherEcx ⟨3, 10, 9, 16, true, .die, false, true, ⟨true, true, 5⟩, none, 0⟩),
   (160, 3 + 0x23 * 4 + 16 * 2 ^ 8 + 9 * 2 ^ 13 + 2 * 2 ^ 23 + 3 * 2 ^ 30 + 1 * 2 ^ 34 + 5 * 2 ^ 35 + 1 * 2 ^ 38 + 1 * 2 ^ 39 + 2 * 2 ^ 41 + 0x1122334455667788 * 2 ^ 96, .scatterEcx ⟨3, 0, 9, 16, false, .die, false, true, ⟨true, true, 5⟩, some 0x1122334455667788, 0⟩),
   (96, 2 + 0x23 * 4 + 16 * 2 ^ 8 + 9 * 2 ^ 13 + 10 * 2 ^ 18 + 3 * 2 ^ 23 + 3 * 2 ^ 30 + 1 * 2 ^ 34 + 5 * 2 ^ 35 + 1 * 2 ^ 38 + 1 * 2 ^ 39 + 2 * 2 ^ 41 + 1 * 2 ^ 44 + 11 * 2 ^ 64, .compactEcx ⟨3, 10, 9, 16, true, .die, false, true, ⟨true, true, 5⟩, none, 11⟩),
   (160, 3 + 0x23 * 4 + 16 * 2 ^ 8 + 9 * 2 ^ 13 + 4 * 2 ^ 23 + 3 * 2 ^ 30 + 1 * 2 ^ 34 + 5 * 2 ^ 35 + 1 * 2 ^ 38 + 1 * 2 ^ 39 + 2 * 2 ^ 41 + 0x1122334455667788 * 2 ^ 96, .fillEcx ⟨3, 0, 9, 16, false, .die, false, true, ⟨true, true, 5⟩, some 0x1122334455667788, 0⟩),
   (96, 2 + 0x23 * 4 + 16 * 2 ^ 8 + 9 * 2 ^ 13 + 5 * 2 ^ 23 + 1 * 2 ^ 40 + 4 * 2 ^ 41, .flushrEcx ⟨0, 0, 9, 16, false, .sys, true, false, ⟨false, false, 0⟩, none, 0⟩),
   (96, 2 + 0x23 * 4 + 16 * 2 ^ 8 + 9 * 2 ^ 13 + 1 * 2 ^ 32 + 1 * 2 ^ 34 + 3 * 2 ^ 35, .xstartEcx ⟨true, false, 3⟩ 9 16),
   (32, formatA 0x1e 0x00 0 0 9 16, .xstart 9 16),
   (32, formatA 0x1e 0x01 0 0 9 16, .xwait 9 16),
   (32, formatA 0x1e 0x02 0 0 9 16, .xstat 9 16),
   (32, formatA 0x1e 0x03 0 0 9 0, .xcancel 9),
   (32, 0x084A3078, .mcwr 18 17 16)] = true := by decide

/-- Words of ECOPY, ECX and EXCH (R36). -/
theorem test_words_cpy1 : decodes
  [(32, formatA 0x1e 0x11 0 10 9 16, .aclwr 10 9 16)] = true := by decide

/-- Words of LVL, TSK and DBG (R37, R38). -/
theorem test_words_lvl : decodes
  [(32, formatA 0x1f 0x00 0 0 0 0, .fend),
   (32, formatA 0x1f 0x01 0 0 9 16, .lvrd 9 16),
   (32, formatA 0x1f 0x02 0 0 9 0, .lvstep 9),
   (32, formatA 0x1f 0x03 0 0 9 16, .lvbind 9 16),
   (32, formatA 0x1f 0x04 0 10 9 0, .lvsend 10 9),
   (32, formatA 0x1f 0x05 0 0 9 16, .lvrecv 9 16),
   (32, formatA 0x1f 0x10 0 0 0 0, .freeze),
   (32, formatA 0x1f 0x11 0 0 0 0, .thaw),
   (32, formatA 0x1f 0x12 0 0 9 16, .front 9 16),
   (32, formatA 0x20 0x00 0 10 9 0, .spawn 10 9 .loc),
   (32, formatA 0x20 0x00 0 10 9 4, .spawn 10 9 (.die 0)),
   (32, formatA 0x20 0x00 0 10 9 7, .spawn 10 9 (.die 3)),
   (32, formatA 0x20 0x00 0 10 9 8, .spawn 10 9 .any),
   (32, formatA 0x20 0x01 0 0 0 0, .tend),
   (32, formatA 0x20 0x02 0 0 9 0, .joinw 9),
   (32, formatA 0x20 0x03 0 0 9 16, .launch 9 16),
   (32, formatA 0x24 0x00 0 0 3 16, .cntrd 3 16),
   (32, formatA 0x24 0x01 0 0 9 0, .mark 9)] = true := by decide

/-- Words of every CSR number and the CSR operations (R46, R47). -/
theorem test_words_csr : decodes
  [(32, 0x25 * 4 + 16 * 2 ^ 8 + 0x000 * 2 ^ 18, .csrrd .fpc 16),
   (32, 0x25 * 4 + 16 * 2 ^ 8 + 0x001 * 2 ^ 18, .csrrd .fpf 16),
   (32, 0x25 * 4 + 16 * 2 ^ 8 + 0x002 * 2 ^ 18, .csrrd .nbv 16),
   (32, 0x25 * 4 + 16 * 2 ^ 8 + 0x003 * 2 ^ 18, .csrrd .qtlo 16),
   (32, 0x25 * 4 + 16 * 2 ^ 8 + 0x004 * 2 ^ 18, .csrrd .qthi 16),
   (32, 0x25 * 4 + 16 * 2 ^ 8 + 0x010 * 2 ^ 18, .csrrd .coord 16),
   (32, 0x25 * 4 + 16 * 2 ^ 8 + 0x011 * 2 ^ 18, .csrrd .widl 16),
   (32, 0x25 * 4 + 16 * 2 ^ 8 + 0x012 * 2 ^ 18, .csrrd .dgx 16),
   (32, 0x25 * 4 + 16 * 2 ^ 8 + 0x013 * 2 ^ 18, .csrrd .dgy 16),
   (32, 0x25 * 4 + 16 * 2 ^ 8 + 0x014 * 2 ^ 18, .csrrd .dox 16),
   (32, 0x25 * 4 + 16 * 2 ^ 8 + 0x015 * 2 ^ 18, .csrrd .doy 16),
   (32, 0x25 * 4 + 16 * 2 ^ 8 + 0x016 * 2 ^ 18, .csrrd .ctx 16),
   (32, 0x25 * 4 + 16 * 2 ^ 8 + 0x017 * 2 ^ 18, .csrrd .gtid 16),
   (32, 0x25 * 4 + 16 * 2 ^ 8 + 0x018 * 2 ^ 18, .csrrd .supv 16),
   (32, 0x25 * 4 + 16 * 2 ^ 8 + 0x020 * 2 ^ 18, .csrrd .tvec 16),
   (32, 0x25 * 4 + 16 * 2 ^ 8 + 0x021 * 2 ^ 18, .csrrd .epc 16),
   (32, 0x25 * 4 + 16 * 2 ^ 8 + 0x022 * 2 ^ 18, .csrrd .ecause 16),
   (32, 0x25 * 4 + 16 * 2 ^ 8 + 0x023 * 2 ^ 18, .csrrd .eaddr 16),
   (32, 0x25 * 4 + 16 * 2 ^ 8 + 0x024 * 2 ^ 18, .csrrd .einfo 16),
   (32, 0x25 * 4 + 16 * 2 ^ 8 + 0x025 * 2 ^ 18, .csrrd .estat 16)] = true := by decide

/-- Words of every CSR number and the CSR operations (R46, R47). -/
theorem test_words_csr1 : decodes
  [(32, 0x25 * 4 + 16 * 2 ^ 8 + 0x026 * 2 ^ 18, .csrrd .reix 16),
   (32, 0x25 * 4 + 16 * 2 ^ 8 + 0x027 * 2 ^ 18, .csrrd .wins 16),
   (32, 0x25 * 4 + 16 * 2 ^ 8 + 0x030 * 2 ^ 18, .csrrd .stsz 16),
   (32, 0x25 * 4 + 16 * 2 ^ 8 + 0x031 * 2 ^ 18, .csrrd .dqbase 16),
   (32, 0x25 * 4 + 16 * 2 ^ 8 + 0x040 * 2 ^ 18, .csrrd .migth 16),
   (32, 0x25 * 4 + 16 * 2 ^ 8 + 0x041 * 2 ^ 18, .csrrd .agesh 16),
   (32, 0x25 * 4 + 16 * 2 ^ 8 + 0x042 * 2 ^ 18, .csrrd .pcap 16),
   (32, 0x25 * 4 + 16 * 2 ^ 8 + 0x050 * 2 ^ 18, .csrrd .devcap 16),
   (32, 0x25 * 4 + 16 * 2 ^ 8 + 0x060 * 2 ^ 18, .csrrd (.pmc 0) 16),
   (32, 0x25 * 4 + 16 * 2 ^ 8 + 0x061 * 2 ^ 18, .csrrd (.pmc 1) 16),
   (32, 0x25 * 4 + 16 * 2 ^ 8 + 0x062 * 2 ^ 18, .csrrd (.pmc 2) 16),
   (32, 0x25 * 4 + 16 * 2 ^ 8 + 0x063 * 2 ^ 18, .csrrd (.pmc 3) 16),
   (32, 0x25 * 4 + 16 * 2 ^ 8 + 0x064 * 2 ^ 18, .csrrd .pmcsel 16),
   (32, 0x25 * 4 + 16 * 2 ^ 8 + 0x070 * 2 ^ 18, .csrrd .rchk 16),
   (32, 0x01C01094, .csrrd .rchk 16),
   (32, 0x25 * 4 + 9 * 2 ^ 13 + 0x020 * 2 ^ 18 + 1 * 2 ^ 28, .csrwr .tvec 9),
   (32, 0x25 * 4 + 16 * 2 ^ 8 + 9 * 2 ^ 13 + 0x002 * 2 ^ 18 + 2 * 2 ^ 28, .csrsw .nbv 9 16),
   (32, 0x25 * 4 + 16 * 2 ^ 8 + 9 * 2 ^ 13 + 0x001 * 2 ^ 18 + 3 * 2 ^ 28, .csrset .fpf 9 16),
   (32, 0x25 * 4 + 16 * 2 ^ 8 + 9 * 2 ^ 13 + 0x000 * 2 ^ 18 + 4 * 2 ^ 28, .csrclr .fpc 9 16)] = true := by decide

/-- Words of VEC functions (R15, R39). -/
theorem test_words_vec : decodes
  [(96, 0x08108086 + 0x00000270 * 2 ^ 32, .vadd ⟨false, 1, 0, 2, .f32, 0, false, .dyn, false, false, true, ⟨true, false, 3⟩, 0, 0, none⟩),
   (160, 0x81188287 + 0x3F000000 * 2 ^ 96, .vmul ⟨true, 0, 2, 3, .f32, 0, false, .dyn, false, false, false, ⟨false, false, 0⟩, 0, 0, some 0x3F000000⟩),
   (96, 2 + 0x21 * 4 + 9 * 2 ^ 15 + 1 * 2 ^ 19 + 2 * 2 ^ 23 + 3 * 2 ^ 27 + 1 * 2 ^ 36 + 6 * 2 ^ 37 + 1 * 2 ^ 40 + 1 * 2 ^ 42 + 1 * 2 ^ 47, .vadd ⟨false, 3, 2, 1, .s16, 0, true, .dyn, false, true, false, ⟨true, true, 6⟩, 0, 0, none⟩),
   (96, 2 + 0x21 * 4 + 1 * 2 ^ 8 + 1 * 2 ^ 19 + 2 * 2 ^ 23 + 1 * 2 ^ 31 + 2 * 2 ^ 44 + 20 * 2 ^ 48, .vsub ⟨true, 0, 2, 1, .f64, 20, false, .rtz, false, false, false, ⟨false, false, 0⟩, 0, 0, none⟩),
   (96, 2 + 0x21 * 4 + 2 * 2 ^ 8 + 8 * 2 ^ 15 + 4 * 2 ^ 19 + 5 * 2 ^ 23 + 6 * 2 ^ 27 + 1 * 2 ^ 41, .vmul ⟨false, 6, 5, 4, .n8, 0, false, .dyn, false, false, true, ⟨false, false, 0⟩, 0, 0, none⟩),
   (96, 2 + 0x21 * 4 + 3 * 2 ^ 8 + 2 * 2 ^ 15 + 1 * 2 ^ 19 + 2 * 2 ^ 23 + 3 * 2 ^ 27 + 4 * 2 ^ 32 + 1 * 2 ^ 43 + 1 * 2 ^ 44, .vfma ⟨false, 3, 2, 1, .bf16, 0, false, .rne, true, false, false, ⟨false, false, 0⟩, 4, 0, none⟩),
   (96, 2 + 0x21 * 4 + 4 * 2 ^ 8 + 5 * 2 ^ 15 + 1 * 2 ^ 19 + 2 * 2 ^ 23 + 3 * 2 ^ 27 + 4 * 2 ^ 32, .vfms ⟨false, 3, 2, 1, .t6, 0, false, .dyn, false, false, false, ⟨false, false, 0⟩, 4, 0, none⟩),
   (96, 2 + 0x21 * 4 + 5 * 2 ^ 8 + 14 * 2 ^ 15 + 1 * 2 ^ 19 + 2 * 2 ^ 23 + 3 * 2 ^ 27, .vmin ⟨false, 3, 2, 1, .n64, 0, false, .dyn, false, false, false, ⟨false, false, 0⟩, 0, 0, none⟩),
   (160, 3 + 0x21 * 4 + 6 * 2 ^ 8 + 4 * 2 ^ 15 + 1 * 2 ^ 19 + 2 * 2 ^ 23 + 1 * 2 ^ 31 + 0x40 * 2 ^ 96, .vmax ⟨true, 0, 2, 1, .t8, 0, false, .dyn, false, false, false, ⟨false, false, 0⟩, 0, 0, some 0x40⟩),
   (96, 2 + 0x21 * 4 + 7 * 2 ^ 8 + 11 * 2 ^ 15 + 1 * 2 ^ 19 + 2 * 2 ^ 23 + 1 * 2 ^ 47, .vabs ⟨false, 0, 2, 1, .s32, 0, true, .dyn, false, false, false, ⟨false, false, 0⟩, 0, 0, none⟩),
   (96, 2 + 0x21 * 4 + 8 * 2 ^ 8 + 3 * 2 ^ 15 + 1 * 2 ^ 19 + 2 * 2 ^ 23, .vneg ⟨false, 0, 2, 1, .f16, 0, false, .dyn, false, false, false, ⟨false, false, 0⟩, 0, 0, none⟩),
   (96, 2 + 0x21 * 4 + 9 * 2 ^ 8 + 1 * 2 ^ 15 + 1 * 2 ^ 19 + 2 * 2 ^ 23 + 3 * 2 ^ 27 + 5 * 2 ^ 44, .vdiv ⟨false, 3, 2, 1, .f32, 0, false, .rna, false, false, false, ⟨false, false, 0⟩, 0, 0, none⟩),
   (96, 2 + 0x21 * 4 + 10 * 2 ^ 8 + 1 * 2 ^ 19 + 2 * 2 ^ 23 + 4 * 2 ^ 44, .vsqrt ⟨false, 0, 2, 1, .f64, 0, false, .rup, false, false, false, ⟨false, false, 0⟩, 0, 0, none⟩),
   (96, 2 + 0x21 * 4 + 11 * 2 ^ 8 + 1 * 2 ^ 15 + 1 * 2 ^ 19 + 2 * 2 ^ 23, .vrsq ⟨false, 0, 2, 1, .f32, 0, false, .dyn, false, false, false, ⟨false, false, 0⟩, 0, 0, none⟩),
   (96, 2 + 0x21 * 4 + 12 * 2 ^ 8 + 2 * 2 ^ 15 + 1 * 2 ^ 19 + 2 * 2 ^ 23 + 3 * 2 ^ 44, .vrcp ⟨false, 0, 2, 1, .bf16, 0, false, .rdn, false, false, false, ⟨false, false, 0⟩, 0, 0, none⟩),
   (96, 2 + 0x21 * 4 + 13 * 2 ^ 8 + 1 * 2 ^ 15 + 1 * 2 ^ 19 + 2 * 2 ^ 23, .vexp2 ⟨false, 0, 2, 1, .f32, 0, false, .dyn, false, false, false, ⟨false, false, 0⟩, 0, 0, none⟩),
   (96, 2 + 0x21 * 4 + 14 * 2 ^ 8 + 3 * 2 ^ 15 + 1 * 2 ^ 19 + 2 * 2 ^ 23, .vlog2 ⟨false, 0, 2, 1, .f16, 0, false, .dyn, false, false, false, ⟨false, false, 0⟩, 0, 0, none⟩),
   (96, 2 + 0x21 * 4 + 15 * 2 ^ 8 + 2 * 2 ^ 15 + 1 * 2 ^ 19 + 2 * 2 ^ 23, .vtanh ⟨false, 0, 2, 1, .bf16, 0, false, .dyn, false, false, false, ⟨false, false, 0⟩, 0, 0, none⟩),
   (96, 2 + 0x21 * 4 + 16 * 2 ^ 8 + 1 * 2 ^ 15 + 1 * 2 ^ 19 + 2 * 2 ^ 23 + 1 * 2 ^ 44, .vsigm ⟨false, 0, 2, 1, .f32, 0, false, .rne, false, false, false, ⟨false, false, 0⟩, 0, 0, none⟩),
   (96, 2 + 0x21 * 4 + 17 * 2 ^ 8 + 12 * 2 ^ 15 + 1 * 2 ^ 19 + 2 * 2 ^ 23 + 3 * 2 ^ 27, .vand ⟨false, 3, 2, 1, .n32, 0, false, .dyn, false, false, false, ⟨false, false, 0⟩, 0, 0, none⟩)] = true := by decide

/-- Words of VEC functions (R15, R39). -/
theorem test_words_vec1 : decodes
  [(96, 2 + 0x21 * 4 + 18 * 2 ^ 8 + 7 * 2 ^ 15 + 1 * 2 ^ 19 + 2 * 2 ^ 23 + 1 * 2 ^ 31 + 9 * 2 ^ 48, .vor ⟨true, 0, 2, 1, .s8, 9, false, .dyn, false, false, false, ⟨false, false, 0⟩, 0, 0, none⟩),
   (96, 2 + 0x21 * 4 + 19 * 2 ^ 8 + 10 * 2 ^ 15 + 1 * 2 ^ 19 + 2 * 2 ^ 23 + 3 * 2 ^ 27 + 1 * 2 ^ 42, .vxor ⟨false, 3, 2, 1, .n16, 0, false, .dyn, false, true, false, ⟨false, false, 0⟩, 0, 0, none⟩),
   (96, 2 + 0x21 * 4 + 20 * 2 ^ 8 + 13 * 2 ^ 15 + 1 * 2 ^ 19 + 2 * 2 ^ 23 + 1 * 2 ^ 41, .vnot ⟨false, 0, 2, 1, .s64, 0, false, .dyn, false, false, true, ⟨false, false, 0⟩, 0, 0, none⟩),
   (96, 2 + 0x21 * 4 + 21 * 2 ^ 8 + 11 * 2 ^ 15 + 1 * 2 ^ 19 + 2 * 2 ^ 23 + 3 * 2 ^ 27, .vshl ⟨false, 3, 2, 1, .s32, 0, false, .dyn, false, false, false, ⟨false, false, 0⟩, 0, 0, none⟩),
   (96, 2 + 0x21 * 4 + 22 * 2 ^ 8 + 12 * 2 ^ 15 + 1 * 2 ^ 19 + 2 * 2 ^ 23 + 3 * 2 ^ 27, .vshr ⟨false, 3, 2, 1, .n32, 0, false, .dyn, false, false, false, ⟨false, false, 0⟩, 0, 0, none⟩),
   (160, 3 + 0x21 * 4 + 23 * 2 ^ 8 + 9 * 2 ^ 15 + 1 * 2 ^ 19 + 2 * 2 ^ 23 + 1 * 2 ^ 31 + 0x3 * 2 ^ 96, .vsar ⟨true, 0, 2, 1, .s16, 0, false, .dyn, false, false, false, ⟨false, false, 0⟩, 0, 0, some 0x3⟩)] = true := by decide

/-- Words of the VEC functions with fields of their own (R39, R166-R175). -/
theorem test_words_vec2 : decodes
  [(96, 2 + 0x21 * 4 + 24 * 2 ^ 8 + 1 * 2 ^ 15 + 1 * 2 ^ 19 + 2 * 2 ^ 23 + 3 * 2 ^ 27 + 6 * 2 ^ 64, .vcmp ⟨false, 3, 2, 1, .f32, 0, false, .dyn, false, false, false, ⟨false, false, 0⟩, 0, 6, none⟩),
   (96, 2 + 0x21 * 4 + 25 * 2 ^ 8 + 8 * 2 ^ 15 + 1 * 2 ^ 19 + 2 * 2 ^ 23 + 3 * 2 ^ 27 + 4 * 2 ^ 32 + 1 * 2 ^ 43, .vsel ⟨false, 3, 2, 1, .n8, 0, false, .dyn, true, false, false, ⟨false, false, 0⟩, 4, 0, none⟩),
   (96, 2 + 0x21 * 4 + 26 * 2 ^ 8 + 1 * 2 ^ 15 + 1 * 2 ^ 19 + 2 * 2 ^ 23 + 2 * 2 ^ 44 + 1 * 2 ^ 47 + 7 * 2 ^ 64, .vcvt ⟨false, 0, 2, 1, .f32, 0, true, .rtz, false, false, false, ⟨false, false, 0⟩, 0, 7, none⟩),
   (96, 2 + 0x21 * 4 + 27 * 2 ^ 8 + 11 * 2 ^ 15 + 2 * 2 ^ 23 + 17 * 2 ^ 48 + 0x1F1 * 2 ^ 64, .vred ⟨false, 0, 2, 0, .s32, 17, false, .dyn, false, false, false, ⟨false, false, 0⟩, 0, 0x1F1, none⟩),
   (96, 2 + 0x21 * 4 + 27 * 2 ^ 8 + 1 * 2 ^ 15 + 1 * 2 ^ 19 + 2 * 2 ^ 23 + 1 * 2 ^ 44 + 0x30 * 2 ^ 64, .vred ⟨false, 0, 2, 1, .f32, 0, false, .rne, false, false, false, ⟨false, false, 0⟩, 0, 0x30, none⟩),
   (96, 2 + 0x21 * 4 + 28 * 2 ^ 8 + 10 * 2 ^ 15 + 1 * 2 ^ 19 + 2 * 2 ^ 23 + 5 * 2 ^ 64, .vscan ⟨false, 0, 2, 1, .n16, 0, false, .dyn, false, false, false, ⟨false, false, 0⟩, 0, 5, none⟩),
   (96, 2 + 0x21 * 4 + 29 * 2 ^ 8 + 4 * 2 ^ 15 + 1 * 2 ^ 19 + 1 * 2 ^ 31 + 9 * 2 ^ 48, .vbcst ⟨true, 0, 0, 1, .t8, 9, false, .dyn, false, false, false, ⟨false, false, 0⟩, 0, 0, none⟩),
   (96, 2 + 0x21 * 4 + 29 * 2 ^ 8 + 1 * 2 ^ 19 + 7 * 2 ^ 23, .vbcst ⟨false, 0, 7, 1, .f64, 0, false, .dyn, false, false, false, ⟨false, false, 0⟩, 0, 0, none⟩),
   (96, 2 + 0x21 * 4 + 30 * 2 ^ 8 + 3 * 2 ^ 15 + 1 * 2 ^ 19 + 2 * 2 ^ 23 + 3 * 2 ^ 27 + 4 * 2 ^ 32 + 1 * 2 ^ 44, .vlerp ⟨false, 3, 2, 1, .f16, 0, false, .rne, false, false, false, ⟨false, false, 0⟩, 4, 0, none⟩),
   (96, 2 + 0x21 * 4 + 31 * 2 ^ 8 + 2 * 2 ^ 15 + 1 * 2 ^ 19 + 2 * 2 ^ 23, .vqexp ⟨false, 0, 2, 1, .bf16, 0, false, .dyn, false, false, false, ⟨false, false, 0⟩, 0, 0, none⟩),
   (96, 2 + 0x21 * 4 + 32 * 2 ^ 8 + 11 * 2 ^ 15 + 1 * 2 ^ 19 + 0xFFFFFFFE * 2 ^ 64, .viota ⟨false, 0, 0, 1, .s32, 0, false, .dyn, false, false, false, ⟨false, false, 0⟩, 0, 0xFFFFFFFE, none⟩),
   (96, 2 + 0x21 * 4 + 33 * 2 ^ 8 + 8 * 2 ^ 15 + 2 * 2 ^ 23 + 18 * 2 ^ 48, .vcount ⟨false, 0, 2, 0, .n8, 18, false, .dyn, false, false, false, ⟨false, false, 0⟩, 0, 0, none⟩),
   (96, 2 + 0x21 * 4 + 34 * 2 ^ 8 + 7 * 2 ^ 15 + 1 * 2 ^ 19 + 2 * 2 ^ 23 + 3 * 2 ^ 27 + 4 * 2 ^ 32, .vclamp ⟨false, 3, 2, 1, .s8, 0, false, .dyn, false, false, false, ⟨false, false, 0⟩, 4, 0, none⟩)] = true := by decide

/-- Words of the MAT functions (R15, R40). -/
theorem test_words_mat : decodes
  [(96, 2 + 0x22 * 4 + 2 * 2 ^ 15 + 3 * 2 ^ 19 + 2 * 2 ^ 23 + 1 * 2 ^ 31 + 1 * 2 ^ 40 + 4 * 2 ^ 41 + 1 * 2 ^ 45 + 15 * 2 ^ 47 + 31 * 2 ^ 53 + 4 * 2 ^ 59 + 64 * 2 ^ 64, .mma ⟨true, 0, 2, 3, .bf16, .t8, 31, 15, false, true, ⟨true, false, 4⟩, 0, 0, 64⟩),
   (96, 2 + 0x22 * 4 + 1 * 2 ^ 8 + 1 * 2 ^ 15 + 3 * 2 ^ 19 + 2 * 2 ^ 23 + 5 * 2 ^ 27 + 1 * 2 ^ 47 + 7 * 2 ^ 53 + 1 * 2 ^ 59 + 8 * 2 ^ 64, .mmag ⟨false, 5, 2, 3, .f32, .f32, 7, 1, false, false, ⟨false, false, 0⟩, 0, 0, 8⟩),
   (96, 2 + 0x22 * 4 + 2 * 2 ^ 8 + 4 * 2 ^ 47 + 3 * 2 ^ 53, .mzero ⟨false, 0, 0, 0, .f64, .f64, 3, 4, false, false, ⟨false, false, 0⟩, 0, 0, 0⟩),
   (96, 2 + 0x22 * 4 + 3 * 2 ^ 8 + 1 * 2 ^ 15 + 5 * 2 ^ 27 + 7 * 2 ^ 32 + 6 * 2 ^ 36 + 4 * 2 ^ 47 + 3 * 2 ^ 53 + 11 * 2 ^ 59, .msca ⟨false, 5, 0, 0, .f32, .s32, 3, 4, false, false, ⟨false, false, 0⟩, 6, 7, 0⟩),
   (96, 2 + 0x22 * 4 + 4 * 2 ^ 8 + 2 * 2 ^ 15 + 5 * 2 ^ 27 + 4 * 2 ^ 47 + 3 * 2 ^ 53 + 1 * 2 ^ 59, .mrd ⟨false, 5, 0, 0, .bf16, .f32, 3, 4, false, false, ⟨false, false, 0⟩, 0, 0, 0⟩),
   (96, 0x0191008A + 0x17FFC000 * 2 ^ 32 + 0x00000100 * 2 ^ 64, .mma ⟨false, 0, 3, 2, .bf16, .bf16, 63, 63, true, false, ⟨false, false, 0⟩, 0, 0, 256⟩),
   (96, 0x5000848A + 0x08038300 * 2 ^ 32, .mrd ⟨false, 10, 0, 0, .f32, .f32, 0, 7, false, false, ⟨true, false, 1⟩, 0, 0, 0⟩),
   (96, 2 + 0x22 * 4 + 5 * 2 ^ 8 + 6 * 2 ^ 64, .mpri 6),
   (96, 2 + 0x22 * 4 + 6 * 2 ^ 8, .mwait)] = true := by decide

/-- Words that are no instruction: a length, major or function that is not assigned, a code without meaning, a field that must be zero (R42). -/
theorem test_words_refused0 : ([(32, formatA 0x00 0x00 0 0 0 1), (32, formatA 0x00 0x0b 0 0 0 0), (32, formatA 0x00 0x08 0 4 0 0), (32, formatA 0x00 0x08 0 (5 * 4 + 1) 0 0), (32, formatA 0x00 0x09 0 8 1 0), (32, 1), (32, 0x6C), (32, 0x8029306C), (160, 0xFFFFFFFF), (32, 0x80293004), (32, 0x70293068), (32, formatA 0x01 0x06 0 0 0 0), (32, formatA 0x01 0x1c 1 0 9 16), (32, formatA 0x01 0x1c 0 3 9 16), (32, formatA 0x01 0x1e 0 16 9 16), (32, formatA 0x01 0x19 0 1 9 16), (32, 0x06 * 4 + 1 * 2 ^ 24), (96, 1 + 0x02 * 4 + 1 * 2 ^ 18 + 0x5 * 2 ^ 32), (96, 1 + 0x09 * 4 + 1 * 2 ^ 13 + 0x5 * 2 ^ 32), (32, formatA 0x0a 0x04 0 6 0 0), (32, formatA 0x0e 0x07 0 0 0 0), (32, 0x0b * 4 + 7 * 2 ^ 18), (96, 2 + 0x0d * 4 + 7 * 2 ^ 18), (96, 2 + 0x0d * 4 + 1 * 2 ^ 64), (96, 2 + 0x0d * 4 + 5 * 2 ^ 26 + 1 * 2 ^ 23), (96, 2 + 0x0f * 4 + 11 * 2 ^ 23 + 1 * 2 ^ 37), (96, 2 + 0x0f * 4 + 1 * 2 ^ 37 + 1 * 2 ^ 43), (96, 2 + 0x0f * 4 + 5 * 2 ^ 37), (32, 0x11 * 4 + 1 * 2 ^ 13), (32, 0x15 * 4 + 1 * 2 ^ 13), (32, formatA 0x14 0x03 0 0 0 0), (32, formatA 0x16 0x06 0 0 0 0)] : List (Nat × Nat)).all (fun e => decodeTableWord e.1 e.2 == none) = true := by decide

/-- Words that are no instruction: a length, major or function that is not assigned, a code without meaning, a field that must be zero (R42). -/
theorem test_words_refused1 : ([(32, formatA 0x16 0x08 0 2 0 0), (32, formatA 0x16 0x09 0 0 0 8), (32, formatA 0x18 0x05 0 0 16 9), (32, formatA 0x18 0x02 0 4 3 9), (32, formatA 0x19 0x05 0 0 4 1), (32, formatA 0x1a 0x0d 0 0 0 0), (32, formatA 0x1a 0x16 0 0 0 0), (32, formatA 0x1a 0x0a 0 0 1 1), (32, formatA 0x1a 0x0a 1 1 1 1), (32, formatA 0x1c 0x07 0 0 0 0), (32, formatA 0x1e 0x00 1 0 9 16), (32, formatA 0x1e 0x04 0 0 0 0), (32, formatA 0x1f 0x06 0 0 0 0), (32, formatA 0x20 0x00 0 0 0 1), (32, formatA 0x20 0x04 0 0 0 0), (32, formatA 0x24 0x00 0 0 4 0), (32, 0x25 * 4 + 5 * 2 ^ 18), (32, 0x25 * 4 + 5 * 2 ^ 28), (32, 0x25 * 4 + 1 * 2 ^ 13), (96, 2 + 0x21 * 4 + 15 * 2 ^ 15), (96, 2 + 0x21 * 4 + 35 * 2 ^ 8), (96, 2 + 0x21 * 4 + 6 * 2 ^ 44), (96, 2 + 0x21 * 4 + 1 * 2 ^ 53), (160, 3 + 0x21 * 4 + 0x0 * 2 ^ 96), (96, 2 + 0x21 * 4 + 2 * 2 ^ 15 + 1 * 2 ^ 64), (96, 2 + 0x22 * 4 + 7 * 2 ^ 8), (96, 2 + 0x22 * 4 + 15 * 2 ^ 15), (96, 2 + 0x22 * 4 + 1 * 2 ^ 15 + 1 * 2 ^ 59 + 4 * 2 ^ 64), (96, 2 + 0x22 * 4 + 5 * 2 ^ 8 + 8 * 2 ^ 64), (96, 2 + 0x23 * 4 + 2 * 2 ^ 32), (96, 2 + 0x23 * 4 + 1 * 2 ^ 64), (160, 3 + 0x23 * 4 + 1 * 2 ^ 18 + 0x1 * 2 ^ 96)] : List (Nat × Nat)).all (fun e => decodeTableWord e.1 e.2 == none) = true := by decide

/-- Words that are no instruction: a length, major or function that is not assigned, a code without meaning, a field that must be zero (R42). -/
theorem test_words_refused2 : ([(96, 2 + 0x23 * 4 + 1 * 2 ^ 45)] : List (Nat × Nat)).all (fun e => decodeTableWord e.1 e.2 == none) = true := by decide

/-! ## Ill-formed instructions, one for each check of well-formedness -/

/-- An AMO word with nothing in it. -/
def amo0 : AmoF := ⟨false, false, 0, 0, 0, .core, .rlx, 0, 0⟩
/-- An ECX word with nothing in it. -/
def ecx0 : Ecx := ⟨0, 0, 0, 0, false, .core, false, false, ⟨false, false, 0⟩, none, 0⟩
/-- A VX word on f32 elements with nothing else in it. -/
def vx0 : Vx := ⟨false, 0, 0, 0, .f32, 0, false, .dyn, false, false, false, ⟨false, false, 0⟩, 0, 0, none⟩
/-- An MX word with nothing in it. -/
def mx0 : Mx := ⟨false, 0, 0, 0, .f64, .f64, 0, 0, false, false, ⟨false, false, 0⟩, 0, 0, 0⟩
/-- A packet with nothing in it. -/
def pkt0 : Packet := ⟨0, 0, 0, 0, 0, 0, 0, 0, 0, 0, 0, [], []⟩

/-- Numbers and codes that the scalar functions do not have (R16, R29, R32, R34, R35, R38, R82, R232). -/
theorem test_ill_formed_scalar : ([.fence .pkg false false, .wfld 6 1 2, .lsxLoad ⟨false, .die, .plain, false, .s8, 1, 2, 0⟩,
    .lsxLoad ⟨false, .core, .rel, false, .s8, 1, 2, 0⟩, .lsxStore ⟨false, .core, .acq, false, .b, 1, 2, 0⟩, .aadd { amo0 with ord := .plain },
    .amax { amo0 with c := 3 }, .acas { amo0 with ord := .plain }, .hset 4 1 2, .hget 4 1 2, .wprd 4 1, .wpwait 1 4, .fcvt .d .dyn ⟨false, .f64⟩ 1 2,
    .fcvt .s .dyn ⟨true, .f32⟩ 1 2, .cntrd 4 1] : List Instr).all (fun i => !i.wellFormed) = true := by decide

/-- ECX: a scope without an order, a literal beside register B, IMM32 where no guard is resolved, register B of FLUSHR (R36, R94). -/
theorem test_ill_formed_ecx : ([.copyEcx { ecx0 with scope := .die }, .fillEcx { ecx0 with b := 3, lit := some 1 }, .gatherEcx { ecx0 with imm := 9 },
    .flushrEcx { ecx0 with b := 3 }] : List Instr).all (fun i => !i.wellFormed) = true := by decide

/-- VX: a type, SAT, RM, an unused slot, mark, SB, HB beside a scalar, a literal without BS, and IMM32 (R158, R166, R170-R175). -/
theorem test_ill_formed_vx : ([.vadd { vx0 with ty := .q4 }, .vand vx0, .vadd { vx0 with sat := true }, .vmin { vx0 with rm := .rne },
    .vabs { vx0 with hb := 1 }, .vadd { vx0 with hc := 1 }, .vneg { vx0 with lb := true }, .vmul { vx0 with sb := 3 }, .vsub { vx0 with bs := true, hb := 2 },
    .vadd { vx0 with lit := some 0 }, .vadd { vx0 with imm := 1 }, .vshl { vx0 with ty := .s32, sat := true }, .vcmp { vx0 with imm := 7 },
    .vcmp { vx0 with ty := .s8, imm := 6 }, .vcvt { vx0 with imm := 6 }, .vcvt { vx0 with imm := 15 }, .vred { vx0 with imm := 0 },
    .vred { vx0 with imm := 0x113 }, .vscan { vx0 with imm := 3 }, .vbcst { vx0 with ty := .q4 }, .vexp2 { vx0 with ty := .f64 },
    .vlerp { vx0 with ty := .s8 }, .vqexp { vx0 with ty := .q4 }, .viota vx0, .vcount { vx0 with hd := 1 }, .vdiv { vx0 with ty := .n8 }]
    : List Instr).all (fun i => !i.wellFormed) = true := by decide

/-- MX: a pair of types, K, and the slots that a function does not use (R40, R184, R190). -/
theorem test_ill_formed_mx : ([.mma { mx0 with ta := .f32, tb := .bf16, k := 32 }, .mma { mx0 with ta := .s8, tb := .s8, k := 31 },
    .mma { mx0 with ta := .f32, tb := .f32, k := 0 }, .mma { mx0 with ta := .s8, tb := .q4, k := 32, hx := 1 }, .mmag { mx0 with ta := .t8, tb := .t6, k := 32, hs := 1 },
    .mzero { mx0 with z := true }, .mzero { mx0 with tb := .f32 }, .msca { mx0 with ta := .t8, tb := .f32 }, .mrd { mx0 with ta := .f32, tb := .s8 },
    .mrd { mx0 with ta := .f32, tb := .f32, hs := 1 }] : List Instr).all (fun i => !i.wellFormed) = true := by decide

/-- A packet that keeps no field width (R246). -/
theorem test_ill_formed_packet : ([.rd { pkt0 with op := 256 }, .wr { pkt0 with len := 257 }, .amo { pkt0 with dst := 4096 }, .msg { pkt0 with tag := 2 ^ 32 },
    .nack { pkt0 with faddr := 2 ^ 64 }] : List Instr).all (fun i => !i.wellFormed) = true := by decide

/-! ## Small states -/

/-- A firing of actor 0 of domain 1 in user code. -/
def firing : Ctx :=
  { status := .ready, home := some (1, some 0), work := some { dom := 1, actor := some 0, gtid := 0x0001000000000000 }, pc := 0x100
    regs := [(8, 5), (9, -3), (10, 0x80000000), (11, 0x40600800001B0040#64), (17, 0xC000000000002000#64), (23, 0x240)]
    guards := [(1, true), (2, false)], supv := 0x104 }

/-- A firing of domain 1's supervisor actor. -/
def superv : Ctx := { firing with home := some (1, some 1), work := some { dom := 1, actor := some 1, gtid := 0x0001000000000001 } }

/-- Domain 1: one user actor on context 0 of core (3, 2), its supervisor on context 0 of core (4, 2). -/
def dom1 : Dom :=
  { super := 1, cls := 3, scope := .pkg, gx := 8, gy := 8
    actors := [(0, { core := 259, wid := 7 }), (1, { core := 260, x := 1 })] }

/-- The package with one core's context 0 as given, issuing. -/
def one (k : Ctx) : State :=
  { State.reset with
    fw := 6, events := [], selected := true, cur := (259, 0), doms := [(1, dom1)]
    cores := [(259, { ctxs := [(0, k)] }), (260, { ctxs := [(0, superv)] })] }

/-- A user firing that issues; a supervisor's firing that issues. -/
def user : State := one firing
def super : State := { one firing with cur := (260, 0) }

/-- That firing with words in its banks from its PC up. -/
def withWords (s : State) (ws : List Nat) : State :=
  s.updCore s.cur.1 fun k => { k with mem := writeBytes k.mem s.k.pc (ws.flatMap (natLE 4)) }

/-- A load of eight bytes into a register, not yet answered. -/
def loadDue (r : Reg) : Op :=
  { id := 3, ctx := 0, gtid := 0x0001000000000000, dom := 1, bank := 259, pc := 0xFC, addr := 0xC000000000001000#64
    target := some ⟨.loc 259 0x1000, false, false, false, 0, 0, none⟩, body := .load 8 false r none false }

/-- The user's firing with operations in flight. -/
def withOps (s : State) (os : List Op) : State := s.updCore s.cur.1 fun k => { k with ops := os }

/-! ## Steps: the decoded instruction, a pending move, the next instruction after reset -/

/-- The word of `ADD l0, a0, a1` runs as the first instruction after reset. -/
theorem test_first_word_after_reset :
    (match step (State.reset.withFetchWord 32 0x00249004) with
    | .next t => t.k.pc == 4 && rd t.k 16 == 0 && t.selected == false
    | _ => false) = true := by decide

/-- The user's firing runs the word at its PC: `ADD l0, a0, a1` gives 5 - 3. -/
theorem test_step_runs_the_word :
    (match step (withWords user [1 * 4 + 16 * 256 + 8 * 2 ^ 13 + 9 * 2 ^ 18]) with
    | .next t => t.k.pc == 0x104 && rd t.k 16 == 2 && t.time == 1
    | _ => false) = true := by decide

/-- The user's firing with that word at its PC. -/
def prog : State := withWords user [1 * 4 + 16 * 256 + 8 * 2 ^ 13 + 9 * 2 ^ 18]

theorem meets_StepRunsTheDecodedInstruction : ∃ s s0 t n ws i, issuesNext s n s0 ∧
    fetchInstr s0 s.cur.1 (bankCore s s.cur.1 s.cur.2) s.k.pc = .ok (ws, t) ∧ decode ws = .ok i ∧ stopBefore s s.k (i == .fend) = false :=
  ⟨prog, prog, _, 1, _, _, ⟨by decide, rfl, rfl, .inr ⟨rfl, rfl, by decide, rfl, rfl⟩⟩, rfl, rfl, rfl⟩
theorem meets_StepRunsTheDecodedInstruction_scheduled : ∃ s s0 t n ws i, issuesNext s n s0 ∧ n = 5 ∧
    fetchInstr s0 s.cur.1 (bankCore s s.cur.1 s.cur.2) s.k.pc = .ok (ws, t) ∧ decode ws = .ok i ∧ stopBefore s s.k (i == .fend) = false :=
  ⟨{ prog with turns := [⟨.issue, 5⟩] }, prog, _, 5, _, _, ⟨by decide, rfl, rfl, .inl ⟨rfl, rfl⟩⟩, rfl, rfl, rfl, rfl⟩

theorem meets_FetchReadsItsWordsOrParks : (user.core 259).fetch = none ∧ (user.core 259).bad = [] ∧ 0x2FFFC + 4 * lenWords 0 ≤ 0x30000 := by decide
theorem meets_FetchReadsItsWordsOrParks_end : let s := withWords (one { firing with pc := 0x2FFFC }) [1]
    (s.core 259).fetch = none ∧ (s.core 259).bad = [] ∧ s.k.pc < 0x30000
      ∧ 0x30000 < s.k.pc + 4 * lenWords (leNat (readBytes (s.core 259).mem s.k.pc 4) % 4) := by decide
theorem meets_FetchReadsItsWordsOrParks_buffer : ∃ (line : Nat) (ws : List Nat), ({ fetch := some (259 * 0x40000 + 0x100, List.replicate 16 (some 7)) } : Core).fetch = some (259 * 0x40000 + line, ws.map some)
    ∧ ws.length = 16 ∧ line = 0x104 / 64 * 64 ∧ 0x104 < 0x30000 := ⟨0x100, List.replicate 16 7, rfl, rfl, by decide, by decide⟩
theorem meets_UndecodableWordsParkWithIll : let s := withWords user [0x6C]
    ∃ t ws e, issuesNext s 1 s ∧ fetchInstr s s.cur.1 (bankCore s s.cur.1 s.cur.2) s.k.pc = .ok (ws, t) ∧ decode ws = .error e ∧ stopBefore s s.k false = false :=
  ⟨_, _, _, ⟨by decide, rfl, rfl, .inr ⟨rfl, rfl, by decide, rfl, rfl⟩⟩, rfl, rfl, rfl⟩
/-- Such words park the firing with ILL and word 0 in EINFO (R42, R43). -/
theorem test_undecodable_parks :
    (match step (withWords user [0x6C]) with
    | .next t => t.k.status == .parked && t.k.ecause == 1 && t.k.einfo == 0x6C && t.k.epc == 0x100 && t.k.pc == 0x100
    | _ => false) = true := by decide
theorem meets_PendingMoveRunsItsRow : let s := { user with events := [.energyWindow, .nadirRefresh 1], turns := [⟨.event 1, 0⟩] }
    s.fw < 0x80 ∧ s.events[1]? = some (.nadirRefresh 1) ∧ pickedAt s 1 = 1 ∧ rowOf (.nadirRefresh 1) (.nadirRefresh 1) :=
  ⟨by decide, rfl, rfl, rfl⟩
theorem meets_DecodeAndEncodeAgree : hasWords (.add true 1 2 3) ∧ Instr.wellFormed (.add true 1 2 3) = true := ⟨by unfold hasWords; decide, rfl⟩
theorem meets_DecodeAndEncodeAgree_words : ∃ i, decode [0x042C0000] = .ok i := ⟨_, rfl⟩
theorem meets_MemoryStaysCanonical : ∃ s t, memoriesCanonical s ∧ step s = .next t :=
  ⟨State.reset, _, ⟨rfl, fun _ => rfl, fun _ h => nomatch h⟩, rfl⟩

theorem read_all {α : Type} (p : α → Prop) (d : α) (hd : p d) : ∀ (t : Tbl α) (k : Nat), (∀ e ∈ t, p e.2) → p (Tbl.read t k d)
  | [], _, _ => hd
  | (n, v) :: t, k, h => by
    unfold Tbl.read Tbl.find
    split
    · exact h (n, v) (.head _)
    · exact read_all p d hd t k fun e he => h e (.tail _ he)
theorem canonical_one (s : State) (h : Memory.wf s.mem = true) (hc : ∀ e ∈ s.cores, Memory.wf e.2.mem = true) (hm : ∀ e ∈ s.replay.images, Memory.wf e.2 = true) : memoriesCanonical s :=
  ⟨h, fun c => read_all (fun (k : Core) => Memory.wf k.mem = true) {} rfl s.cores c hc, hm⟩

/-! ## Scalar instructions -/

/-- One register after one instruction of the user's firing that retires. -/
def reg (i : Instr) (s : State) (r : Reg) : Option Word :=
  match exec i s with
  | .next t => if t.k.status == .ready && t.stalled == [] then some (rd t.k r) else none
  | _ => none
/-- One guard after one instruction. -/
def grd (i : Instr) (s : State) (q : QIx) : Option (Option Bool) :=
  match exec i s with
  | .next t => if t.k.status == .ready && t.stalled == [] then some (guardOf t.k q) else none
  | _ => none
/-- The cause and EINFO with which one instruction parks. -/
def parks (i : Instr) (s : State) : Option (Nat × Nat) :=
  match exec i s with
  | .next t => if t.k.status == .parked then some (t.k.ecause.toNat, t.k.einfo.toNat) else none
  | _ => none
/-- Whether one instruction waits at issue. -/
def waits (i : Instr) (s : State) : Bool :=
  match exec i s with
  | .next t => t.stalled == s.stalled ++ [s.cur] && t.k.pc == s.k.pc
  | _ => false
/-- The PC after one instruction that does not park. -/
def pcOf (i : Instr) (s : State) : Option Nat :=
  match exec i s with
  | .next t => if t.k.status == .ready then some t.k.pc else none
  | _ => none

/-- A firing with two operands in a0 and a1. -/
def ab (a b : Word) : State := one { firing with regs := [(8, a), (9, b)] }

theorem meets_IntegerFunctionsWriteTheirResult : aluForm (.div true 9 8 16) = some (true, 8, 9, 16) ∧ Settled user [16, 9, 8] := by decide
theorem meets_ImmediateFunctionsWriteTheirResult : ∃ f, unaryForm user.k.widl (.sltinLit 7 8 0) = some (8, 0, 12, f) ∧ Settled user [0, 8] :=
  ⟨_, rfl, by decide⟩
theorem meets_AddressesNameCoordinates : Settled user [16, 9, 8] ∧ (rd user.k 8).toNat < 2 ^ 25 := by decide
theorem meets_CresResolvesToFormOne : Settled user [16, 11] ∧ field (rd user.k 11) 63 62 = 1 := by decide
theorem meets_GuardsAreComparedAndResolved : Settled user [16, 8] ∧ guardOf user.k 2 = some false ∧ guardOf user.k 3 = none := by decide
theorem meets_ComparisonsWriteTheirGuard : ∃ f, compareForm (.cmpgi 5 8 .eq 0) = some ([8], 0, 4, f) ∧ Settled user [8]
    ∧ resolves (opsOf user user.cur.1 user.cur.2) 0 = false := ⟨_, rfl, by decide, by decide⟩
/-- A COMPACT that resolves q1, accepted and not ended. -/
def compacting : Op := { loadDue 16 with body := .copy { fn := .compact, ch := 0, dst := ⟨0, {}, false, none, 0, 0, 1, 0, 1⟩, src := ⟨0, {}, false, none, 0, 0, 1, 0, 1⟩, idx := ⟨0, {}, false, none, 0, 0, 1, 0, 1⟩, p := 0, res := some 1, dest := 0 } }
theorem meets_ComparisonsWriteTheirGuard_due : let s := withOps user [compacting]
    Settled s [8, 9] ∧ resolves (opsOf s s.cur.1 s.cur.2) 1 = true := by decide
theorem meets_GuardFunctionsResolve : ∃ f, guardForm (.gand 2 3 4) = some (4, f) ∧ f user.k = some (some false)
    ∧ resolves (opsOf user user.cur.1 user.cur.2) 4 = false := ⟨_, rfl, by decide, by decide⟩
theorem meets_GuardFunctionsResolve_open : ∃ f, guardForm (.gand 1 3 4) = some (4, f) ∧ f user.k = none
    ∧ resolves (opsOf user user.cur.1 user.cur.2) 4 = false := ⟨_, rfl, by decide, by decide⟩
theorem meets_NamedRegisterWithReplyDueWaits : let s := withOps user [loadDue 9]
    aluForm (.add false 9 8 16) = some (false, 8, 9, 16) ∧ ∃ r ∈ [16, 9, 8], busyReg (opsOf s s.cur.1 s.cur.2) r = true := by decide

/-- R131: sums wrap, and `.w` sign-extends its 32-bit result. -/
theorem test_add : reg (.add false 9 8 16) (ab (-1) 2) 16 = some 1 ∧ reg (.add true 9 8 16) (ab 0x7FFFFFFF 1) 16 = some 0xFFFFFFFF80000000 := by decide
theorem test_sub : reg (.sub false 9 8 16) (ab 2 5) 16 = some (-3) ∧ reg (.sub true 9 8 16) (ab 0x100000000 1) 16 = some (-1) := by decide
theorem test_logic : reg (.and false 9 8 16) (ab 12 10) 16 = some 8 ∧ reg (.or false 9 8 16) (ab 12 10) 16 = some 14
    ∧ reg (.xor false 9 8 16) (ab 12 10) 16 = some 6 ∧ reg (.andn false 9 8 16) (ab 12 10) 16 = some 4 := by decide
/-- Shift amounts are taken modulo the width (R131). -/
theorem test_shifts : reg (.shl false 9 8 16) (ab 3 65) 16 = some 6 ∧ reg (.shr false 9 8 16) (ab (-1) 63) 16 = some 1
    ∧ reg (.sar true 9 8 16) (ab 0x80000000 33) 16 = some 0xFFFFFFFFC0000000 ∧ reg (.rol true 9 8 16) (ab 0x80000001 4) 16 = some 0x18 := by decide
theorem test_compare_select : reg (.slt false 9 8 16) (ab (-1) 0) 16 = some 1 ∧ reg (.sltn false 9 8 16) (ab (-1) 0) 16 = some 0
    ∧ reg (.min false 9 8 16) (ab (-1) 0) 16 = some (-1) ∧ reg (.maxn false 9 8 16) (ab (-1) 0) 16 = some (-1)
    ∧ reg (.max false 9 8 16) (ab (-1) 0) 16 = some 0 ∧ reg (.minn false 9 8 16) (ab (-1) 0) 16 = some 0 := by decide
theorem test_products : reg (.mul false 9 8 16) (ab (-2) 3) 16 = some (-6) ∧ reg (.mulh false 9 8 16) (ab (-2) 3) 16 = some (-1)
    ∧ reg (.mulhn false 9 8 16) (ab (-2) 3) 16 = some 2 := by decide
/-- Division never traps: by zero all ones and the dividend; the most negative by -1 wraps (R131). -/
theorem test_division : reg (.div false 9 8 16) (ab 7 0) 16 = some (-1) ∧ reg (.rem false 9 8 16) (ab 7 0) 16 = some 7
    ∧ reg (.div false 9 8 16) (ab (-7) 2) 16 = some (-3) ∧ reg (.rem false 9 8 16) (ab (-7) 2) 16 = some (-1)
    ∧ reg (.div true 9 8 16) (ab 0x80000000 (-1)) 16 = some 0xFFFFFFFF80000000 ∧ reg (.divn false 9 8 16) (ab (-1) 2) 16 = some 0x7FFFFFFFFFFFFFFF
    ∧ reg (.remn true 9 8 16) (ab 0xFFFFFFFF 16) 16 = some 15 := by decide
theorem test_bit_counts : reg (.clz true 8 16) (ab 1 0) 16 = some 31 ∧ reg (.ctz false 8 16) (ab 0 0) 16 = some 64
    ∧ reg (.popc false 8 16) (ab (-1) 0) 16 = some 64 ∧ reg (.bswap true 8 16) (ab 0x11223384 0) 16 = some 0xFFFFFFFF84332211 := by decide
theorem test_extend : reg (.sext .h 8 16) (ab 0x18000 0) 16 = some 0xFFFFFFFFFFFF8000 ∧ reg (.zext .b 8 16) (ab (-1) 0) 16 = some 255 := by decide
theorem test_immediates : reg (.addi (-5) 8 16) (ab 2 0) 16 = some (-3) ∧ reg (.andi (-2) 8 16) (ab (-1) 0) 16 = some (-2)
    ∧ reg (.oriLit 0x3FFF 8 16) (ab 0x4000 0) 16 = some 0x7FFF ∧ reg (.xori 1 8 16) (ab 3 0) 16 = some 2
    ∧ reg (.sari 4 8 16) (ab (-32) 0) 16 = some (-2) ∧ reg (.roli 60 8 16) (ab 0x10 0) 16 = some 1 ∧ reg (.sltin (-1) 8 16) (ab 5 0) 16 = some 1
    ∧ reg (.slti (-1) 8 16) (ab 5 0) 16 = some 0 := by decide
theorem test_ldi_ldl : reg (.ldi (-1) 16) user 16 = some (-1) ∧ pcOf (.ldl 9 16) user = some 0x10C ∧ reg (.ldl 9 0) user 0 = some 0 := by decide
/-- Band 2 of widths 4, 6 and 5 stands above bit 10 (R126). -/
theorem test_wfld : reg (.wfld 2 8 16) (one { firing with widl := 4 + 6 * 64 + 5 * 4096, regs := [(8, 0x6C00 + 0x3FF)] }) 16 = some 27 := by decide
/-- Core (3, 1) of peer 2 at offset 0x40; then the package's own coordinate of a relative address (R65, R126). -/
theorem test_cadr_cxy : reg (.cadr 9 8 16) (ab (2 * 8192 + 128 + 3) 0x40) 16 = some (BitVec.ofNat 64 (2 ^ 62 + 0x40 + 2 * 2 ^ 50 + 3 * 2 ^ 43 + 2 ^ 37))
    ∧ reg (.cxy 8 16) (ab (BitVec.ofNat 64 (2 ^ 63 + 0x40 + 127 * 2 ^ 43 + 2 ^ 37)) 0) 16 = some (2 + 128 * 3) := by decide
theorem test_crel_cres : reg (.crel 9 8 16) (ab 129 8) 16 = some (BitVec.ofNat 64 (2 ^ 63 + 8 + 2 ^ 43 + 2 ^ 37))
    ∧ reg (.cres 8 16) (ab 0xC000000000000010 0) 16 = some (BitVec.ofNat 64 (2 ^ 62 + 0x10 + 3 * 2 ^ 43 + 2 * 2 ^ 37))
    ∧ parks (.cres 8 16) (ab (BitVec.ofNat 64 (2 ^ 63 + 62 * 2 ^ 37)) 0) = none
    ∧ parks (.cres 8 16) (ab (BitVec.ofNat 64 (2 ^ 63 + 61 * 2 ^ 37)) 0) = some (5, 0) := by decide
theorem test_movg : reg (.movg false 1 8 16) (one { firing with regs := [(8, 9), (16, 4)] }) 16 = some 9
    ∧ reg (.movg true 1 8 16) (one { firing with regs := [(8, 9), (16, 4)] }) 16 = some 4 ∧ waits (.movg false 3 8 16) user = true := by decide
theorem test_cmpg : grd (.cmpgLt 9 8 3) (ab (-1) 0) 3 = some (some true) ∧ grd (.cmpgLtn 9 8 3) (ab (-1) 0) 3 = some (some false)
    ∧ grd (.cmpgEq 9 8 3) (ab 2 2) 3 = some (some true) ∧ grd (.cmpgNe 9 8 0) (ab 2 2) 0 = some (some true)
    ∧ grd (.cmpgGe 9 8 3) (ab 2 2) 3 = some (some true) ∧ grd (.cmpgGen 9 8 3) (ab 1 2) 3 = some (some false) := by decide
theorem test_cmpgi : grd (.cmpgi (-1) 8 .ge 3) (ab 0 0) 3 = some (some true) ∧ grd (.cmpgiLit 5 8 .eq 3) (ab 5 0) 3 = some (some true) := by decide
theorem test_guards : grd (.gset false 5) user 5 = some (some false) ∧ grd (.gclr 1) user 1 = some none ∧ grd (.gmov 1 5) user 5 = some (some true)
    ∧ grd (.gnot 2 5) user 5 = some (some true) ∧ grd (.gand 2 3 5) user 5 = some (some false) ∧ grd (.gor 3 1 5) user 5 = some (some true)
    ∧ waits (.gor 3 2 5) user = true := by decide
theorem test_reply_due_waits : waits (.add false 9 8 16) (withOps user [loadDue 9]) = true ∧ waits (.ldi 1 16) (withOps user [loadDue 16]) = true := by decide

/-! ## Floating point -/

theorem meets_FpuFunctionsWriteTheirResult : ∃ f, fpuForm (.fmac .s .dyn 9 8 16) = some (.s, .dyn, f, 9, 8, 16) ∧ Settled user [16, 9, 8] :=
  ⟨_, rfl, by decide⟩
theorem meets_FpuSelectionsAndConversions : Settled user [16, 9, 8] ∧ resolves (opsOf user user.cur.1 user.cur.2) 5 = false := by decide
theorem meets_FpuSelectionsAndConversions_due : let s := withOps user [compacting]
    Settled s [16, 9, 8] ∧ resolves (opsOf s s.cur.1 s.cur.2) 1 = true := by decide
theorem meets_RoundingIsOfTheExactResult : 2 ≤ (⟨8, 23⟩ : Ieee).eb ∧ 1 ≤ (⟨8, 23⟩ : Ieee).fb ∧ 0 < 2 ^ 25 ∧ 2 ^ ((⟨8, 23⟩ : Ieee).fb + 2) ≤ 2 ^ 25 := by decide
theorem meets_ArithmeticIsExactBeforeRounding : (-3 : Int) ≤ 0 ∧ (-3 : Int) ≤ -3 ∧ (-3 : Int) ≤ 5 ∧ (-3 : Int) + -3 ≤ -3 ∧ 0 < 7 := by decide
/-- 1.5 + 0.25 in f64; 1/3 in f32 rounds to nearest and upward (R135, R150). -/
theorem test_fadd_fdiv : reg (.fadd .d .dyn 9 8 16) (ab 0x3FF8000000000000 0x3FD0000000000000) 16 = some 0x3FFC000000000000
    ∧ reg (.fdiv .s .rne 9 8 16) (ab 0x3F800000 0x40400000) 16 = some 0x3EAAAAAB ∧ reg (.fdiv .s .rtz 9 8 16) (ab 0x3F800000 0x40400000) 16 = some 0x3EAAAAAA := by decide
/-- 2 * 3 + 4 in f32; the square root of 2 (R150). -/
theorem test_fmac_fsqrt : reg (.fmac .s .rne 9 8 16) (one { firing with regs := [(8, 0x40000000), (9, 0x40400000), (16, 0x40800000)] }) 16 = some 0x41200000
    ∧ reg (.fsqrt .s .rne 8 16) (ab 0x40000000 0) 16 = some 0x3FB504F3 ∧ reg (.fmul .d .dyn 9 8 16) (ab 0x4000000000000000 0xC008000000000000) 16 = some 0xC018000000000000
    ∧ reg (.fsub .d .dyn 9 8 16) (ab 0x3FF0000000000000 0x3FF0000000000000) 16 = some 0 := by decide
theorem test_fmin_fabs : reg (.fmin .s 9 8 16) (ab 0 0x80000000) 16 = some 0x80000000 ∧ reg (.fmax .s 9 8 16) (ab 0x7FC00000 0x3F800000) 16 = some 0x3F800000
    ∧ reg (.fabs .d 8 16) (ab 0xBFF0000000000000 0) 16 = some 0x3FF0000000000000 ∧ reg (.fneg .s 8 16) (ab 0x3F800000 0) 16 = some 0xBF800000
    ∧ reg (.fclass .s 8 16) (ab 0x80000000 0) 16 = some 8 := by decide
theorem test_fcvt : reg (.fcvt .d .rtz ⟨false, .s32⟩ 8 16) (ab 0xC004000000000000 0) 16 = some (-2)
    ∧ reg (.fcvt .s .dyn ⟨true, .s64⟩ 8 16) (ab (-3) 0) 16 = some 0xC0400000 := by decide
theorem test_fcmpg : grd (.fcmpg .s 9 8 .lt 5) (ab 0xBF800000 0x3F800000) 5 = some (some true)
    ∧ grd (.fcmpg .s 9 8 .uo 5) (ab 0x7FC00000 0x3F800000) 5 = some (some true) := by decide
/-- A division by zero whose trap is enabled parks with FPX and DZ in EINFO (R137, R138). -/
theorem test_fpx_parks : parks (.fdiv .s .rne 9 8 16) (one { firing with fpc := 1 + 8 * 2, regs := [(8, 0x3F800000)] }) = some (9, 2) := by decide

/-! ## Control flow and system instructions -/

theorem meets_BranchesAndJumpsReachTheirTarget : Settled user [8] ∧ BzTaken .gt0 (rd user.k 8) := ⟨by decide, by unfold BzTaken; decide⟩
theorem meets_BzBranchesOnItsRegister_not : Settled user [8] ∧ ¬ BzTaken .le0 (rd user.k 8) := ⟨by decide, by unfold BzTaken; decide⟩
theorem meets_BzBranchesOnItsRegister_due : let s := withOps user [loadDue 8]
    busyReg (opsOf s s.cur.1 s.cur.2) 8 = true := by decide
theorem meets_BgBranchesOnItsGuard : guardOf user.k 1 = some (!false) ∧ guardOf user.k 2 = some false ∧ guardOf user.k 3 = none := by decide
theorem meets_JumpsReachTheirTarget : Settled user [23] := by decide
theorem meets_CallsAndReturnsMoveTheWindow : busyWindow (opsOf user user.cur.1 user.cur.2) = false ∧ user.k.frames.length < 3 ∧ Settled user [17] := by decide
theorem meets_CallThenReturnRestoresTheWindow : busyWindow (opsOf user user.cur.1 user.cur.2) = false ∧ user.k.frames.length < 3 ∧ user.k.pc % 4 = 0
    ∧ user.k.pc < 0x2FFFC ∧ (0 : Int) ≤ user.k.pc + 4 * (40 : BitVec 24).toInt ∧ user.k.pc + 4 * (40 : BitVec 24).toInt ≤ 0x2FFFC := by decide
/-- A firing one call deep. -/
def called : State := one { firing with depth := 1, frames := [List.replicate 16 7] }
theorem meets_RetRestoresTheCaller : ∃ f fs, busyWindow (opsOf called called.cur.1 called.cur.2) = false ∧ Settled called [regNo 23]
    ∧ called.k.depth ≠ 0 ∧ called.k.frames = f :: fs ∧ f.length = 16 := ⟨_, _, by decide, by decide, by decide, rfl, rfl⟩
theorem meets_RetRestoresTheCaller_depth0 : busyWindow (opsOf user user.cur.1 user.cur.2) = false ∧ Settled user [regNo 23] ∧ user.k.depth = 0 := by decide
/-- A LOOP at 0x100 whose slots are the two words behind it. -/
def looping (w1 w2 : Nat) : State := withWords user [0x15 * 4 + 8 * 256 + (2 ^ 15 - 4) * 2 ^ 17, w1, w2]
theorem meets_LoopDecrementsAndSetsItsSlots : let s := looping 0 4
    ∃ i1 i2 ws1 ws2 u1 u2, Settled s [8] ∧ fetchInstr s s.cur.1 (bankCore s s.cur.1 s.cur.2) (s.k.pc + 4) = .ok (ws1, u1) ∧ decode ws1 = .ok i1
      ∧ fetchInstr s s.cur.1 (bankCore s s.cur.1 s.cur.2) (s.k.pc + 4 + 4 * ws1.length) = .ok (ws2, u2) ∧ decode ws2 = .ok i2
      ∧ slotForbidden i1 = false ∧ slotForbidden i2 = false :=
  ⟨_, _, _, _, _, _, by decide, rfl, rfl, rfl, rfl, rfl, rfl⟩
theorem meets_LoopDecrementsAndSetsItsSlots_forbidden : let s := looping 0x50 0
    ∃ i1 i2 ws1 ws2 u1 u2, Settled s [8] ∧ fetchInstr s s.cur.1 (bankCore s s.cur.1 s.cur.2) (s.k.pc + 4) = .ok (ws1, u1) ∧ decode ws1 = .ok i1
      ∧ fetchInstr s s.cur.1 (bankCore s s.cur.1 s.cur.2) (s.k.pc + 4 + 4 * ws1.length) = .ok (ws2, u2) ∧ decode ws2 = .ok i2
      ∧ (slotForbidden i1 = true ∨ slotForbidden i2 = true) :=
  ⟨_, _, _, _, _, _, by decide, rfl, rfl, rfl, rfl, .inl rfl⟩

theorem test_bz : pcOf (.bz (-3) true .ne0 8) user = some 0xF4 ∧ pcOf (.bz (-3) true .eq0 8) user = some 0x104
    ∧ parks (.bz (-100) true .b0s 8) user = some (5, 0) ∧ pcOf (.bz 1 true .lt0 9) user = some 0x104 := by decide
theorem test_bg : pcOf (.bg 4 true false 1) user = some 0x110 ∧ pcOf (.bg 4 true true 1) user = some 0x104 ∧ waits (.bg 4 true true 3) user = true := by decide
theorem test_jumps : pcOf (.j (-1)) user = some 0xFC ∧ pcOf (.jr 17) user = some 0x2000 ∧ parks (.jr 8) user = some (4, 0) ∧ parks (.jr 9) user = some (5, 0) := by decide
/-- A call moves the window: a0 is the caller's o0, l7 the return offset (R290). -/
theorem test_call : (match exec (.call 4) (one { firing with regs := [(8, 1), (24, 2)] }) with
    | .next t => t.k.pc == 0x110 && rd t.k 8 == 2 && rd t.k 23 == 0x104 && rd t.k 24 == 2 && t.k.depth == 1
    | _ => false) = true := by decide
theorem test_callr : pcOf (.callr 17) user = some 0x2000 ∧ parks (.callr 9) user = some (5, 0) := by decide
theorem test_ret : (match exec .ret called with
    | .next t => t.k.pc == 0x240 && rd t.k 8 == 7 && rd t.k 23 == 7 && t.k.depth == 0 && t.k.frames == []
    | _ => false) = true ∧ (parks .ret user).map (·.1) = some 1 := by decide
theorem test_loop : (match exec (.loop (-4) 8) (looping 0 4) with
    | .next t => t.k.pc == 0x104 && rd t.k 8 == 4 && t.k.loop == some ⟨1, true, 0xF0⟩
    | _ => false) = true ∧ (parks (.loop (-4) 8) (looping 0 0x50)).map (·.1) = some 1 := by decide

/-- A firing whose handler stands at 0x800. -/
def handled : State := one { firing with tvec := 0x800 }
/-- That firing in its handler. -/
def inHandler : State := one { firing with tvec := 0x800, epc := 0x300, estat := 1 }
/-- A store of the context to its own banks, not yet written. -/
def storeDue : Op := { loadDue 16 with body := .store 8 1 false none false false }
theorem meets_NopPrefAndSynciOnlyRetire : Settled user [8, 9] ∧ ownStorePending user = false ∧ ownStorePending (withOps user [storeDue]) = true := by decide
theorem meets_FenceWaitsThenRetires : let ops := opsOf user user.cur.1 user.cur.2
    ops.any (fun o => live o && (isLoad o || isAmo o)) = false ∧ releaseReady ops user.nextId .sys = true ∧ peerDirty user (dieOf user.cur.1) = []
      ∧ user.sent.any (fun r => r.core == wbCore (dieOf user.cur.1)) = false := by decide
theorem meets_FenceWaitsThenRetires_due : let s := { withOps user [loadDue 16] with nextId := 9 }
    releaseReady (opsOf s s.cur.1 s.cur.2) s.nextId .core = false ∧ (opsOf s s.cur.1 s.cur.2).any (fun o => live o && (isLoad o || isAmo o)) = true := by decide
theorem meets_TrapsEnterTheHandlerAndReturn : canHandle handled ∧ ¬ canHandle user ∧ ¬ canHandle inHandler := by unfold canHandle; decide
theorem meets_TrapAndBrk_watched : let s := { user with stops := [(0, { gtid := 0x0001000000000000, gmask := -1, w2 := 0x80000000 })] }
    watched s (gtidOf s.k) = true ∧ watched user (gtidOf user.k) = false := by decide
theorem meets_HretReturnsFromTheHandler : inHandler.k.estat.getLsbD 0 = true ∧ user.k.estat.getLsbD 0 = false := by decide
theorem meets_TrapThenHretComesBack : canHandle handled ∧ handled.k.loop = none ∧ handled.k.pc + 4 < 2 ^ 18 := by unfold canHandle; decide
/-- A firing that has been told of two events. -/
def told : State := one { firing with events := 2, regs := [(8, BitVec.ofNat 64 (2 ^ 62 + 3 * 2 ^ 43 + 2 * 2 ^ 37)), (9, 0x20005)] }
theorem meets_EventsAreCountedAndTaken : Settled told [16] ∧ told.k.events ≠ 0 ∧ user.k.events = 0 := by decide
theorem meets_EvpostCountsOneEvent : Settled told [8] ∧ coreNamed told (rd told.k 8) = some (0, 3, 2) ∧ told.coreExists 3 2 = true
    ∧ (told.core (2 * 128 + 3)).ctxs.Pairwise (fun e f => e.1 ≠ f.1) := by decide
theorem meets_EvpostCountsOneEvent_unnamed : coreNamed user (rd user.k 8) = none := by decide
theorem meets_EvpostCountsOneEvent_absent : let s := { told with devcap := 0x37FFE }
    coreNamed s (rd s.k 8) = some (0, 3, 2) ∧ s.coreExists 3 2 = false := by decide
/-- An episode of barrier 5 for two contexts, one of which has arrived. -/
def gathering : State := { told with barriers := [⟨4, 1, 259, .core, 5, 2, 1, []⟩] }
theorem meets_BarriersGatherTheirContexts : Settled told [9] ∧ told.k.arrival = none ∧ (rd told.k 9).toNat / 2 ^ 8 % 2 ^ 8 = 0
    ∧ (rd told.k 9).toNat / 2 ^ 32 = 0 ∧ (rd told.k 9).toNat / 2 ^ 16 % 2 ^ 16 ≠ 0 ∧ releaseReady (opsOf told told.cur.1 told.cur.2) told.nextId .core = true
    ∧ told.barriers.find? (fun b => b.num == 5) = none := by decide
theorem meets_BarArrivesWaitsAndDeparts_second : let s := gathering
    s.barriers.find? (fun b => b.dom == domOf s.k && b.scope == .core && b.inst == instanceOf .core s.cur.1 && b.num == (rd s.k 9).toNat % 256) = some ⟨4, 1, 259, .core, 5, 2, 1, []⟩ := by decide
theorem meets_BarArrivesWaitsAndDeparts_malformed : user.k.arrival = none ∧ (rd user.k 8).toNat / 2 ^ 16 % 2 ^ 16 = 0 := by decide
theorem meets_BarArrivesWaitsAndDeparts_arrived : let s := one { firing with arrival := some 4 }
    s.k.arrival.isSome = true ∧ s.k.departed = false := by decide
theorem meets_UserCodeRaisesPriv : supervisorRow (.front 8 16) = true ∧ isSuper user user.k = false ∧ Settled user (supervisorRegs (.front 8 16)) := by decide
theorem meets_HaltAndSvcReachTheirReaders : isSuper super super.k = true := by decide
/-- A firing with a message at 0x2000 for its supervisor's core (4, 2). -/
def calls : State := (one { firing with regs := [(8, 0xC000000000002000), (9, BitVec.ofNat 64 (2 ^ 62 + 4 * 2 ^ 43 + 2 * 2 ^ 37)), (10, 0xC000000000002008)] }).updCore 259
  fun k => { k with mem := writeBytes [] 0x2010 [0x11] }
theorem meets_SvcSendsItsMessage : Settled calls [9, 8] ∧ (match localSpan calls (rd calls.k 8) 32 with | .ok o => o == 0x2000 | .error _ => false) = true
    ∧ coreNamed calls (rd calls.k 9) = some (0, 4, 2) ∧ calls.coreExists 4 2 = true ∧ isSuper calls calls.k = false ∧ calls.k.supv.toNat % 2 ^ 25 = 2 * 128 + 4
    ∧ releaseReady (opsOf calls calls.cur.1 calls.cur.2) calls.nextId .pkg = true ∧ (rd calls.k 10).toNat % 32 ≠ 0
    ∧ (calls.dom (domOf calls.k)).waitMsgs.length < 256 ∧ 256 ≤ (List.replicate 256 (⟨0, 0, 0, 0⟩ : SMsg)).length := by decide
/-- The supervisor with the command RESUME at 0x2000 for a GTID of its domain and a core that holds it. -/
def orders : State := ({ super with cores := [(259, { ctxs := [(0, firing)] }), (260,
    { mem := writeBytes [] 0x2000 [1, 0, 0, 0, 0, 0, 0, 0, 0, 0, 0, 0, 0, 0, 1, 0]
      ctxs := [(0, { superv with regs := [(8, 0xC000000000002000), (9, BitVec.ofNat 64 (2 ^ 62 + 3 * 2 ^ 43 + 2 * 2 ^ 37))] })] })] })
theorem meets_SvcSendsItsMessage_command : let bs := localBytes orders 0x2000 32
    isSuper orders orders.k = true ∧ holdsDom orders 1 (2 * 128 + 3) = true ∧ leWord (bs.take 8) = 1 ∧ leWord ((bs.drop 16).take 8) = 0
      ∧ leWord ((bs.drop 24).take 8) = 0 ∧ (leWord ((bs.drop 8).take 8)).toNat / 2 ^ 48 = domOf orders.k := by decide

theorem test_nop_synci : pcOf .nop user = some 0x104 ∧ pcOf .synci user = some 0x104 ∧ waits .synci (withOps user [storeDue]) = true ∧ pcOf (.pref 9 8) user = some 0x104 := by decide
theorem test_fence : (match exec (.fence .pkg true true) user with | .next t => t.k.region == 2 && t.k.pc == 0x104 | _ => false) = true
    ∧ waits (.fence .core false true) (withOps user [loadDue 16]) = true := by decide
/-- TRAP enters the handler with the return point in EPC and INH set, or parks (R354, R355). -/
theorem test_trap : (match exec (.trap 9) handled with
    | .next t => t.k.pc == 0x800 && t.k.epc == 0x104 && t.k.ecause == 19 && t.k.einfo == 9 && t.k.estat == 1
    | _ => false) = true ∧ parks (.trap 9) inHandler = some (19, 9) := by decide
theorem test_brk : (match exec (.brk 3) handled with | .next t => t.k.pc == 0x800 && t.k.ecause == 18 && t.k.einfo == 3 | _ => false) = true
    ∧ parks (.brk 3) user = some (18, 3) := by decide
theorem test_hret : (match exec .hret inHandler with | .next t => t.k.pc == 0x300 && t.k.estat == 0 | _ => false) = true
    ∧ (parks .hret user).map (·.1) = some 1 := by decide
theorem test_evwait : reg (.evwait 16) told 16 = some 2 ∧ waits (.evwait 16) user = true := by decide
theorem test_evpost : (match exec (.evpost 8) told with | .next t => (t.ctx 259 0).events == 3 && (t.ctx 260 0).events == 0 | _ => false) = true := by decide
/-- The second of two arrivals completes the episode (R298). -/
theorem test_bar : (match exec (.bar .core 9) gathering with | .next t => t.barriers == [] && t.events == [.barrierDepart 4] && t.k.pc == 0x100 | _ => false) = true
    ∧ parks (.bar .core 8) user = some (21, 0x90) := by decide
theorem test_barrier_depart : (match exec (.barrierDepart 4) (one { firing with arrival := some 4 }) with | .next t => t.k.departed | _ => false) = true := by decide
theorem test_supervisor_only : (parks .halt user).map (·.1) = some 2 ∧ (match exec .halt super with | .next t => t.k.dhalt && t.k.pc == 0x104 | _ => false) = true := by decide
theorem test_svc : (match exec (.svc 9 8) calls with | .next t => ((t.dom 1).waitMsgs.map (·.d2)) == [0x11] | _ => false) = true
    ∧ (parks (.svc 9 10) calls).map (·.1) = some 4 := by decide

/-! ## CSRs -/

theorem meets_RegisterReadsGiveTheirValue : Settled user [16] ∧ CsrName.fpf ≠ .rchk ∧ fpBusy user user.cur.1 user.cur.2 = false ∧ user.rchkPresent = true := by decide
theorem meets_CsrWritesFollowTheirTable : ∃ f, csrForm (.csrsw .tvec 8 16) = some (.tvec, 8, some 16, f) ∧ Settled user [16, 8]
    ∧ written .tvec (csrGet user user.cur.1 user.cur.2 .tvec) (f (csrGet user user.cur.1 user.cur.2 .tvec) (rd user.k 8)) = some 4 ∧ user.k.loop = none :=
  ⟨_, rfl, by decide, by decide, rfl⟩
/-- An accepted VADD of the context, not yet ended. -/
def adding : Op := { loadDue 16 with body := .vec { fn := .vadd, v := vx0, d := ⟨0, {}, false, none, 0, 0, 1, 0, 1⟩, a := ⟨0, {}, false, none, 0, 0, 1, 0, 1⟩, b := ⟨0, {}, false, none, 0, 0, 1, 0, 1⟩, c := ⟨0, {}, false, none, 0, 0, 1, 0, 1⟩, scalar := 0, fpc := 1, ver := 3, q := (0, 0), guarded := {} } }
theorem meets_CsrWritesFollowTheirTable_busy : let s := withOps user [adding]
    ∃ f, csrForm (.csrwr .fpf 8) = some (.fpf, 8, none, f) ∧ fpBusy s s.cur.1 s.cur.2 = true ∧ Settled s [8] := ⟨_, rfl, by decide, by decide⟩
theorem meets_PrivilegedCsrWritesRaisePriv : ∃ f, csrForm (.csrclr .migth 8 16) = some (.migth, 8, some 16, f) ∧ csrPriv .migth = true
    ∧ csrConst .coord = true ∧ isSuper user user.k = false := ⟨_, rfl, by decide⟩
theorem meets_MachineRegistersAreWritten : Settled super [8] ∧ isSuper super super.k = true ∧ super.rchkPresent = true
    ∧ (({ super with cores := [(260, { pmcsel := 2 ^ 37, ctxs := [(0, superv)] })] } : State).core 260).pmcsel.toNat / 2 ^ 37 % 2 = 1 := by decide
theorem meets_RegisterWriteMovesTakeEffect : (user.core (bankCore user 259 0)).ops.any readsQ4 = false ∧ fpBusy user 259 0 = false
    ∧ (user.core 259).windows = [] ∧ (user.core 259).stash = [] ∧ flushPending user 259 0 0 bankEnd = false ∧ fpBusy (withOps user [adding]) 259 0 = true := by decide
/-- An accepted VQEXP, which reads the q4 table. -/
def expanding : Op := { adding with body := .vec { fn := .vqexp, v := vx0, d := ⟨0, {}, false, none, 0, 0, 1, 0, 1⟩, a := ⟨0, {}, false, none, 0, 0, 1, 0, 1⟩, b := ⟨0, {}, false, none, 0, 0, 1, 0, 1⟩, c := ⟨0, {}, false, none, 0, 0, 1, 0, 1⟩, scalar := 0, fpc := 1, ver := 3, q := (0, 0), guarded := {} } }
theorem meets_CsrWritesFollowTheirTable_q4 : let s := withOps user [expanding]
    ∃ f, csrForm (.csrwr .qtlo 8) = some (.qtlo, 8, none, f) ∧ (s.core (bankCore s s.cur.1 s.cur.2)).ops.any readsQ4 = true
      ∧ (user.core (bankCore user user.cur.1 user.cur.2)).ops.any readsQ4 = false ∧ Settled s [8] := ⟨_, rfl, by decide, by decide, by decide⟩
/-- A core with one dirty stash sector of device memory at 0x10000. -/
def stashing : State := user.updCore 259 fun k => { k with
  stsz := 1, windows := [⟨0x2C000, 0x1000, 0x10000⟩], mem := writeBytes [] 0x2C000 [1, 2]
  stash := [(0xB00, ⟨⟨.dev 0x10000, false, false, false, 0, 1, none⟩, true, false⟩)] }
/-- A store through the window, not yet performed. -/
def windowStore : Op := { storeDue with target := some ⟨.dev 0x10000, false, false, false, 0, 1, some 0x2C000⟩ }
theorem meets_RegisterWriteMovesTakeEffect_waits : flushPending (flushSpan (withOps stashing [windowStore]) 259 0 0 bankEnd) 259 0 0 bankEnd = true := by decide
theorem meets_RegisterWriteMovesTakeEffect_held : (withOps user [expanding]).core (bankCore user 259 0) |>.ops.any readsQ4 := by decide

/-- COORD holds x, y, die and PKID; DEVCAP the part's word (R5, R125). -/
theorem test_csrrd : reg (.csrrd .coord 16) user 16 = some 0x103 ∧ reg (.csrrd .devcap 16) user 16 = some 0x37FFF ∧ reg (.csrrd .supv 16) user 16 = some 0x104 := by decide
/-- The reserved bits of TVEC stay zero; the old value goes to D (R46, R353). -/
theorem test_csrwr : (match exec (.csrwr .tvec 9) user with | .next t => t.k.tvec == 0x3FFFC && t.k.pc == 0x104 | _ => false) = true
    ∧ (parks (.csrwr .migth 8) user).map (·.1) = some 2 := by decide
theorem test_csrsw_set_clr : reg (.csrsw .fpc 8 16) user 16 = some 1 ∧ (match exec (.csrset .reix 8 16) (one { firing with reix := 0x10 }) with | .next t => t.k.reix == 0x15 | _ => false) = true
    ∧ (match exec (.csrclr .reix 8 16) (one { firing with reix := 0x15 }) with | .next t => t.k.reix == 0x10 | _ => false) = true := by decide
theorem test_cntrd : reg (.cntrd 2 16) (user.updCore 259 fun k => { k with pmc := [(2, 77)] }) 16 = some 77 := by decide
theorem test_register_moves : (match exec (.migthWrite 0x10005) { user with migCount := [(1, 4)] } with | .next t => t.migth == 5 && t.migCount == [] | _ => false) = true
    ∧ (match exec (.pcapWrite 3) user with | .next t => t.pcap == 500 | _ => false) = true
    ∧ (match exec .rchkClr { user with tags := [(1, {})] } with | .next t => t.tags == [] | _ => false) = true
    ∧ (match exec (.rchkEnWrite true) { user with tags := [(1, {})] } with | .next t => t.tags == [] && t.rchkEn | _ => false) = true := by decide
theorem test_register_moves_core : (match exec (.stszWrite 2) user with | .next t => (t.core 259).stsz == 2 | _ => false) = true
    ∧ (match exec (.qtableWrite true 9) user with | .next t => (t.core 259).qthi == 9 | _ => false) = true
    ∧ (match exec (.qtableWrite true 9) (withOps user [expanding]) with | .next t => t.events == [.qtableWrite true 9] | _ => false) = true
    ∧ (match exec (.fpCsrAccess (.writeFpf 0xFF)) user with | .next t => t.k.fpf == 0x3F | _ => false) = true := by decide

/-! ## Loads, stores, atomics -/

/-- A firing whose a3 names 0x2000 of its banks, where 8 bytes stand. -/
def banks : State := (one { firing with regs := [(8, 0x1122334455667788), (11, 0xC000000000002000)] }).updCore 259
  fun k => { k with mem := writeBytes [] 0x2000 [0x80, 0xFF, 3, 4, 5, 6, 7, 8] }
theorem idle_banks : Idle banks := ⟨by decide, by decide, by decide, by decide, by decide, by decide⟩
theorem plain_banks : PlainBanks banks 259 := ⟨rfl, rfl, rfl, rfl, rfl, by decide, by decide⟩
theorem meets_LoadsStoresAndAmosActOnTheirBytes : loadForm (.ld (-1) .s16 11 16) = some (4, 11, 16, BitVec.ofInt 64 ((-1 : BitVec 11).toInt * 2), .s16, none)
    ∧ Idle banks ∧ PlainBanks banks 259 ∧ LocalAt (rd banks.k 11 + BitVec.ofInt 64 ((-1 : BitVec 11).toInt * 2)) 0x1FFE 2 :=
  ⟨rfl, idle_banks, plain_banks, by unfold LocalAt; decide⟩
theorem meets_StoreThenPerformWritesItsBytes : storeForm (.lsxStore ⟨false, .sys, .rel, true, .d, 11, 8, 8⟩) = some (12, 11, 8, BitVec.signExtend 64 (8 : BitVec 32), .d, some .sys)
    ∧ Idle banks ∧ PlainBanks banks 259 ∧ LocalAt (rd banks.k 11 + BitVec.signExtend 64 (8 : BitVec 32)) 0x2008 8 ∧ ReleaseFree banks (some .sys) :=
  ⟨rfl, idle_banks, plain_banks, by unfold LocalAt; decide, fun _ => by decide⟩
theorem meets_AmoReplacesItsLocationInOneStep : ∃ m f, amoForm (.acas { amo0 with a := 11, b := 8, c := 9, d := 16, sz := true, ord := .acqrel, scope := .sys }) = some (m, f)
    ∧ Idle banks ∧ PlainBanks banks 259 ∧ LocalAt (rd banks.k 11 + BitVec.signExtend 64 (0 : BitVec 32)) 0x2000 8 ∧ ReleaseFree banks (some .sys) :=
  ⟨_, _, rfl, idle_banks, plain_banks, by unfold LocalAt; decide, fun _ => by decide⟩
theorem meets_AccessesResolveFaultOrWait : accessForm (.ld 0 .d64 11 16) banks.k = some (0xC000000000002000, 8, [16, 11], true, false) ∧ Settled banks [16, 11]
    ∧ (0xC000000000002000 : Word).toNat % 8 = 0 ∧ acqPending (opsOf banks 259 0) = false ∧ rangePending (opsOf banks 259 0) = false ∧ loadsOut (opsOf banks 259 0) < 8
    ∧ (banks.core 259).ops.length < 64 ∧ bufferUsed banks 259 < 16 ∧ coveredBy banks 259 0 (opsOf banks 259 0) 0xC000000000002000 8 = false := ⟨by decide, by decide, by decide, by decide⟩
theorem meets_AccessFaults_unaligned : accessForm (.ld 0 .d64 8 16) user.k = some (5, 8, [16, 8], true, false) ∧ (5 : Word).toNat % 8 ≠ 0 := ⟨by decide, by decide⟩
theorem meets_AccessFaults_held : let s := withOps banks [{ loadDue 20 with body := .load 8 false 20 (some .cl) false }]
    acqPending (opsOf s 259 0) = true ∧ Settled s [16, 11] := by decide
theorem meets_AccessFaults_faulting : (∃ p, (access user 259 0 0x2000000000000000 true false).1 = .error p) := ⟨_, rfl⟩
theorem meets_AddressFormsResolve : isSuper banks (banks.ctx 259 0) = false ∧ field (0xC000000000002FF8 : Word) 63 62 = 3 ∧ field (0xC000000000002FF8 : Word) 61 18 = 0
    ∧ windowAt banks 259 0x2FF8 = none := by decide
theorem meets_AddressFormsResolve_mapped : let s := { user with tlb := [⟨0, 259, 1, 1, 0x000000010010000F, false⟩, ⟨1, clusterOf 259, 1, 1, 0x000000010010000F, false⟩, ⟨2, 0, 1, 1, 0x000000010010000F, false⟩] }
    faulted s (domOf (s.ctx 259 0)) 1 = false ∧ (tlbHit s 259 1 0x10000).map (·.2) = some false := by decide

/-- A load from the banks binds two bytes, sign-extended; its reply counts one event (R81, R84, R295). -/
theorem test_load : (match exec (.ld 0 .s16 11 16) banks with
    | .next t => match exec (.loadReply 259 0) t with | .next u => rd u.k 16 == 0xFFFFFFFFFFFFFF80 && u.k.events == 1 && u.k.pc == 0x104 | _ => false
    | _ => false) = true := by decide
theorem test_lsx_load : (match exec (.lsxLoad ⟨false, .core, .plain, false, .n8, 11, 16, 1⟩) banks with
    | .next t => match exec (.loadReply 259 0) t with | .next u => rd u.k 16 == 0xFF && u.k.pc == 0x10C | _ => false
    | _ => false) = true ∧ parks (.ld 0 .d64 8 16) user = some (4, 0) := by decide
theorem test_store : (match exec (.st 1 false .w 11 8) banks with
    | .next t => match exec (.storePerform 259 0) t with | .next u => readBytes (u.core 259).mem 0x2000 9 == [0x80, 0xFF, 3, 4, 0x88, 0x77, 0x66, 0x55, 0] | _ => false
    | _ => false) = true := by decide
theorem test_lsx_store : (match exec (.lsxStore ⟨false, .cl, .rel, false, .b, 11, 8, 7⟩) banks with
    | .next t => match exec (.storePerform 259 0) t with | .next u => readByte (u.core 259).mem 0x2007 == 0x88 && u.k.region == 1 | _ => false
    | _ => false) = true := by decide
/-- The bytes at 0x2000 and the destination after one AMO with B in a0. -/
def amoOf (i : Instr) : Option (List Byte × Word) :=
  match exec i banks with
  | .next t => match execAmoPerform 259 0 t with | .next u => some (readBytes (u.core 259).mem 0x2000 4, rd u.k 16) | _ => none
  | _ => none
theorem test_amo : amoOf (.aadd { amo0 with a := 11, b := 8, d := 16 }) = some ([0x08, 0x77, 0x6A, 0x59], 0x0403FF80)
    ∧ amoOf (.aswap { amo0 with a := 11, b := 8, d := 16 }) = some ([0x88, 0x77, 0x66, 0x55], 0x0403FF80)
    ∧ amoOf (.aand { amo0 with a := 11, b := 8, d := 16 }) = some ([0x80, 0x77, 0x02, 0x04], 0x0403FF80)
    ∧ amoOf (.aor { amo0 with a := 11, b := 8, d := 16 }) = some ([0x88, 0xFF, 0x67, 0x55], 0x0403FF80)
    ∧ amoOf (.axor { amo0 with a := 11, b := 8, d := 16 }) = some ([0x08, 0x88, 0x65, 0x51], 0x0403FF80) := by decide
theorem test_amo_compare : amoOf (.amin { amo0 with a := 11, b := 9, d := 16 }) = some ([0, 0, 0, 0], 0x0403FF80)
    ∧ amoOf (.amax { amo0 with a := 11, b := 8, d := 16 }) = some ([0x88, 0x77, 0x66, 0x55], 0x0403FF80)
    ∧ amoOf (.aminn { amo0 with a := 11, b := 8, d := 16 }) = some ([0x80, 0xFF, 3, 4], 0x0403FF80)
    ∧ amoOf (.amaxn { amo0 with a := 11, b := 9, d := 16 }) = some ([0x80, 0xFF, 3, 4], 0x0403FF80)
    ∧ amoOf (.acas { amo0 with a := 11, b := 8, c := 9, d := 16 }) = some ([0x80, 0xFF, 3, 4], 0x0403FF80)
    ∧ amoOf (.afadd { amo0 with a := 11, b := 9, d := 16 }) = some ([0x80, 0xFF, 3, 4], 0x0403FF80) := by decide
/-- Form 01 with reserved bits is LADDR; a form-00 address above the canonical range is XLATE (R65). -/
theorem test_address_faults : parks (.ld 0 .d64 8 16) (ab 0x4000000000040000 0) = some (5, 0) ∧ parks (.ld 0 .d64 8 16) (ab 0x2000000000000000 0) = some (6, 0)
    ∧ parks (.ld 0 .d64 8 16) (ab 0xC000000000030000 0) = some (5, 0) := by decide

/-! ## Stash, caches, translation -/

/-- A firing about to map 0x1000 bytes of core (4, 2) at stash offset 0x2C000. -/
def mapping : State := ((one { firing with regs := [(8, 0x2C000), (9, BitVec.ofNat 64 (2 ^ 62 + 4 * 2 ^ 43 + 2 * 2 ^ 37 + 0x2000)), (10, 0x1000), (12, 0x2C100), (13, 0x2B000)] }).updCore 259
  fun k => { k with stsz := 1 }).updCore 260 fun k => { k with mem := writeBytes [] 0x2040 [1, 2, 3] }
/-- With that window. -/
def mapped : State := mapping.updCore 259 fun k => { k with windows := [⟨0x2C000, 0x1000, BitVec.ofNat 64 (2 ^ 62 + 4 * 2 ^ 43 + 2 * 2 ^ 37 + 0x2000)⟩] }
theorem mapped_source : ¬ ownSource mapping (rd mapping.k 9) := by
  intro h
  rcases h with h | ⟨-, o, h⟩
  · exact absurd h (by decide)
  · have e : formOf mapping mapping.cur.1 mapping.cur.1 false false (rd mapping.k 9) = .ok (.loc 260 0x2000) := rfl
    rw [e] at h
    injection h with h
    injection h with h
    exact absurd h (by decide)
theorem meets_StashesKeepTheirSectors : Settled mapping [9, 8, 10] ∧ (rd mapping.k 8).toNat % 256 = 0 ∧ (rd mapping.k 9).toNat % 256 = 0 ∧ (rd mapping.k 10).toNat % 256 = 0
    ∧ (rd mapping.k 8).toNat / 2 ^ 18 = 0 ∧ (rd mapping.k 8).toNat % 2 ^ 18 = stashFrom (mapping.core 259).stsz
    ∧ (rd mapping.k 8).toNat % 2 ^ 18 + (rd mapping.k 10).toNat ≤ 0x30000 ∧ (mapping.core 259).windows.length < 8 := by decide
theorem meets_StashFunctions_taken : ∃ w ∈ (mapped.core 259).windows, w.off < 0x2C100 + 0x100 ∧ 0x2C100 < w.off + w.len := ⟨_, .head _, by decide, by decide⟩
theorem meets_StashFunctions_outside : (rd mapping.k 13).toNat % 2 ^ 18 < stashFrom (mapping.core 259).stsz := by decide
theorem meets_StashFunctions_own : ownSource user (rd user.k 17) := .inl (by decide)
theorem meets_StashFunctions_unmap : windowFrom mapped 259 (rd mapped.k 8) = some ⟨0x2C000, 0x1000, BitVec.ofNat 64 (2 ^ 62 + 4 * 2 ^ 43 + 2 * 2 ^ 37 + 0x2000)⟩
    ∧ (∀ e ∈ (mapped.core 259).stash, e.2.dirty = false) ∧ flushPending mapped 259 0 0x2C000 0x1000 = false
    ∧ flushPending (withOps mapped [windowStore]) 259 0 0x2C000 0x1000 = true ∧ windowFrom mapped 259 (rd mapped.k 12) = none := by decide
theorem meets_StashFillBringsTheSourceSector : windowAt mapped 259 0x2C048 = some ⟨0x2C000, 0x1000, BitVec.ofNat 64 (2 ^ 62 + 4 * 2 ^ 43 + 2 * 2 ^ 37 + 0x2000)⟩
    ∧ (∃ tg, access mapped 259 mapped.cur.2 (localAddr 0x2C048) true false = (.ok tg, mapped) ∧ tg.place = .loc 260 0x2048) ∧ bankCore mapped 259 mapped.cur.2 = 259
    ∧ (mapped.core 260).bad = [] ∧ (mapped.core 260).rings = [] ∧ (mapped.core 260).dirl = [] ∧ Tbl.find (mapped.core 259).stash (0x2C048 / 64) = none
    ∧ Memory.wf (mapped.core 260).mem = true ∧ dieCut mapped (dieOf 260) = false := ⟨by decide, ⟨_, rfl, rfl⟩, by decide⟩
theorem meets_StashFill_none : windowAt mapped 259 0x2B000 = none ∧ (Tbl.find (stashing.core 259).stash (0x2C000 / 64)).isSome = true := by decide
/-- A firing with a range of two sectors of core (4, 2), then with that range handed over. -/
def ranging : State := one { firing with regs := [(8, BitVec.ofNat 64 (2 ^ 62 + 4 * 2 ^ 43 + 2 * 2 ^ 37 + 0x2000)), (9, 0x80)] }
theorem meets_RangeFunctionsAreHandedOver : Settled ranging [9, 8] ∧ (rd ranging.k 8).toNat % 64 = 0 ∧ (rd ranging.k 9).toNat % 64 = 0 ∧ (rd ranging.k 9).toNat ≠ 0
    ∧ acqPending (opsOf ranging 259 0) = false ∧ (ranging.core 259).ops.length < 64 := by decide
theorem meets_RangeFunctionsAreHandedOver_targets : ∃ l, (rangeTargets ranging 259 0 false true ((sectorsOf (rd ranging.k 8).toNat 0x80).map fun x => BitVec.ofNat 64 x)).1 = .ok l ∧ l ≠ [] :=
  ⟨_, rfl, by decide⟩
theorem meets_RangeFunctionsAreHandedOver_own : (rangeTargets user 259 0 true false ((sectorsOf (rd user.k 17).toNat 0x40).map fun x => BitVec.ofNat 64 x)).1 = .ok [] := rfl
/-- A DISCARD of one sector of device memory in the background. -/
def discarding : Op := { loadDue 0 with id := 5, target := none, body := .range true [⟨.dev 0x10000, false, false, false, 0, 1, none⟩] }
theorem meets_BackgroundRangeKeepsOrForgetsTheNewest : opById (withOps user [discarding]) 259 5 = some discarding
    ∧ ((mates (withOps user [discarding]) 259 discarding).any fun q => q.id < 5 && q.status == 0 && (isLoad q || isStore q || isAmo q)) = false
    ∧ ((mates (withOps user [loadDue 16, discarding]) 259 discarding).any fun q => q.id < 5 && q.status == 0 && (isLoad q || isStore q || isAmo q)) = true := by decide

/-- STMAP adds a window; a second one over it is LADDR reason 2; a misaligned one ALIGN (R85). -/
theorem test_stmap : (match exec (.stmap 9 8 10) mapping with | .next t => (t.core 259).windows == (mapped.core 259).windows | _ => false) = true
    ∧ parks (.stmap 9 8 10) mapped = some (5, 2) ∧ parks (.stmap 9 13 10) mapping = some (5, 1) := by decide
theorem test_stunmap_stflush : (match exec (.stunmap 8) mapped with | .next t => (t.core 259).windows == [] && t.k.pc == 0x104 | _ => false) = true
    ∧ parks (.stunmap 12) mapped = some (5, 4) := by decide
theorem test_stash_fill : (match exec (.stashFill 259 0x2C048) mapped with
    | .next t => readBytes (t.core 259).mem 0x2C040 4 == [1, 2, 3, 0] && (Tbl.read (t.core 260).dirl 0x20 {}).ptrs == [259]
    | _ => false) = true := by decide
theorem test_ranges : (match exec (.discard 9 8) ranging with | .next t => t.events == [.backgroundRangeOperation 259 0] && t.k.pc == 0x104 | _ => false) = true
    ∧ (match exec (.lastuse 9 8) ranging with | .next t => t.events == [.backgroundRangeOperation 259 0] | _ => false) = true
    ∧ parks (.discard 9 8) user = some (4, 0) ∧ (match execBackgroundRangeOperation 259 5 (withOps user [discarding]) with | .next t => (t.core 259).ops == [] | _ => false) = true := by decide

/-- Domain 1 with tables in die 0's memory whose page 1 is a leaf: R, W, U, MCNT, frame 0x99 of home `h`. -/
def paged (h : Nat) (mode peer : Nat) : State :=
  let m := writeBytes [] 0x100000 (natLE 8 (0x20 * 2 ^ 28 + 1))
  let m := writeBytes m 0x200000 (natLE 8 (0x30 * 2 ^ 28 + 1))
  let m := writeBytes m 0x300000 (natLE 8 (0x40 * 2 ^ 28 + 1))
  let m := writeBytes m 0x400008 (natLE 8 (0x99 * 2 ^ 28 + 2 ^ 26 + h * 2 ^ 20 + peer * 2 ^ 8 + mode * 2 ^ 6 + 0xF))
  { user with mem := m, doms := [(1, { dom1 with root := 0x100000 })] }
/-- The leaf of that page. -/
def leaf1 (h mode peer : Nat) : Word := BitVec.ofNat 64 (0x99 * 2 ^ 28 + 2 ^ 26 + h * 2 ^ 20 + peer * 2 ^ 8 + mode * 2 ^ 6 + 0xF)
/-- A core with one dirty stash sector of that page; with the leaf's W clear. -/
def stashed (flags : Nat) : State :=
  let s := paged 0 0 0
  { s with mem := writeBytes s.mem 0x400008 (natLE 8 (0x99 * 2 ^ 28 + flags)) }.updCore 259 fun k => { k with
    stsz := 1, windows := [⟨0x2C000, 0x1000, 0x10000⟩], mem := writeBytes [] 0x2C000 [1, 2]
    stash := [(0xB00, ⟨⟨.dev 0x990000, false, false, false, 0, 1, none⟩, true, false⟩)] }
theorem meets_StashFunctions_flush : storesThrough (stashed 0xF) 259 0 0x30000 = false ∧ (flushRights (stashed 0xF) 259 0 0 0x30000).1 = none
    ∧ flushPending (flushSpan (flushRights (stashed 0xF) 259 0 0 0x30000).2 259 0 0 0x30000) 259 0 0 0x30000 = false
    ∧ (∀ e ∈ ((stashed 0xF).core 259).stash, e.1 * 64 < 0x30000) ∧ ((stashed 0xF).core 259).stash.Pairwise (fun e f => e.1 ≠ f.1) := by decide
theorem meets_StashFunctions_denied : ∃ p, (flushRights (stashed 0xB) 259 0 0 0x30000).1 = some p ∧ p.page = none ∧ storesThrough (stashed 0xB) 259 0 0x30000 = false :=
  ⟨_, rfl, by decide, by decide⟩
theorem meets_PagesAreTranslatedAndMoved : let s := paged 1 0 0
    (s.dom? 1).isSome = true ∧ tlbHit s 259 1 0x10000 = none ∧ walk s (s.dom 1).root 0x10000 = some (leaf1 1 0 0, false) ∧ walk s (s.dom 1).root 0x20000 = none := by decide
theorem meets_TranslationsAreFilledAndDropped : let s := { super with tlb := [⟨0, 259, 1, 1, leaf1 1 0 0, false⟩] }
    Settled s [8] ∧ isSuper s s.k = true ∧ domOf s.k = 1 ∧ ((opsOf s 260 0).any fun o => isStore o && o.status == 0 && !doneAt o .pkg) = false
      ∧ (∀ p ∈ (s.dom 1).pkgs, p = s.pkid) ∧ translatedOut s 1 (namedPage s 1 none) = false ∧ s.sent = [] ∧ (tlbHit s 259 1 0x1FFFF).isSome = true := by decide
theorem meets_TranslationsAreFilledAndDropped_early : let s := withOps super [{ storeDue with ctx := 0 }]
    ((opsOf s 260 0).any fun o => isStore o && o.status == 0 && !doneAt o .pkg) = true ∧ isSuper s s.k = true ∧ (rd s.k 9).toNat / 2 ^ 57 ≠ 0 := by decide
/-- Page 1 lies on die 1 and die 0 has asked for it as often as MIGTH says. -/
def wanted : State := { paged 1 0 0 with migth := 4, migCount := [(migKey 1 1 0, 4)], dies := [(0, { pool := [7, 8] })] }
theorem meets_PagesMoveToTheDieThatUsesThem : let s := wanted
    (s.dom? 1).isSome = true ∧ walk s (s.dom 1).root 0x10000 = some (leaf1 1 0 0, false) ∧ leafAddr s (s.dom 1).root 0x10000 = some 0x400008 ∧ (s.die 0).pool = [7, 8]
      ∧ (leaf1 1 0 0).getLsbD 26 = true ∧ pteMode (leaf1 1 0 0) = 0 ∧ ptePeer (leaf1 1 0 0) = 0 ∧ pteHome (leaf1 1 0 0) ≠ 0 ∧ s.migth ≠ 0
      ∧ s.migth ≤ Tbl.read s.migCount (migKey 1 1 0) 0 ∧ moving s (frameAt 1 0x99) = false ∧ (s.die 0).isolated = false ∧ (s.die 0).reset = none
      ∧ (s.die 3).pool = [] := by decide
/-- The move of that page to frame 7 of die 0. -/
def moving1 : Move := ⟨2, 1, 0x10000, 0x400008, leaf1 1 0 0, 0x99, 1, 7, 0, 0, 0⟩
theorem meets_PagesMove_complete : let s := { paged 1 0 0 with moves := [moving1] }
    s.moves.find? (fun m => m.id == 2 && m.oldPeer == 0 && m.newPeer == 0) = some moving1 ∧ readEntry s 0x400008 = leaf1 1 0 0 ∧ Memory.wf s.mem = true
      ∧ (∀ l ∈ Tbl.keys s.dir, ¬ (frameAt 1 0x99 ≤ l * 256 ∧ l * 256 < frameAt 1 0x99 + 65536)) ∧ frameAt 1 0x99 ≠ frameAt 0 7 ∧ frameAt 1 0x99 % 65536 = 0
      ∧ dirEntry s (0x400008 / 256) = {} ∧ 0x400008 / 65536 ≠ frameAt 0 7 / 65536 ∧ 0x400008 / 65536 ≠ frameAt 1 0x99 / 65536 := by decide
theorem meets_PagesMove_changed : let s := { paged 2 0 0 with moves := [moving1] }
    s.moves.find? (fun m => m.id == 2 && m.oldPeer == 0 && m.newPeer == 0) = some moving1 ∧ readEntry s 0x400008 ≠ leaf1 1 0 0 := by decide
theorem meets_PagesMove_peer : let s := { paged 0 3 5 with pkid := 1, migth := 1, migPage := [(5 * 2 ^ 64 + frameAt 0 0x99 / 65536, 1)], dies := [(2, { pool := [9] })] }
    walk s (s.dom 1).root 0x10000 = some (leaf1 0 3 5, false) ∧ leafAddr s (s.dom 1).root 0x10000 = some 0x400008 ∧ poolDie s = some (2, 9)
      ∧ pteMode (leaf1 0 3 5) = 3 ∧ ptePeer (leaf1 0 3 5) = 5 ∧ s.migth ≤ Tbl.read s.migPage (5 * 2 ^ 64 + frameAt 0 0x99 / 65536) 0 ∧ unreachable s = none ∧ lineResent s 5 (frameAt 0 0x99) = false
      ∧ (∀ m ∈ s.moves, ¬ (m.dom = 1 ∧ m.va = 0x10000 ∧ m.oldPeer ≠ 0)) := by decide

theorem test_stflush : (match exec (.stflush 0) (stashed 0xF) with | .next t => ((t.core 259).stash.map (·.2.dirty)) == [false] | _ => false) = true
    ∧ parks (.stflush 0) (stashed 0xB) = some (7, 0) := by decide
theorem test_page_walk : (match exec (.pageWalk 259 1 0x10000) (paged 1 0 0) with | .next t => tlbHit t 259 1 0x1ABCD == some (leaf1 1 0 0, false) | _ => false) = true := by decide
theorem test_tlbinv : (match exec (.tlbinv 0) { super with tlb := [⟨0, 259, 1, 1, 0, false⟩, ⟨0, 259, 2, 1, 0, false⟩] } with | .next t => t.tlb.map (·.dom) == [2] && t.k.pc == 0x104 | _ => false) = true
    ∧ (parks (.tlbinv 0) user).map (·.1) = some 2 := by decide
theorem test_migration_start : (match exec (.migrationStart 1 0x10000 0) wanted with | .next t => (t.die 0).pool == [8] && t.moves.map (·.newPfn) == [7] && t.events == [.migrationComplete 0] | _ => false) = true := by decide
theorem test_pool_push : (match exec (.poolPush 2 5) user with | .next t => (t.die 2).pool == [5] | _ => false) = true := by decide
/-- A page of peer 5 is asked for with MIG (R64). -/
theorem test_cross_package_migration : (match execCrossPackageMigration 1 0x10000 [] { paged 0 3 5 with pkid := 1, migth := 1, migPage := [(5 * 2 ^ 64 + frameAt 0 0x99 / 65536, 1)], dies := [(2, { pool := [9] })] } with
    | .next t => (t.out.map fun o => match o with | .packet p => (p.op, p.dst) | _ => (0, 0)) == [(8, 5)]
    | _ => false) = true := by decide

/-! ## Directory, die caches, resets -/

/-- Die 1 holds line 0x100 dirty in its first sector. -/
def cached : State := { user with dies := [(1, { sectors := [(0x400, { bytes := List.replicate 64 9, dirty := true })] })], dir := [(0x100, { owner := some 1 })] }
theorem meets_DirectoryKeepsOneOwner : (cached.die 1).accepted.any (fun a => a.addr / 256 == 0x100) = false ∧ isOwn (0x100 * 256 + 255) = true
    ∧ (cached.die 1).sectors.all (fun e => e.2.bytes.length == 64) = true ∧ Memory.wf cached.mem = true := by decide
/-- Die 0 has accepted a store to line 0x100, of which dies 1 and 2 have copies. -/
def accepting (g : Bool) : State := { user with dies := [(0, { accepted := [⟨0x10008, [1, 2], g, 4144, 5, none⟩] })], dir := [(0x100, { sharers := [0, 1, 2] })] }
theorem meets_Directory_request : let s := accepting true
    (s.die 0).accepted.find? (fun a => a.addr / 256 == 0x100) = some ⟨0x10008, [1, 2], true, 4144, 5, none⟩ ∧ homeLost s 0x10008 = false ∧ homeBlocked s 0x10008 = false
      ∧ dieCut s 0 = false ∧ (homeOf 0x10008 = 8 → Config.hostFails s.free = false) ∧ victim s 0 0x100 = none
      ∧ moving s 0x10008 = false ∧ s.awaiting.all (fun q => q.line != 0x100) = true ∧ (dirEntry s 0x100).owner = none ∧ (dirEntry s 0x100).owed = []
      ∧ sectorAt s 0 (0x10008 / 64) = none ∧ poisoned s 0x10008 = false ∧ isOwn 0x10008 = true ∧ s.hinj.mode ≠ 1 ∧ s.replay.rstat ≠ 2
      ∧ (dirEntry s 0x100).sharers.filter (· != 0) ≠ [] := by decide
/-- Die 1 owes an acknowledgement of line 0x100 since time 100. -/
def owing : State := { cached with time := 900, dir := [(0x100, { sharers := [1], owed := [(1, 1, 100)] })] }
theorem meets_BackgroundRange_waits : [(⟨.dev 0x10000, false, false, false, 0, 1, none⟩ : Target)].any (discardWaits owing) = true ∧ [(⟨.dev 0x10000, false, false, false, 0, 1, none⟩ : Target)].any (discardWaits user) = false := by decide
theorem meets_Directory_ack : ((dirEntry owing 0x100).owed.any fun h => h.1 == 1) = true ∧ (owing.die 1).isolated = false ∧ ((dirEntry user 0x100).owed.any fun h => h.1 == 1) = false
    ∧ (dirEntry owing 0x100).owed = [(1, 1, 100)] := by decide
theorem meets_DiesFailResetAndAnswerTheHost : let s := { owing with time := 2700 }
    (s.die 1).isolated = false ∧ (∃ e ∈ s.dir, ∃ h ∈ e.2.owed, h.1 = 1 ∧ h.2.2 + 2600 ≤ s.time) ∧ (∀ e ∈ s.cores, dieOf e.1 = 1 → ∀ x ∈ e.2.ctxs, x.2.work = none)
      ∧ (s.die 1).slots = [] ∧ s.exchs = [] ∧ (∀ e ∈ s.dir, ∀ h ∈ e.2.owed, h.1 ≠ 2) := by decide
theorem meets_Dies_memoryError : 0x30040 < 2 ^ 56 ∧ homeOf 0x30040 ≤ 5 ∧ homePresent user (homeOf 0x30040) = true ∧ (∀ e ∈ user.hlogs, e.addr ≠ BitVec.ofNat 64 (0x30040 / 64 * 64)) := by decide
theorem meets_Dies_reset : user.diePresent 1 = true ∧ (user.die 1).reset = none ∧ dieResident user 1 = false ∧ dieResident user 0 = true ∧ storesLeft user 1 = false
    ∧ (let s := { user with dies := [(1, { accepted := [⟨0x10008, [1, 2], false, 4144, 5, none⟩] })] }
       dieResident s 1 = false ∧ storesLeft s 1 = true)
    ∧ (({ user with dies := [(1, { reset := some true })] } : State).die 1).reset ≠ none := by decide
theorem meets_Dies_host : hostPlace user 0x800000040 = some (2 ^ 52 + 0x40) ∧ homeBlocked user (2 ^ 52 + 0x40) = false ∧ homeLost user (2 ^ 52 + 0x40) = false
    ∧ (2 ^ 52 + 0x40) % 64 + 64 ≤ 64 ∧ moving user (2 ^ 52 + 0x40) = false ∧ user.awaiting = [] ∧ hubPoison user (2 ^ 52 + 0x40) 64 = false
    ∧ dirEntry user ((2 ^ 52 + 0x40) / 256) = {} ∧ user.replay.rstat ≠ 2 ∧ hubPoison { user with poison := [(2 ^ 52 + 0x40) / 64] } (2 ^ 52 + 0x40) 8 = true
    ∧ hostPlace user 0xFFFFFFFFFFFF = none := by decide
theorem meets_Dies_snoop : cached.awaiting = [] ∧ (dirEntry cached 0x100).owner = some 1 ∧ (sectorAt cached 1 0x400).map (·.dirty) = some true := by decide

theorem test_evict : (match exec (.dieCacheEvict 1 0x100) cached with | .next t => (t.die 1).sectors == [] && readByte t.mem 0x10000 == 9 && t.dir == [] | _ => false) = true := by decide
theorem test_ownership : (match exec (.ownershipRequest 0 0x100 5) (accepting false) with
    | .next t => (sectorAt t 0 0x400).map (fun x => (x.bytes.take 11, x.dirty)) == some ([0, 0, 0, 0, 0, 0, 0, 0, 1, 2, 0], true) && (dirEntry t 0x100).owner == some 0
    | _ => false) = true ∧ (match exec (.ownershipRequest 0 0x100 5) (accepting true) with
    | .next t => (sectorAt t 0 0x400).isNone && (dirEntry t 0x100).owed.length == 2
    | _ => false) = true := by decide
theorem test_invalidation : (match exec (.invalidationAck 1 0x100) owing with | .next t => (t.die 1).sectors == [] && (dirEntry t 0x100).owed == [] | _ => false) = true
    ∧ (match exec (.invalidationResend 1 0x100) owing with | .next t => (dirEntry t 0x100).owed == [(1, 2, 100)] | _ => false) = true := by decide
/-- A die that owes an acknowledgement for 2 us is isolated (R227). -/
theorem test_die_unresponsive : (match exec (.dieUnresponsive 1) { owing with time := 2700 } with | .next t => (t.die 1).isolated && (t.die 1).sectors == [] | _ => false) = true := by decide
theorem test_local_directory : (match exec (.directoryOvfWrite 260 0x20) (mapped.updCore 260 fun k => { k with dirl := [(0x20, { ptrs := [259] })] }) with
    | .next t => (Tbl.read (t.core 260).dirl 0x20 {}) == {} | _ => false) = true := by decide
theorem test_memory_error : (match exec (.memoryErrorDetected 0x30040) user with | .next t => t.poison == [0x30040 / 64] && t.hlogs.length == 1 | _ => false) = true := by decide
theorem test_die_resets : (match exec (.dieResetGraceful 1) user with | .next t => (t.die 1).rstat == 2 && t.events == [.dieResetEnd 1] | _ => false) = true
    ∧ (match exec (.dieResetGraceful 0) user with | .next t => (t.die 0).rstat == 1 | _ => false) = true
    ∧ (match exec (.dieResetForced 0) user with | .next t => (t.core 259).ctxs == [] && (t.die 0).reset == some true | _ => false) = true
    ∧ (match exec (.dieResetEnd 1) { user with dies := [(1, { reset := some false, rstat := 2 })] } with | .next t => (t.die 1).rstat == 0 | _ => false) = true := by decide
theorem test_host_cxl : (match exec (.hostCxlWrite 0x40 [1, 2, 3]) user with
    | .next t => readBytes t.mem 0x40 4 == [1, 2, 3, 0] && (match exec (.hostCxlRead 0x41 2) t with | .next u => u.out == [.hostRead 0x41 [2, 3] false] | _ => false)
    | _ => false) = true ∧ (match exec (.hostCxlRead 0xFFFFFFFFFFFF 4) user with | .next u => u.out == [.hostError 0xFFFFFFFFFFFF] | _ => false) = true := by decide
theorem test_snoop : (match execCxlCacheSnoop 0x100 cached with | .next t => readByte t.mem 0x1003F == 9 && (t.die 1).sectors == [] && t.dir == [] | _ => false) = true := by decide

/-! ## The spill area (R114-R116) -/

/-- A firing three calls deep whose spill area starts at 0x1F000, and one whose caller's frame stands there. -/
def deep : State := one { firing with depth := 3, frames := [List.replicate 16 3, List.replicate 16 2, List.replicate 16 1], wins := 0x1F400 * 2 ^ 18 + 0x1F000, tvec := 0x800 }
def spilled : State := one { firing with depth := 1, wins := 2 ^ 36 + 0x1F400 * 2 ^ 18 + 0x1F080, tvec := 0x800 }
theorem idle_deep : Idle deep := ⟨by decide, by decide, by decide, by decide, by decide, by decide⟩
theorem idle_spilled : Idle spilled := ⟨by decide, by decide, by decide, by decide, by decide, by decide⟩
theorem meets_FramesSpillAndFill : Idle deep ∧ PlainBanks deep 259 ∧ deep.k.pc + 4 * (40 : BitVec 24).toInt = (0x1A0 : Nat) ∧ deep.k.frames.length = 3
    ∧ deep.k.wins.toNat % 2 ^ 18 + 128 ≤ deep.k.wins.toNat / 2 ^ 18 % 2 ^ 18 ∧ deep.k.wins.toNat % 2 ^ 18 + 128 ≤ 0x30000 :=
  ⟨idle_deep, ⟨rfl, by decide, by decide, by decide, by decide, by decide, by decide⟩, by decide, by decide, by decide, by decide⟩
/-- With END = PTR, the record would end past END. -/
theorem meets_FramesSpillAndFill_limit : let s := one { deep.k with wins := 0x1F000 * 2 ^ 18 + 0x1F000 }
    s.k.wins.toNat / 2 ^ 18 % 2 ^ 18 < s.k.wins.toNat % 2 ^ 18 + 128 ∧ s.k.frames.length = 3 := by decide
theorem meets_FramesSpillAndFill_fill : Idle spilled ∧ PlainBanks spilled 259 ∧ spilled.k.depth ≠ 0 ∧ spilled.k.frames = []
    ∧ (rd spilled.k (regNo 23)).toNat < 2 ^ 18 ∧ (rd spilled.k (regNo 23)).toNat % 4 = 0 ∧ 128 ≤ spilled.k.wins.toNat % 2 ^ 18
    ∧ spilled.k.wins.toNat % 2 ^ 18 ≤ 0x30000 ∧ canHandle spilled :=
  ⟨idle_spilled, ⟨rfl, by decide, by decide, by decide, by decide, by decide, by decide⟩, by decide, by decide, by decide, by decide, by decide, by decide, by unfold canHandle; decide⟩
/-- The frame of depth 0 is written at 0x1F000 and PTR becomes 0x1F080, as in the table of R116. -/
theorem test_spill : (match exec (.call 40) deep with
    | .next t => t.k.pc == 0x1A0 && field t.k.wins 17 0 == 0x1F080 && t.k.frames.length == 3 && readByte (t.core 259).mem 0x1F000 == 1
        && readByte (t.core 259).mem 0x1F078 == 1 && t.k.depth == 4
    | _ => false) = true := by decide
/-- A FILL with NOTE set enters the handler with the record's offset in EINFO. -/
theorem test_fill : (match exec .ret spilled with
    | .next t => t.k.pc == 0x800 && t.k.epc == 0x240 && t.k.einfo == 0x1F000 && field t.k.wins 17 0 == 0x1F000 && t.k.depth == 0 && rd t.k 8 == 0
    | _ => false) = true := by decide

/-! ## Handles and rings -/

/-- The record of one row of `n` elements of a type at an offset of the own banks. -/
def row (lo n ty : Nat) : Shape := ⟨BitVec.ofNat 64 (0xC000000000000000 + lo), BitVec.ofNat 64 (n + 2 ^ 16 + 2 ^ 32 + 2 ^ 48), BitVec.ofNat 64 (64 + 2 ^ 32 * 64), BitVec.ofNat 64 (64 + ty * 2 ^ 48)⟩
/-- A firing with three rows of 16 bytes at 0x1000, 0x1100 and 0x1200 in h1 to h3, an advancing one in h4, and one bound to a ring as consumer in h5. -/
def ring1 : LiveRing := { base := 0xC000000000003000, slot := 64, count := 4, fillc := 3, freec := 1, pidx := 6, cidx := 3, seenFill := 2, seenFree := 1, scope := .cl, stamp := false, prodCore := 260, consCore := 259, cons := some (1, 0), prod := some (1, 1) }
/-- Its record in the banks (R107): the grid starts at y = 2. -/
def ringRec : List Byte := natLE 8 0xC000000000003000 ++ natLE 4 64 ++ natLE 4 4 ++ natLE 4 3 ++ natLE 4 1 ++ natLE 4 6 ++ natLE 4 3 ++ natLE 4 4 ++ natLE 4 3 ++ natLE 24 1
def shaped : State := (one { firing with
    dgx := 4, dgy := 1, dox := 0, doy := 2
    handles := [(1, { shape := row 0x1000 16 8 }), (2, { shape := row 0x1100 16 8 }), (3, { shape := row 0x1200 16 8 }),
      (4, { shape := { row 0x1000 16 8 with d3 := BitVec.ofNat 64 (64 + (2 ^ 16 - 1) * 2 ^ 32 + 8 * 2 ^ 48 + 2 ^ 53) } }),
      (5, { shape := { row 0x3000 16 8 with d3 := BitVec.ofNat 64 (64 + 8 * 2 ^ 48 + 2 ^ 52) }, bind := some ⟨259, 0x4000, false, 1, true⟩ })]
    regs := [(8, 0xC000000000002000), (9, 0x21), (10, 2), (11, 1), (12, 0xC000000000004000), (13, 5), (14, 0xC000000000002010)] }).updCore 259
  fun k => { k with mem := writeBytes (writeBytes (writeBytes [] 0x1000 [1, 2, 3, 255]) 0x1100 [10, 20, 30, 40]) 0x4000 ringRec, rings := [(0x4000, ring1)] }
theorem meets_BoundHandleIsNoDestination : Settled shaped [8] ∧ (handleOf shaped.k 5).bind ≠ none := by decide
theorem meets_HandlesHoldRecords : (handleOf shaped.k 1).bind = none ∧ (handleOf shaped.k 2).bind = none ∧ Settled shaped [8, 16] ∧ (rd shaped.k 14).toNat % 32 ≠ 0
    ∧ (handleOf shaped.k 5).bind = some ⟨259, 0x4000, false, 1, true⟩ ∧ ringOf shaped ⟨259, 0x4000, false, 1, true⟩ = some ring1 := by decide
theorem meets_HandleFunctionsMoveRecords_banks : let s := shaped.updCore 259 fun k => { k with rings := [] }
    Idle s ∧ PlainBanks s 259 ∧ LocalAt (rd s.k 8) 0x2000 32 ∧ (s.core s.cur.1).ops.length ≤ 60 ∧ bufferUsed s s.cur.1 ≤ 12 :=
  ⟨⟨by decide, by decide, by decide, by decide, by decide, by decide⟩, ⟨rfl, rfl, rfl, rfl, rfl, by decide, by decide⟩, by unfold LocalAt; decide, by decide, by decide⟩
theorem meets_ShapesArePartitionedAndRingsBound : Settled shaped [0] ∧ (handleOf shaped.k 6).bind = none ∧ (handleOf shaped.k 1).bind = none
    ∧ (rd shaped.k 0).toNat / 8 = 0 ∧ typeCode (handleOf shaped.k 1).shape ≠ 15 ∧ shapeExtent (handleOf shaped.k 1).shape 0 ≠ 0 ∧ (rd shaped.k 9).toNat / 8 ≠ 0 := by decide
theorem meets_RbindTakesARole : Settled shaped [12] ∧ (rd shaped.k 12).toNat % 64 / 2 = 0 ∧ (rd shaped.k 12).toNat / 64 * 64 = 0xC000000000000000 + 0x4000
    ∧ Tbl.find (shaped.core 259).rings 0x4000 = some ring1 ∧ ring1.consCore = 259 ∧ (handleOf shaped.k 1).bind = none ∧ ring1.cons = some (roleOf shaped 259 0) := by decide
theorem meets_RbindTakesARole_pending : (handleOf shaped.k 5).bind = some ⟨259, 0x4000, false, 1, true⟩ ∧ ring1.prodCore ≠ 259 ∧ (rd shaped.k 9).toNat % 64 / 2 ≠ 0 := by decide
theorem meets_RbindTakesARole_other : let r := { ring1 with cons := some (1, 9) }
    r.cons ≠ none ∧ r.cons ≠ some (roleOf shaped 259 0) ∧ r.consCore = 259 := by decide
theorem meets_RbindTakesARole_none : Tbl.find (user.core 259).rings 0x2000 = none ∧ opsOf user 259 0 = [] ∧ ringRecord (readBytes (user.core 259).mem 0x2000 64) = none := by decide
theorem meets_RingFunctionsKeepTheCounts : Settled shaped [16, 11] ∧ (handleOf shaped.k 5).bind = some ⟨259, 0x4000, false, 1, true⟩
    ∧ ringOf shaped ⟨259, 0x4000, false, 1, true⟩ = some ring1 ∧ (rd shaped.k 11).toNat ≤ ring1.seenFill - 1 ∧ ring1.seenFill - 1 < (rd shaped.k 10).toNat
    ∧ (rd shaped.k 10).toNat ≤ ring1.count ∧ ring1.count < (rd shaped.k 13).toNat ∧ ring1.scope ≠ .sys ∧ (handleOf shaped.k 1).bind = none := by decide
theorem meets_RingFunctionsKeepTheCounts_pointer : (rd user.k 8).toNat > (Tbl.read user.k.wp 1 0).toNat ∧ (rd user.k 0).toNat ≤ (Tbl.read user.k.wp 1 0).toNat := by decide
theorem meets_RingFunctionsKeepTheCounts_told : Tbl.find (shaped.core 259).rings 0x4000 = some ring1 ∧ ring1.cons = some (1, 0) ∧ Tbl.find (shaped.dom 1).actors 0 = some { core := 259, wid := 7 } := by decide

/-- A handle after one instruction. -/
def hnd (i : Instr) (s : State) (h : HIx) : Option Handle :=
  match exec i s with
  | .next t => if t.k.status == .ready && t.stalled == [] then some (handleOf t.k h) else none
  | _ => none
theorem test_hset_hget : (hnd (.hset 0 8 1) shaped 1).map (·.shape.d0) = some 0xC000000000002000 ∧ parks (.hset 1 0 1) shaped = some (21, 0) ∧ parks (.hset 0 8 5) shaped = some (22, 8)
    ∧ reg (.hget 1 1 16) shaped 16 = some 0x0001000100010010 ∧ reg (.hget 0 5 16) shaped 16 = some 0xC000000000003000 := by decide
/-- ADV of -1 moves the base back by 64 bytes; a null handle is SHAPE (R123). -/
theorem test_hadv_hcopy : (hnd (.hadv 4) shaped 4).map (·.shape.d0) = some 0xC000000000000FC0 ∧ parks (.hadv 9) shaped = some (21, 0)
    ∧ hnd (.hcopy 1 9) shaped 9 = some { shape := row 0x1000 16 8 } := by decide
theorem test_hld_hst : hnd (.hld 8 7) (shaped.updCore 259 fun k => { k with mem := writeBytes [] 0x2000 ([0x1000, 0, 0, 0].flatMap (natLE 2) ++ natLE 8 0x0001000100010005 ++ natLE 8 0 ++ natLE 8 (8 * 2 ^ 48 + 2 ^ 52)) }) 7
      = some { shape := ⟨0x1000, 0x0001000100010005, 0, BitVec.ofNat 64 (8 * 2 ^ 48)⟩ }
    ∧ parks (.hld 14 7) shaped = some (4, 0) ∧ (match exec (.hst 8 1) shaped with | .next t => t.events == [.storePerform 259 0, .storePerform 259 1, .storePerform 259 2, .storePerform 259 3] | _ => false) = true := by decide
/-- Core x 3 of a grid four wide takes elements 12 to 15 of 16 (R124). -/
theorem test_part : (hnd (.part 0 1 9) shaped 9).map (fun v => (v.shape.d0, v.shape.d1, v.empty)) = some (0xC00000000000100C, 0x0001000100010004, false)
    ∧ parks (.part 9 1 9) shaped = some (21, 0) := by decide
theorem test_rbind : (hnd (.rbind 12 1) shaped 1).map (·.bind) = some (some ⟨259, 0x4000, false, 0, true⟩) ∧ parks (.rbind 12 5) shaped = some (22, 6) ∧ parks (.rbind 13 1) shaped = some (4, 0) := by decide
theorem test_rings : reg (.rcnt 5 16) shaped 16 = some 1 ∧ waits (.rwait 10 5) shaped = true ∧ pcOf (.rwait 11 5) shaped = some 0x104 ∧ parks (.rwait 13 5) shaped = some (22, 4)
    ∧ (hnd (.radvc 11 5) shaped 5).map (fun v => v.bind.map (·.pending)) = some (some 2) ∧ parks (.radvp 11 5) shaped = some (22, 2) ∧ parks (.rcnt 1 16) shaped = some (22, 5) := by decide
theorem test_wprd : reg (.wprd 1 16) (one { firing with wp := [(1, 9)] }) 16 = some 9 ∧ waits (.wpwait 8 1) user = true ∧ pcOf (.wpwait 8 1) (one { firing with wp := [(1, 5)] }) = some 0x104 := by decide
theorem test_ring_notification : (match exec (.ringNotification 259 0x4000 false) shaped with | .next t => (Tbl.find (t.core 259).rings 0x4000).map (·.seenFill) == some 3 && t.k.events == 1 | _ => false) = true := by decide

/-! ## The copy engine -/

theorem meets_CopyCommandsAreAcceptedWhole : ∃ w, copyForm shaped.k (.copy 2 0 9 16) = some (4, [16, 9, 0], w) ∧ Settled shaped [16, 9, 0] ∧ engineHeld shaped = false
    ∧ (shaped.core 259).copyQ.length < 2 ∧ copyHandles w.fn (rd shaped.k w.a) = [1, 2] ∧ NewName shaped :=
  ⟨_, rfl, by decide, by decide, by decide, by decide, by unfold NewName; decide⟩
theorem meets_CopyCommandsAreAcceptedWhole_fits : CopyFits .copy 0 (capture shaped shaped.k 1) (capture shaped shaped.k 2) noOperand
    ∧ (∀ p ∈ [capture shaped shaped.k 1, capture shaped shaped.k 2], nullOperand p = false ∧ ringFits p = true) := by unfold CopyFits; decide
theorem meets_CopyCommandsAreAcceptedWhole_misfit : ¬ CopyFits .copy 17 (capture shaped shaped.k 1) (capture shaped shaped.k 2) noOperand
    ∧ (capture shaped shaped.k 1).empty = false := by unfold CopyFits; decide
theorem meets_CopyCommandsAreAcceptedWhole_held : ((shaped.updCore 259 fun k => { k with copyQ := [1, 2] }).core 259).copyQ.length ≥ 2 := by decide
/-- A FILL with 7 of the row in h1 that stands on channel 1. -/
def filling : CopyCmd := { fn := .fill, ch := 1, dst := capture shaped shaped.k 1, src := noOperand, idx := noOperand, p := 0x107, dest := 16, q := (0, 0) }
def fillOp : Op := { loadDue 16 with id := 5, target := none, body := .copy filling }
/-- That command at the queue's head, and on its channel. -/
def fillQueued (g : Taken) : State := withOps (shaped.updCore 259 fun k => { k with copyQ := [5], rings := [] }) [{ fillOp with body := .copy { filling with guarded := { taken := g } } }]
def fillRuns : State := withOps (shaped.updCore 259 fun k => { k with chans := [(1, 5)], rings := [] }) [fillOp]
theorem meets_CopyEngineRunsItsQueueAndReplies : ((fillQueued .run).core 259).copyQ = [5] ∧ opById (fillQueued .run) 259 5 = some fillOp ∧ fillOp.id = 5 ∧ fillOp.ctx < 16
    ∧ filling.guarded.taken = .run ∧ Tbl.find ((fillQueued .run).core 259).chans 1 = none ∧ releaseBefore (fillQueued .run) 259 fillOp = false ∧ filling.acq = false := by decide
theorem meets_CopyEngine_guard : (opById (fillQueued .waiting) 259 5).isSome = true ∧ (opById (fillQueued .discard) 259 5).isSome = true ∧ (∀ a ∈ (fillQueued .discard).awaiting, a.op ≠ 5) := by decide
theorem meets_CopyEngine_channel : let s := (fillQueued .run).updCore 259 fun k => { k with chans := [(1, 9)] }
    (Tbl.find (s.core 259).chans 1).isSome = true := by decide
theorem meets_CopyEngine_beat : Tbl.find (fillRuns.core 259).chans 1 = some 5 ∧ opById fillRuns 259 5 = some fillOp ∧ filling.failed = none ∧ fillOp.cause ≠ .visfail
    ∧ opTy filling.dst = .n8 ∧ rows filling.dst = 1 ∧ ext filling.dst 0 = 16 ∧ filling.dst.shape.d0.toNat = 0xC000000000000000 + 0x1000 ∧ 0x1000 % 64 + 16 ≤ 64
    ∧ (fillRuns.core 259).inj.mode ≠ 1 ∧ storesBefore fillRuns 259 fillOp = false ∧ vectorsBefore fillRuns 259 fillOp = false ∧ Memory.wf (fillRuns.core 259).mem = true := by decide
theorem meets_CopyEngine_end : filling.rel = false ∧ filling.fn ≠ .flushr ∧ (∀ a ∈ fillRuns.awaiting, a.op ≠ 5) := by decide

theorem test_copy_accept : (match exec (.copy 2 0 9 16) shaped with
    | .next t => (t.core 259).copyQ == [0] && t.events == [.copyQueueRelease 259] && busyReg (opsOf t 259 0) 16 && t.k.pc == 0x104
    | _ => false) = true ∧ parks (.copy 2 13 0 16) shaped = some (21, 0) := by decide
theorem test_cstat : pcOf (.cstat 16) user = some 0x104 := by decide
theorem test_fill_beat_end : (match exec (.copyBeat 259 1) fillRuns with
    | .next t => readBytes (t.core 259).mem 0xFFF 18 == [0] ++ List.replicate 16 7 ++ [0] && (match exec (.copyCommandEnd 259 1) t with
      | .next u => rd u.k 16 == 16 && u.k.replies == [16] && u.k.events == 1 && (u.core 259).chans == [] | _ => false)
    | _ => false) = true := by decide
theorem test_queue_release : (match exec (.copyQueueRelease 259) (fillQueued .run) with | .next t => (t.core 259).chans == [(1, 5)] && (t.core 259).copyQ == [] | _ => false) = true
    ∧ (match exec (.copyQueueRelease 259) (fillQueued .discard) with | .next t => rd t.k 16 == 0x0100000000000000 && t.k.events == 1 | _ => false) = true := by decide
/-- COPY moves the row of h2 over the row of h1 in one beat (R98). -/
theorem test_copy_beat : (match exec (.copyBeat 259 1) (withOps fillRuns [{ fillOp with body := .copy { filling with fn := .copy, src := capture shaped shaped.k 2, p := 0 } }]) with
    | .next t => readBytes (t.core 259).mem 0x1000 5 == [10, 20, 30, 40, 0] | _ => false) = true := by decide

/-! ## The vector engine -/

/-- VADD.n8 of h1 and h2 into h3. -/
def vadd8 : Vx := { vx0 with hd := 3, ha := 1, hb := 2, ty := .n8 }
theorem meets_VectorCommandsAreAcceptedWhole : vecForm (.vadd vadd8) = some (.vadd, vadd8) ∧ Settled shaped (vecDest .vadd vadd8 ++ vecScalar vadd8) ∧ engineHeld shaped = false
    ∧ (shaped.core 259).vecQ.length < 2 ∧ (∀ o ∈ shaped.k.kept, isVec o = false) ∧ (∀ u ∈ vecUses .vadd vadd8, opTy (capture shaped shaped.k u.1) ∈ u.2)
    ∧ (∀ u ∈ vecUses .vadd vadd8, nullOperand (capture shaped shaped.k u.1) = false ∧ ringFits (capture shaped shaped.k u.1) = true) := by decide
theorem meets_VectorCommandsAreAcceptedWhole_counts : VecCounts .vadd vadd8 ((vecUses .vadd vadd8).map fun u => capture shaped shaped.k u.1) ∧ NewName shaped :=
  ⟨by show ∀ o ∈ [capture shaped shaped.k 1, capture shaped shaped.k 2], count o = count (capture shaped shaped.k 3) ∨ count o = 1; decide, by unfold NewName; decide⟩
theorem meets_VectorCommandsAreAcceptedWhole_t6 : ({ vx0 with ty := .t6 } : Vx).ty = .t6 ∧ (one { firing with nbv := 1 }).k.nbv = 1 := by decide
theorem meets_VectorCommandsAreAcceptedWhole_misfit : vecForm (.vadd { vadd8 with ty := .n16 }) = some (.vadd, { vadd8 with ty := .n16 }) ∧ opTy (capture shaped shaped.k 3) ∉ [ElemTy.n16] := by decide
theorem meets_VectorCommandsAreAcceptedWhole_mark : (markFault shaped (capture { shaped with cores := shaped.cores } { shaped.k with handles := [(5, { shape := row 0x3000 16 8, bind := some ⟨259, 0x4000, true, 0, true⟩ })] } 5)).isSome = true := by decide
/-- That command, taken by the engine. -/
def adding8 : VecCmd := { fn := .vadd, v := vadd8, d := capture shaped shaped.k 3, a := capture shaped shaped.k 1, b := capture shaped shaped.k 2, c := noOperand, scalar := 0, fpc := 1, ver := 3, q := (0, 0), guarded := {} }
def addOp8 : Op := { loadDue 16 with id := 5, target := none, body := .vec adding8 }
def addRuns (k : VecCmd) : State := withOps (shaped.updCore 259 fun k => { k with vecQ := [5], rings := [] }) [{ addOp8 with body := .vec k }]
theorem meets_VectorEngineWritesItsElements : let s := addRuns adding8
    (s.core 259).vecQ = [5] ∧ opById s 259 5 = some addOp8 ∧ addOp8.ctx < 16 ∧ (∀ e ∈ (s.core 259).ctxs, e.2.kept = []) ∧ addOp8.cause ≠ .visfail ∧ byElement .vadd = true
      ∧ adding8.pos = 0 ∧ vecEmpty adding8 = false ∧ storesBefore s 259 addOp8 = false ∧ releaseBefore s 259 addOp8 = false ∧ (s.core 259).rings = [] := by decide
theorem meets_VectorEngineWritesItsElements_rows : LocalRow adding8.d 16 0x1200 ∧ LocalRow adding8.a 16 0x1000 ∧ LocalRow adding8.b 16 0x1100 ∧ adding8.c = noOperand := by unfold LocalRow; decide
theorem meets_VectorEngineWritesItsElements_end : ({ adding8 with pos := 16 } : VecCmd).pos ≥ vecTotal { adding8 with pos := 16 } ∧ adding8.v.la = false ∧ adding8.v.lb = false ∧ adding8.v.lc = false := by decide
theorem meets_VectorEngineWritesItsElements_ints : adding8.v.ty ∈ intTypes ∧ adding8.v.sat = false ∧ intElement .vsub (elemBits .n8) false 3 5 0 = some 254 ∧ (user.core 259).vecQ = [] := by decide

theorem test_vec_accept : (match exec (.vadd vadd8) shaped with | .next t => (t.core 259).vecQ == [0] && t.events == [.vectorBeat 259] && t.k.pc == 0x10C | _ => false) = true
    ∧ parks (.vadd { vadd8 with ty := .n16 }) shaped = some (21, 0) ∧ (parks (.vadd { vadd8 with ty := .t6 }) (one { firing with nbv := 1 })).map (·.1) = some 1 := by decide
/-- The sum wraps at the fourth element: 255 + 40 = 39 (R140, R167). -/
theorem test_vector_beat : (match exec (.vectorBeat 259) (addRuns adding8) with | .next t => readBytes (t.core 259).mem 0x1200 5 == [11, 22, 33, 39, 0] && t.events == [.vectorCommandEnd 259] | _ => false) = true
    ∧ (match exec (.vectorBeat 259) (addRuns { adding8 with v := { vadd8 with sat := true } }) with | .next t => readBytes (t.core 259).mem 0x1200 4 == [11, 22, 33, 255] | _ => false) = true := by decide
theorem test_vector_end : (match exec (.vectorCommandEnd 259) (addRuns { adding8 with pos := 16, flags := 16 }) with | .next t => (t.core 259).vecQ == [] && t.k.fpf == 16 && t.k.events == 1 | _ => false) = true := by decide
/-- One element of each function by element, n8 operands 200, 100 and 3 (R167-R171, R175). -/
def el (f : VFn) (t : ElemTy) (p q r : Nat) : Nat := (vecElem { adding8 with fn := f, v := { vadd8 with ty := t } } 0 p q r).1
theorem test_vector_ints : [VFn.vadd, .vsub, .vmul, .vfma, .vfms, .vmin, .vmax, .vabs, .vneg, .vand, .vor, .vxor, .vnot, .vshl, .vshr, .vsel, .vclamp].map (fun f => el f .n8 200 100 3)
    = [44, 100, 32, 35, 29, 100, 200, 200, 56, 64, 236, 172, 55, 128, 12, 200, 3] := by decide
theorem test_vector_signed : el .vsar .s8 200 2 0 = 242 ∧ el .vmin .s8 200 100 0 = 200 ∧ el .vabs .s8 200 0 0 = 56 ∧ el .viota .n8 0 0 0 = 0 := by decide
/-- 1.5 + 0.25, 1 / 4, sqrt 4, min and compare in f32 (R166-R172). -/
theorem test_vector_floats : el .vadd .f32 0x3FC00000 0x3E800000 0 = 0x3FE00000 ∧ el .vdiv .f32 0x3F800000 0x40800000 0 = 0x3E800000 ∧ el .vsqrt .f32 0x40800000 0 0 = 0x40000000
    ∧ el .vrcp .f32 0x40800000 0 0 = 0x3E800000 ∧ el .vrsq .f32 0x40800000 0 0 = 0x3F000000 ∧ el .vmin .f32 0x3F800000 0xBF800000 0 = 0xBF800000
    ∧ el .vlerp .f32 0x3F800000 0x40400000 0x3F000000 = 0x40000000 := by decide
theorem test_vector_special : el .vexp2 .f32 0x40000000 0 0 = 0x40800000 ∧ el .vlog2 .f32 0x41000000 0 0 = 0x40400000 ∧ el .vtanh .f32 0 0 0 = 0 ∧ el .vsigm .f32 0 0 0 = 0x3F000000 := by decide
/-- A reduction to a register, a scan, a count, a broadcast, a conversion and a comparison of the row in h1 (R170-R175). -/
def vrun (k : VecCmd) : Option (List Byte × List Word) :=
  match execVectorBeat 259 (addRuns k) with
  | .next t => (opById t 259 5).map fun o => (readBytes (t.core 259).mem 0x1200 4, match o.body with | .vec k => k.part | _ => [])
  | _ => none
theorem test_vector_rows : (vrun { adding8 with fn := .vred, v := { vadd8 with hd := 0, sb := 16, imm := 0x1F0 } }).map (·.2.take 1) = some [5]
    ∧ (vrun { adding8 with fn := .vscan, v := { vadd8 with imm := 0 } }).map (·.1) = some [1, 3, 6, 5]
    ∧ (vrun { adding8 with fn := .vcount, v := { vadd8 with sb := 16 } }).map (·.2) = some [4]
    ∧ (vrun { adding8 with fn := .vbcst, v := { vadd8 with bs := true }, scalar := 9 }).map (·.1) = some [9, 9, 9, 9]
    ∧ (vrun { adding8 with fn := .vcmp, v := { vadd8 with imm := 2 } }).map (·.1) = some [1, 1, 1, 0]
    ∧ (vrun { adding8 with fn := .vcvt, v := { vadd8 with imm := 7, sat := true } }).map (·.1) = some [1, 2, 3, 127] := by decide

/-! ## The matrix unit -/

/-- MMA of two rows of s8 over K = 32; its firing with 32-byte rows in h1 and h2. -/
def mma8 : Mx := ⟨false, 0, 2, 1, .s8, .s8, 0, 0, false, false, ⟨false, false, 0⟩, 0, 0, 32⟩
/-- A matrix record: rows of `n` elements, `m` of them, 64 bytes apart. -/
def grid2 (lo n m ty : Nat) : Shape := ⟨BitVec.ofNat 64 (0xC000000000000000 + lo), BitVec.ofNat 64 (n + 2 ^ 16 * m + 2 ^ 32 + 2 ^ 48), BitVec.ofNat 64 (64 + 2 ^ 32 * 64), BitVec.ofNat 64 (64 + ty * 2 ^ 48)⟩
def matrix : State := (one { firing with handles := [(1, { shape := grid2 0x1000 32 2 7 }), (2, { shape := grid2 0x2000 16 32 7 }), (3, { shape := grid2 0x3000 16 2 11 }),
      (4, { shape := row 0x1000 32 7 }), (5, { shape := { row 0x3000 16 7 with d3 := BitVec.ofNat 64 (64 + 7 * 2 ^ 48 + 2 ^ 52) }, bind := some ⟨259, 0x4000, true, 0, true⟩ }),
      (6, { shape := { grid2 0x1000 32 2 7 with d0 := 0x1000 } })] }).updCore 259
  fun k => { k with mem := writeBytes (writeBytes [] 0x1000 [1, 2, 255]) 0x2000 [10, 20] }
theorem meets_MatrixCommandsAreAcceptedWhole : matForm (.mma mma8) = some (.mma, mma8) ∧ engineHeld matrix = false ∧ (matrix.core 259).matQ.length < 2
    ∧ (∀ o ∈ matrix.k.kept, isMat o = false) ∧ (∀ x ∈ [captureFlat matrix matrix.k 1, captureFlat matrix matrix.k 2], nullOperand x = false ∧ liesLocal matrix 259 0 x = true ∧ x.empty = false)
    ∧ MatSizes .mma mma8 (captureFlat matrix matrix.k) ∧ matrix.k.acc = none ∧ (Tbl.read (matrix.core 259).accs 0 {}).owner = none ∧ NewName matrix := by
  unfold MatSizes NewName; decide
theorem meets_MatrixCommands_t6 : (one { firing with nbv := 1 }).k.nbv = 1 ∧ ({ mma8 with ta := .t6, tb := .t6 } : Mx).ta = .t6 := by decide
theorem meets_MatrixCommands_away : (one { firing with away := some (300, 0) }).k.away.isSome = true := by decide
theorem meets_MatrixCommands_held : ((matrix.updCore 259 fun k => { k with matQ := [1, 2] }).core 259).matQ.length ≥ 2 := by decide
theorem meets_MatrixCommands_misfit : ¬ MatSizes .mma { mma8 with m := 2 } (captureFlat matrix matrix.k) ∧ opTy (captureFlat matrix matrix.k 3) ≠ .s8 := by unfold MatSizes; decide
theorem meets_MatrixCommands_afar : [captureFlat matrix matrix.k 6].find? (fun x => !liesLocal matrix 259 0 x) = some (captureFlat matrix matrix.k 6)
    ∧ MatSizes .mma { mma8 with ha := 6 } (captureFlat matrix matrix.k) := by unfold MatSizes; decide
theorem meets_MatrixCommands_mark : (markFault matrix (captureFlat matrix matrix.k 5)).isSome = true := by decide
theorem meets_MatrixCommands_unbound : let s := matrix.updCore 259 fun k => { k with accs := (upFrom 0 3).map fun i => (i, { owner := some 1 }) }
    runClass (s.dom (domOf s.k)) ≠ 0 ∧ ∀ i, ¬ (i < 4 ∧ (Tbl.read (s.core 259).accs i {}).owner = none ∧ (i = 3 → runClass (s.dom (domOf s.k)) = 0)) := by
  refine ⟨by decide, ?_⟩
  rintro i ⟨hi, h, h3⟩
  match i, hi with
  | 0, _ => revert h; decide
  | 1, _ => revert h; decide
  | 2, _ => revert h; decide
  | 3, _ => revert h3; decide
theorem meets_MatrixCommands_bound : (one { firing with acc := some 2 }).k.acc = some 2 := by decide
/-- That command, taken by the array or at its queue's head. -/
def multiply : MatCmd := { fn := .mma, m := mma8, a := captureFlat matrix matrix.k 1, b := captureFlat matrix matrix.k 2, x := noOperand, s := noOperand, t := noOperand, fpc := 1, ver := 3, q := (0, 0), cls := 3, guarded := {} }
def matOp (k : MatCmd) : Op := { loadDue 0 with id := 5, target := none, body := .mat k }
def matHeads (k : MatCmd) : State := withOps (matrix.updCore 259 fun q => { q with matQ := [5] }) [matOp k]
def matRuns (k : MatCmd) : State := setOctet (matHeads k) (octetOf 259) { running := some (259, 5) }
theorem meets_MwaitWaits : ∃ o ∈ opsOf (matHeads multiply) 259 0, live o = true ∧ isMat o = true := ⟨_, .head _, rfl, rfl⟩
theorem meets_MwaitWaits_none : ∀ o ∈ opsOf matrix matrix.cur.1 matrix.cur.2, ¬ (live o = true ∧ isMat o = true) := by decide
/-- The only head that is ready stands at 259's position; it has been ready since 7. -/
theorem meets_MatrixUnitTurnsAndAccumulates : let s := matHeads { multiply with since := some 7 }
    (octet s (octetOf 259)).running = none ∧ (upFrom 0 8).filter (fun p => matReady s (octetCore (octetOf 259) p)) ≠ []
      ∧ (∀ p, p < 8 → ∀ q k, matHead s (octetCore (octetOf 259) p) = some (q, k) → k.guarded.taken ≠ .discard ∧ k.since.isSome = true ∧ k.cls ≤ 7) := by
  refine ⟨by decide, by decide, ?_⟩
  intro p hp q k h
  match p, hp with
  | 0, _ | 1, _ | 2, _ | 3, _ | 4, _ | 5, _ | 6, _ | 7, _ =>
    first
    | (replace h : none = some (q, k) := h; exact nomatch h)
    | (replace h : some (matOp { multiply with since := some 7 }, { multiply with since := some 7 }) = some (q, k) := h
       injection h with h; injection h with h1 h2; subst h2; exact ⟨by decide, rfl, by decide⟩)
theorem meets_MatrixUnit_none : (octet matrix (octetOf 259)).running = none ∧ ∀ p, p < 8 → (matHead matrix (octetCore (octetOf 259) p)).isNone = true := by decide
/-- A head of class 0 on the core beside it, and the product begun. -/
def rivalled (cls : Nat) : State := (withOps (matRuns { multiply with m := { mma8 with k := 64 }, pos := 32 }) [matOp { multiply with m := { mma8 with k := 64 }, pos := 32 }]).updCore 258
  fun k => { k with matQ := [6], ops := [{ matOp { multiply with cls := cls } with id := 6, bank := 258 }] }
theorem meets_MatrixUnit_overtake : ∃ c q k r l, matRunning (rivalled 0) (octetOf 259) = some (c, q, k) ∧ k.fn = .mma ∧ k.pos ≠ 0 ∧ c ≠ octetCore (octetOf 259) 2
    ∧ matHead (rivalled 0) (octetCore (octetOf 259) 2) = some (r, l) ∧ matReady (rivalled 0) (octetCore (octetOf 259) 2) = true ∧ r.id ≠ q.id
    ∧ r.id ∉ (octet (rivalled 0) (octetOf 259)).rivals ∧ effClass (rivalled 0) l < effClass (rivalled 0) k :=
  ⟨_, _, _, _, _, rfl, rfl, by decide, by decide, rfl, by decide, by decide, by decide, by decide⟩
theorem meets_MatrixUnit_mma : ∃ c q k, matRunning (matRuns multiply) (octetOf 259) = some (c, q, k) ∧ k.subst = none ∧ k.rows = none ∧ (∀ e ∈ matSlots k, e.1.empty = false)
    ∧ k.fn = .mma ∧ k.m.ta = .s8 ∧ k.m.tb = .s8 ∧ k.m.k.toNat = 32 ∧ k.pos = 0 ∧ opTy k.a = .s8 ∧ opTy k.b = .s8 ∧ LocalMatrix k.a 1 32 0x1000 64 ∧ LocalMatrix k.b 32 1 0x2000 64
    ∧ ((matRuns multiply).core q.bank).bad = [] ∧ ((matRuns multiply).core q.bank).rings = [] :=
  ⟨259, matOp multiply, multiply, rfl, rfl, rfl, by decide, rfl, rfl, rfl, rfl, rfl, rfl, rfl, by unfold LocalMatrix; decide, by unfold LocalMatrix; decide, rfl, rfl⟩
def zeroing : MatCmd := { multiply with fn := .mzero, a := noOperand, b := noOperand, m := { mma8 with m := 1, n := 15, ta := .f64, tb := .f64, k := 0, ha := 0, hb := 0 } }
/-- MRD.s32 of one row of sixteen into h3. -/
def reading : MatCmd := { zeroing with fn := .mrd, x := captureFlat matrix matrix.k 3, m := { mma8 with hx := 3, ha := 0, hb := 0, n := 15, m := 0, ta := .s32, tb := .s32, k := 0 } }
theorem meets_MatrixUnit_mzero : ∃ c q k, matRunning (matRuns zeroing) (octetOf 259) = some (c, q, k) ∧ k.fn = .mzero ∧ k.subst = none ∧ k.rows = none ∧ (∀ e ∈ matSlots k, e.1.empty = false) :=
  ⟨_, _, _, rfl, rfl, rfl, rfl, by decide⟩
theorem meets_MatrixUnit_mrd : let s := matRuns reading
    ∃ c q k, matRunning s (octetOf 259) = some (c, q, k) ∧ k.subst = none ∧ k.rows = none ∧ (∀ e ∈ matSlots k, e.1.empty = false) ∧ k.fn = .mrd ∧ k.m.ta = .s32 ∧ k.m.tb = .s32
      ∧ opTy k.x = .s32 ∧ k.pos = 0 ∧ k.m.m.toNat + 1 = 1 ∧ k.m.n.toNat + 1 ≤ 16 ∧ k.x.bind = none ∧ k.x.shape.d0.toNat = 0xC000000000000000 + 0x3000 ∧ k.undo = [] ∧ (s.core q.bank).bad = []
      ∧ (s.core q.bank).rings = [] ∧ (s.core q.bank).dirl = [] ∧ (s.core q.bank).inj.mode ≠ 1 :=
  ⟨259, matOp reading, reading, rfl, rfl, rfl, by decide, rfl, rfl, rfl, by decide, rfl, rfl, by decide, rfl, by decide, rfl, rfl, rfl, rfl, by decide⟩
theorem meets_MatrixUnit_end : let k := { multiply with pos := 32, flags := 4 }
    let s := matRuns k
    matRunning s (octetOf 259) = some (259, matOp k, k) ∧ (s.core 259).matQ = [5] ∧ (matOp k).ctx < 16 ∧ matDone k = true ∧ k.m.la = false ∧ k.m.lb = false ∧ (matOp k).cause ≠ .visfail
      ∧ (∀ e ∈ (s.core 259).ctxs, e.2.kept = []) := ⟨rfl, rfl, by decide, by decide, rfl, rfl, by decide, by decide⟩

theorem test_mat_accept : (match exec (.mma mma8) matrix with
    | .next t => (t.core 259).matQ == [0] && t.k.acc == some 0 && t.events == [.matrixSelect (octetOf 259)] && t.k.pc == 0x10C && (Tbl.read (t.core 259).accs 0 {}).owner == some 0
    | _ => false) = true ∧ parks (.mma { mma8 with m := 2 }) matrix = some (21, 0) ∧ (parks (.mma { mma8 with ha := 6 }) matrix).map (·.1) = some 5
    ∧ (parks (.mma { mma8 with ta := .t6, tb := .t6 }) (one { firing with nbv := 1 })).map (·.1) = some 1 := by decide
theorem test_mpri_mwait : (match exec (.mpri 1) user with | .next t => t.k.matCls == 3 | _ => false) = true ∧ (match exec (.mpri 7) user with | .next t => t.k.matCls == 7 | _ => false) = true
    ∧ waits .mwait (matHeads multiply) = true ∧ pcOf .mwait user = some 0x10C := by decide
theorem test_matrix_select : (match exec (.matrixSelect (octetOf 259)) (matHeads multiply) with
    | .next t => (octet t (octetOf 259)).running == some (259, 5) && (octet t (octetOf 259)).last == 3 && t.events == [.matrixKstep (octetOf 259)] && Tbl.read (octet t (octetOf 259)).credit 3 0 == 4 | _ => false) = true := by decide
/-- [1, 2, -1] against a column [10, 0, 0 …] gives 10; with 20 one column on, 20 (R186). -/
theorem test_matrix_kstep : (match exec (.matrixKstep (octetOf 259)) (matRuns { multiply with m := { mma8 with n := 1 } }) with
    | .next t => cell t 259 0 0 0 == 10 && cell t 259 0 0 1 == 20 && t.events == [.matrixCommandEnd (octetOf 259)] | _ => false) = true := by decide
theorem test_matrix_overtake : (match exec (.matrixOvertake (octetOf 259) 2) (rivalled 0) with | .next t => (octet t (octetOf 259)).running == some (258, 6) | _ => false) = true
    ∧ (match exec (.matrixOvertake (octetOf 259) 2) (rivalled 3) with | .next t => (octet t (octetOf 259)).running == some (259, 5) | _ => false) = true := by decide
theorem test_matrix_end : (match exec (.matrixCommandEnd (octetOf 259)) (matRuns { multiply with pos := 32, flags := 4 }) with
    | .next t => (t.core 259).matQ == [] && t.k.fpf == 4 && t.k.events == 1 && (octet t (octetOf 259)).running == none | _ => false) = true := by decide
/-- MRD writes its s32 row, MZERO zeroes its cells, MSCA scales: 2.0 * 3 added to 1.0 is 7.0 (R188-R190). -/
def cells (k : MatCmd) (l : Tbl (BitVec 32)) : State := (matRuns k).updCore 259 fun q => { q with accs := [(0, { owner := some 0, cells := l })] }
theorem test_mrd_mzero : (match execMatrixKstep (octetOf 259) (cells reading [(0, 7), (3, 0xFFFFFFFF), (64, 9)]) with
    | .next t => readBytes (t.core 259).mem 0x3000 17 == [7, 0, 0, 0, 0, 0, 0, 0, 0, 0, 0, 0, 255, 255, 255, 255, 0] | _ => false) = true
    ∧ (match execMatrixKstep (octetOf 259) (cells zeroing [(0, 7), (17, 5), (128, 9)]) with | .next t => cell t 259 0 0 0 == 0 && cell t 259 0 0 17 == 5 && cell t 259 0 2 0 == 9 | _ => false) = true := by decide
def scaling : MatCmd := { zeroing with fn := .msca, x := { captureFlat matrix matrix.k 3 with shape := grid2 0x3000 1 1 1 }, s := { captureFlat matrix matrix.k 3 with shape := row 0x3100 1 1 }, t := { captureFlat matrix matrix.k 3 with shape := row 0x3200 1 1 }, m := { mma8 with hx := 3, ta := .f32, tb := .s32, k := 0 } }
theorem test_msca : (match execMatrixKstep (octetOf 259) ((cells scaling [(0, 3)]).updCore 259 fun q => { q with mem := writeBytes (writeBytes (writeBytes [] 0x3000 [0, 0, 0x80, 0x3F]) 0x3100 [0, 0, 0, 0x40]) 0x3200 [0, 0, 0x80, 0x3F] }) with
    | .next t => readBytes (t.core 259).mem 0x3000 4 == [0, 0, 0xE0, 0x40] | _ => false) = true := by decide

/-! ## Exchanges -/

/-- An exchange of four single bytes among one party: from 0x1000 to 0x1100, its list at 0x5000, XID 5. -/
def xrec (n : Nat) (src dst : Nat) : List Byte :=
  [0, 0] ++ natLE 2 5 ++ natLE 2 1 ++ natLE 2 0 ++ ([n, 1, 1, 1].flatMap (natLE 2)) ++ List.flatten (List.replicate 8 (natLE 2 1)) ++ List.replicate 8 0 ++ List.replicate 16 0
    ++ [0xE4, 0xE4] ++ List.replicate 6 0 ++ natLE 8 (0xC000000000000000 + src) ++ natLE 8 (0xC000000000000000 + dst) ++ natLE 8 0xC000000000005000 ++ natLE 8 0
/-- A firing with that record at 0x4000 (a0) and a party list. -/
def exchanger (r : List Byte) (ps : List Nat) : State := (one { firing with regs := [(8, 0xC000000000004000), (9, 0xC000000000004040), (10, 7)] }).updCore 259
  fun k => { k with mem := writeBytes (writeBytes (writeBytes [] 0x1000 [1, 2, 3, 4]) 0x4000 r) 0x5000 (ps.flatMap (natLE 4)) }
def xok : State := exchanger (xrec 4 0x1000 0x1100) [259]
theorem meets_ExchangesAreAcceptedAndAskedAfter : exchForm (.xstart 8 16) = some (⟨false, false, 0⟩, 8, 16, 4) ∧ Settled xok [16, 8] ∧ engineHeld xok = false ∧ (xok.core 259).portQ.length < 2
    ∧ (xok.core 259).bad = [] ∧ badField (localBytes xok 0x4000 96) = none ∧ (exchAt xok 259 0 0x4000).isNone = true ∧ NewName xok := by unfold NewName; decide
theorem meets_ExchangesAreAccepted_record : localSpan xok (rd xok.k 8) 128 = .ok 0x4000 := rfl
theorem meets_ExchangesAreAccepted_list : ∃ vs, readList (xok.updK fun k => readReplies k [8]) 0xC000000000005000 1 = .ok vs (xok.updK fun k => readReplies k [8]) ∧ vs = [259]
    ∧ partyStop xok 259 259 xok.k (rd xok.k 8) (localBytes xok 0x4000 96) vs [259] = none := ⟨_, rfl, rfl, by decide⟩
theorem meets_ExchangesAreAccepted_misaligned : localSpan xok (rd xok.k 9) 128 = .error { cause := .align, eaddr := rd xok.k 9 } := rfl
theorem meets_ExchangesAreAccepted_field : badField (localBytes (exchanger (xrec 0 0x1000 0x1100) [259]) 0x4000 96) = some 8 := by decide
theorem meets_ExchangesAreAccepted_held : portHeld (xok.updCore 259 fun k => { k with portQ := [1, 2] }) := .inr (by decide)
/-- The exchange in its port, or in the hub at one stage. -/
def exch1 : Exch := { id := 5, core := 259, op := 5, off := 0x4000, record := xrec 4 0x1000 0x1100, parties := [259], me := 0 }
def exchOp (g : Taken) : Op := { loadDue 0 with id := 5, target := none, body := .exch 0x4000 16 { taken := g } false }
def exchQueued (g : Taken) : State := { withOps (xok.updCore 259 fun k => { k with portQ := [5] }) [exchOp g] with exchs := [exch1] }
def exchRuns (e : Exch) : State := { withOps xok [exchOp .run] with exchs := [{ e with active := true }] }
theorem meets_ExchangesAreAccepted_second : (exchAt (exchRuns exch1) 259 0 0x4000).isSome = true ∧ (exchAt (exchQueued .run) 259 0 0x4000).isSome = true := by decide
theorem meets_ExchangesAreAccepted_parties : let ps := [[260], [259, 259], [259, 260, 260]]
    ps.map (fun p => p.count 259) = [0, 2, 1] ∧ ¬ [259, 260, 260].Nodup := by decide
theorem meets_XwaitAsks : Settled xok [16, 9] ∧ (rd xok.k 9).toNat % 128 ≠ 0 ∧ (rd xok.k 8).toNat = 0xC000000000000000 + 0x4000 ∧ (exchAt xok 259 0 0x4000).isNone = true := by decide
theorem meets_XwaitAsks_idle : Idle xok ∧ PlainBanks xok 259 :=
  ⟨⟨by decide, by decide, by decide, by decide, by decide, by decide⟩, ⟨rfl, rfl, rfl, rfl, rfl, by decide, by decide⟩⟩
theorem meets_XcancelDiscards : let s := exchQueued .run
    exchAt s 259 0 0x4000 = some exch1 ∧ exch1.active = false ∧ Memory.wf (s.core 259).mem = true ∧ (∀ q ∈ s.awaiting, q.op ≠ 5) ∧ opById s 259 5 = some (exchOp .run) := by decide
theorem meets_DistributionsGiveEachIndexOneHome : let xs : List Dist := [⟨0, 7, 3, 0⟩, ⟨1, 7, 3, 0⟩, ⟨2, 7, 3, 2⟩]
    xs.map (fun x => (upFrom 0 7).map (ownerOf x)) = [[0, 0, 1, 1, 2, 2, 2], [0, 1, 2, 0, 1, 2, 0], [0, 0, 1, 1, 2, 2, 0]]
      ∧ ∀ x ∈ xs, x.kind ≤ 2 ∧ 0 < x.p ∧ (x.kind = 2 → 0 < x.b) ∧ 6 < x.n := by decide
theorem meets_ExchangesRunAndEnd_port : let s := exchQueued .run
    (s.core 259).portQ = [5] ∧ opById s 259 5 = some (exchOp .run) ∧ (s.exchs.find? fun e => e.core == 259 && e.op == 5 && !e.ended) = some exch1 ∧ (∀ q ∈ s.awaiting, q.op ≠ 5)
      ∧ (s.exchs.filter fun q => q.active && q.core == 259).length < 4 ∧ vectorsBefore s 259 (exchOp .run) = false ∧ xAcq exch1.record = false := by decide
theorem meets_ExchangesRunAndEnd_full : let s := { exchQueued .run with exchs := exch1 :: (upFrom 6 4).map fun i => { exch1 with id := i, op := i, active := true } }
    (s.exchs.filter fun q => q.active && q.core == 259).length ≥ 4 := by decide
theorem meets_ExchangesRunAndEnd_memories : memoriesCanonical (exchRuns exch1) := canonical_one _ (by decide) (by decide) (by decide)
/-- It stands in the hub; its walk is at its end; it is complete. -/
theorem meets_ExchangesRunAndEnd : Running (exchRuns exch1) { exch1 with active := true } (exchOp .run) 16 :=
  ⟨by decide, by decide, rfl, by decide, ⟨_, _, _, rfl⟩, by decide, meets_ExchangesRunAndEnd_memories⟩
theorem meets_ExchangesRunAndEnd_walk : let e : Exch := { exch1 with active := true, pos := 4 }
    Running (exchRuns e) e (exchOp .run) 16 ∧ product (srcExts e.record e.me) ≤ e.pos ∧ xIndexed e.record = false ∧ storesBefore (exchRuns e) 259 (exchOp .run) = false :=
  ⟨⟨by decide, by decide, rfl, by decide, ⟨_, _, _, rfl⟩, by decide, canonical_one _ (by decide) (by decide) (by decide)⟩, by decide, by decide, by decide⟩
/-- Complete: four bytes sent, acknowledged and received of the four that the map assigns to it. -/
def complete : Exch := { exch1 with active := true, walked := true, sent := 4, acked := 4, rcvd := 4, got := [(0, 4)], debt := [(0, 4)] }
theorem meets_ExchangesRunAndEnd_end : complete.walked = true ∧ complete.acked = complete.sent ∧ paidUp complete = true ∧ complete.failed = none ∧ xRel complete.record = false
    ∧ ¬ ({ complete with acked := 3 } : Exch).acked = complete.sent := by decide
/-- A run of its four bytes, an acknowledgement of it, and a message for a party that has not begun. -/
def xrun : XMsg := { id := 9, xid := 5, src := 259, dst := 259, fromP := 0, toP := 0, doff := 0, bytes := [1, 2, 3, 4], map := some (mapOf exch1), digest := digestOf exch1, sop := 5, n := 4 }
def arriving (e : Exch) (m : XMsg) : State := { exchRuns e with xmsgs := [m] }
theorem meets_ExchangesRunAndEnd_run : let s := arriving exch1 xrun
    (xmsgById s 9).map (·.id) = some 9 ∧ xrun.n = xrun.bytes.length ∧ xrun.doff + xrun.n ≤ xEs exch1.record * product (dstExts exch1.record 0)
      ∧ (xBase exch1.record true + BitVec.ofNat 64 xrun.doff).toNat = 0xC000000000000000 + 0x1100 ∧ 0x1100 % 64 + xrun.n ≤ 64
      ∧ (s.core 259).windows = [] ∧ (s.core 259).rings = [] ∧ (s.core 259).dirl = [] ∧ (s.core 259).bad = [] ∧ (s.core 259).inj.mode ≠ 1 ∧ behindRuns s xrun = false ∧ xrun.src / 8192 = 0 := by decide
theorem meets_ExchangesRunAndEnd_receiver : (receiver (arriving { exch1 with bound := [(0, 5)] } xrun) xrun).isSome = true ∧ sameMap xrun exch1 = true :=
  ⟨rfl, by unfold sameMap; decide⟩
theorem meets_ExchangesRunAndEnd_early : receiver { arriving exch1 { xrun with xid := 6 } with exchs := [exch1] } xrun = none := rfl
theorem meets_ExchangesRunAndEnd_ack : let m := { xrun with toP := 1, dst := 300, bytes := [] }
    receiver (arriving exch1 m) m = none ∧ m.src / 8192 = 0 ∧ ((arriving exch1 m).exchs.find? fun e => (e.active || e.ended) && e.core == m.src && e.op == m.sop).isSome = true := ⟨rfl, by decide, by decide⟩
/-- A supervisor's firing that writes a multicast entry (a0, a1), or an access-table entry from its record at 0x1000 (a2). -/
def fabricSuper (a b : Word) : State :=
  { (one firing) with cur := (260, 0), cores := [(260, { ctxs := [(0, { superv with regs := [(8, a), (9, b), (10, 0xC000000000001000), (11, 1)] })], mem := writeBytes [] 0x1000 (natLE 8 0x100 ++ natLE 8 0x1FF ++ natLE 8 0x0000008F00020001) })] }
theorem meets_ConfigurationWritesEnterThePort : let s := fabricSuper 0x00700105 5
    isSuper s s.k = true ∧ Settled s [16, 8, 9] ∧ acqPending (opsOf s 260 0) = false ∧ (s.core 260).portQ.length < 2 ∧ (s.core 260).ops.length + 1 ≤ 64 ∧ configPending (opsOf s 260 0) = false
      ∧ field (rd s.k 8) 9 8 ≠ 3 ∧ field (rd s.k 8) 11 10 = 0 ∧ field (rd s.k 8) 63 24 = 0 ∧ field (rd s.k 9) 63 18 = 0 ∧ NewName s := by unfold NewName; decide
theorem meets_ConfigurationWrites_reserved : field (rd (fabricSuper 0x300 5).k 8) 9 8 = 3 ∧ field (rd (fabricSuper 0x300 0).k 9) 7 0 = 0 := by decide
theorem meets_ConfigurationWrites_record : let s := fabricSuper 0 1
    Idle s ∧ PlainBanks s 260 ∧ LocalAt (rd s.k 10) 0x1000 32 ∧ field (rd s.k 9) 63 14 = 0 ∧ field (rd s.k 9) 7 0 ≠ 0
      ∧ field (leWord (readBytes (s.core 260).mem 0x1010 8)) 11 0 ≤ field (leWord (readBytes (s.core 260).mem 0x1010 8)) 27 16 :=
  ⟨⟨by decide, by decide, by decide, by decide, by decide, by decide⟩, ⟨rfl, rfl, rfl, rfl, rfl, by decide, by decide⟩, by unfold LocalAt; decide, by decide, by decide, by decide⟩

theorem test_xstart : (match exec (.xstart 8 16) xok with
    | .next t => (t.core 259).portQ == [0] && t.exchs.map (fun e => (e.parties, e.me, e.active)) == [([259], 0, false)] && t.k.pc == 0x104 && t.events == [.exchangeStart 259] | _ => false) = true
    ∧ (parks (.xstart 8 16) (exchanger (xrec 0 0x1000 0x1100) [259])) = some (21, 8) ∧ (parks (.xstart 8 16) (exchanger (xrec 4 0x1000 0x1100) [260])) = some (21, 0x81) := by decide
theorem test_xstart_ecx : (match exec (.xstartEcx ⟨false, false, 0⟩ 8 16) xok with | .next t => (t.core 259).portQ == [0] && t.k.pc == 0x10C | _ => false) = true := by decide
theorem test_xwait_xstat : waits (.xwait 8 16) (exchQueued .run) = true ∧ reg (.xwait 8 16) xok 16 = some 0 ∧ reg (.xstat 8 17) (exchQueued .run) 17 = some 0x0600000000000000
    ∧ reg (.xstat 8 17) (exchRuns { exch1 with rcvd := 3 }) 17 = some 0x0500000000000003 := by decide
theorem test_xcancel : (match exec (.xcancel 8) (exchQueued .run) with | .next t => (t.core 259).portQ == [] && rd t.k 16 == 0x0100000000000000 && readBytes (t.core 259).mem 0x4078 8 == [0, 0, 0, 0, 0, 0, 0, 1] | _ => false) = true
    ∧ (parks (.xcancel 9) xok).map (·.1) = some 4 := by decide
theorem test_exchange_start : (match exec (.exchangeStart 259) (exchQueued .run) with
    | .next t => (t.core 259).portQ == [] && t.exchs.map (·.active) == [true] && t.events == [.exchangeStart 259, .exchangeRun 5]
    && readBytes (t.core 259).mem 0x4078 8 == [0, 0, 0, 0, 0, 0, 0, 5] | _ => false) = true := by decide
/-- The walk sends its four bytes as one run and ends. -/
theorem test_exchange_run : (match exec (.exchangeRun 5) (exchRuns exch1) with
    | .next t => t.xmsgs.map (fun m => (m.doff, m.bytes, m.n)) == [(0, [1, 2, 3, 4], 4)] && t.exchs.map (fun e => (e.walked, e.sent)) == [(true, 4)] | _ => false) = true := by decide
theorem test_exchange_end : (match exec (.exchangeEnd 5) (exchRuns complete) with
    | .next t => rd t.k 16 == 4 && t.exchs == [] && t.k.events == 1 && readBytes (t.core 259).mem 0x4060 24 == natLE 8 4 ++ natLE 8 4 ++ natLE 8 4 | _ => false) = true := by decide
theorem test_exchange_ack : (match exec (.exchangeAck 9) (arriving { exch1 with sent := 4, bound := [(0, 5)] } { xrun with bytes := [] }) with
    | .next t => t.exchs.map (·.acked) == [4] && t.xmsgs == [] | _ => false) = true := by decide
theorem test_exchange_notices : (match exec (.closingNotice 9) (arriving { exch1 with bound := [(0, 5)] } { xrun with bytes := [] }) with | .next t => t.exchs.map (·.debt) == [[(0, 4)]] | _ => false) = true
    ∧ (match exec (.abandonment 9) (arriving { exch1 with bound := [(0, 5)] } { xrun with bytes := [], cause := 12 }) with | .next t => t.exchs.map (·.abandoned) == [[(0, 12)]] | _ => false) = true := by decide
theorem test_mcwr_aclwr : (match exec (.mcwr 9 8 16) (fabricSuper 0x00700105 5) with | .next t => (t.core 260).portQ == [0] && t.k.pc == 0x104 | _ => false) = true
    ∧ parks (.mcwr 9 8 16) (fabricSuper 0x300 5) = some (8, 6) ∧ parks (.aclwr 9 10 16) (fabricSuper 0 1) = none ∧ (parks (.mcwr 9 8 16) user).map (·.1) = some 2 := by decide

/-! ## Levels, messages and firings -/

/-- Block 0 of actor 0 and block 1 of actor 2, each one edge from the other; steps of 4 from level 8. -/
def blk (a j : Nat) : Block := { t := 8, d := 4, actor := a, x := row 0x1000 16 8, y := row 0x1100 16 8, edges := [{ a := 0, s := false, j := j, lvl := 8, step := 4 }] }
def dom2 : Dom := { dom1 with nblk := 2, blocks := [(0, blk 0 1), (1, blk 2 0)], lvArmed := true, nadir := 8
                              actors := [(0, { core := 259, wid := 7, block := some 0, args := [1, 2, 3], entry := 0x400, fired := 6, est := 10, running := true }), (1, { core := 260, x := 1, fired := 1, begun := true }),
                                (2, { core := 261, block := some 1, entry := 0x400 })] }
def atLevel : Ctx := { firing with work := some { dom := 1, actor := some 0, gtid := 0x0001000000000005, t := 8, d := 4 }, regs := [(8, -1), (9, 1), (10, -2), (11, 7), (12, 6), (13, 70000), (14, 0xC000000000001000)] }
/-- Another context of that domain: idle at home. -/
def resting (a : Nat) : Ctx := { status := .idle, home := some (1, some a) }
def levels (k : Ctx) : State := { (one k) with doms := [(1, dom2)], cores := [(259, { ctxs := [(0, k)] }), (260, { ctxs := [(0, superv)] }), (261, { ctxs := [(0, resting 2)] })] }
theorem meets_LevelFunctionsReadAndBind : let s := levels atLevel
    Settled s [16, 8] ∧ (rd s.k 8).toNat = 2 ^ 64 - 1 ∧ (rd s.k 10).toNat = 2 ^ 64 - 2 ∧ (rd s.k 9).toNat = 1 ∧ (rd s.k 9).toNat < (s.dom (domOf s.k)).nblk ∧ (s.dom (domOf s.k)).nblk ≤ (rd s.k 11).toNat
      ∧ ownBlockOf s = some (0, blk 0 1) ∧ (s.dom (domOf s.k)).scope ≠ .sys ∧ (blk 0 1).edges.find? (fun e => e.j == 1) = some { a := 0, s := false, j := 1, lvl := 8, step := 4 } := by decide
theorem meets_LevelFunctions_blockless : ownBlockOf user = none ∧ Settled user [16, 8] := by decide
theorem meets_LvstepTakesAStep : let s := levels atLevel
    (rd s.k 12).toNat ≤ 65535 ∧ 65535 < (rd s.k 13).toNat ∧ (ownBlockOf s).isSome = true := by decide
/-- A rule table of two rows at 0x1000, under a supervisor of a frozen domain: block 0 takes an edge of block 1 with a = -4 and S, block 1 none. -/
def binder (frozen : Bool) (n : Nat) (e : Nat) : State :=
  { (levels atLevel) with
    cur := (260, 0), doms := [(1, { dom2 with frozen := frozen })]
    cores := [(259, { ctxs := [(0, { atLevel with status := .parked })] }),
      (260, { ctxs := [(0, { superv with regs := [(8, 0xC000000000001000), (9, 0xC000000000001008)] })], mem := writeBytes (writeBytes [] 0x1000 (natLE 8 n)) 0x1040 (natLE 8 e) }), (261, { ctxs := [(0, resting 2)] })] }
theorem meets_LvbindBinds : let s := binder true 2 (1 + 2 ^ 20 + 2 ^ 21 + 0xFFFC * 2 ^ 32)
    Settled s [16, 8] ∧ (rd s.k 9).toNat % 64 ≠ 0 ∧ (rd s.k 8).toNat = 0xC000000000000000 + 0x1000 ∧ 0x1000 + 64 * ((s.dom (domOf s.k)).nblk + 1) ≤ 0x30000 ∧ (s.dom (domOf s.k)).frozen = true
      ∧ levelsOnWay s (domOf s.k) = false ∧ field (leWord (readBytes (s.core 260).mem 0x1000 8)) 19 0 = (s.dom (domOf s.k)).nblk := by decide
theorem meets_LvbindBinds_banks : Idle (binder true 2 0) ∧ PlainBanks (binder true 2 0) 260 :=
  ⟨⟨by decide, by decide, by decide, by decide, by decide, by decide⟩, ⟨rfl, rfl, rfl, rfl, rfl, by decide, by decide⟩⟩
theorem meets_LvbindBinds_sound : let s := binder true 2 (1 + 2 ^ 20 + 2 ^ 21 + 0xFFFC * 2 ^ 32)
    let w := fun (i : Nat) => leWord (readBytes (s.core 260).mem (0x1000 + 8 * i) 8)
    field (w 0) 63 20 = 0 ∧ (upFrom 1 7).all (fun i => w i == 0) = true ∧ ((upFrom 8 16).all fun i => field (w i) 63 48 == 0 && field (w i) 31 22 == 0 && (!(w i).getLsbD 21 || field (w i) 19 0 < 2)) = true := by decide
theorem meets_LvbindBinds_refused : field (leWord (readBytes ((binder true 3 0).core 260).mem 0x1000 8)) 19 0 ≠ dom2.nblk ∧ field (leWord (readBytes ((binder true 2 (2 + 2 ^ 21)).core 260).mem 0x1040 8)) 19 0 = dom2.nblk
    ∧ ((binder false 2 0).dom 1).frozen = false := by decide
/-- Operands that name context 0 of core (3, 2) itself or of core (5, 2), and 64 bytes at 0x1000. -/
def sender (sent : Bool) : State := levels { atLevel with sending := sent, regs := [(8, 0xC000000000001000), (9, 0xC000000000000000), (10, BitVec.ofNat 64 (2 ^ 62 + 5 * 2 ^ 43 + 2 * 2 ^ 37)), (11, 3), (12, BitVec.ofNat 64 (2 ^ 62 + 9 * 2 ^ 43))] }
theorem meets_MessagesAreSentAcceptedAndTaken : let s := sender false
    Settled s [10, 8] ∧ s.k.away = none ∧ coreNamed s (rd s.k 10) = some (0, 5, 2) ∧ field (rd s.k 10) 17 4 = 0 ∧ s.coreExists 5 2 = true ∧ s.k.sending = false
      ∧ holdsActor s (domOf s.k) (2 * 128 + 5) 0 = true ∧ (s.dom 1).scope ≠ .sys ∧ releaseReady (opsOf s 259 0) s.nextId (s.dom 1).scope = true ∧ coreNamed s (rd s.k 11) = none := by decide
theorem meets_MessagesAreSent_operand : localSpan (sender false) (rd (sender false).k 8) 64 = .ok 0x1000 ∧ localSpan (sender false) (rd (sender false).k 11) 64 = .error { cause := .align, eaddr := 3 } := ⟨rfl, rfl⟩
theorem meets_MessagesAreSent_nobody : coreNamed (sender false) (rd (sender false).k 12) = some (0, 9, 0) ∧ (sender false).coreExists 9 0 = true ∧ holdsActor (sender false) 1 9 0 = false := by decide
theorem meets_MessagesAreSent_waiting : let m : LMsg := { core := 261, ctx := 0, dom := 1, stamp := 12, src := 259, srcCtx := 0, bytes := [] }
    (sender true).k.sending = true ∧ unsentMsg { sender true with lmsgs := [(4, m)] } 259 0 1 = true ∧ unsentMsg (sender true) 259 0 1 = false := by decide
/-- Two messages for the firing, of stamps 12 and 9; one on its way to it. -/
def lmsg (st src : Nat) : LMsg := { core := 259, ctx := 0, dom := 1, stamp := BitVec.ofNat 32 st, src := src, srcCtx := 3, bytes := List.replicate 64 7 }
def receiving : State := { (levels { atLevel with regs := [(8, 0xC000000000001000)] }).updCore 259 fun k => { k with inbox := [lmsg 12 300, lmsg 9 301] } with lmsgs := [(4, lmsg 10 302)] }
theorem meets_InboxAccepts : receiving.lmsgs.find? (fun m => m.1 == 4) = some (4, lmsg 10 302) ∧ (receiving.core 259).inbox.length < 28 ∧ (lmsg 10 302).src / 8192 = 0
    ∧ 28 ≤ ((receiving.updCore 259 fun k => { k with inbox := List.replicate 28 (lmsg 1 2) }).core 259).inbox.length := by decide
theorem meets_LvrecvTakes : let s := receiving
    Settled s [16, 8] ∧ s.k.away = none ∧ (s.core 259).inbox.filter (fun m => m.ctx == s.cur.2 && m.dom == 1) ≠ [] ∧ (s.dom 1).scope ≠ .sys ∧ (user.core 259).inbox = [] := by decide
theorem meets_LvrecvTakes_banks : Idle receiving ∧ PlainBanks receiving 259 ∧ localSpan receiving (rd receiving.k 8) 64 = .ok 0x1000 :=
  ⟨⟨by decide, by decide, by decide, by decide, by decide, by decide⟩, ⟨rfl, rfl, rfl, rfl, rfl, by decide, by decide⟩, rfl⟩
theorem meets_SupervisorMessageEnters : let s := levels atLevel
    s.dom? 1 = some dom2 ∧ Tbl.find dom2.actors dom2.super = some { core := 260, x := 1, fired := 1, begun := true } ∧ isMine s dom2 { core := 260, x := 1, fired := 1, begun := true } = true := by decide
theorem meets_FendCommitsTheFiring : MayCommit (levels atLevel) 259 0 { dom := 1, actor := some 0, gtid := 0x0001000000000005, t := 8, d := 4 } 0 0 (blk 0 1)
    { core := 259, wid := 7, block := some 0, args := [1, 2, 3], entry := 0x400, fired := 6, est := 10, running := true } ∧ stepFault dom2 0 (blk 0 1) { dom := 1, actor := some 0, gtid := 5, t := 8, d := 4 } 4 = none := by unfold MayCommit PeerFree; decide
theorem meets_FendRefusesItsStep : ((8 : BitVec 32) + BitVec.ofNat 32 4).toNat % 5 ≠ 0 ∧ ({ atLevel with lvstep := some 5 } : Ctx).lvstep = some 5 := by decide
theorem meets_FendWaits : drained (opsOf (withOps (levels atLevel) [loadDue 16]) 259 0) = false := by decide
theorem meets_FendCommits_later : (match instrAt (withWords (levels atLevel) (encode .fend)) 259 0 with | some .fend => true | _ => false) = true
    ∧ (withWords (levels atLevel) (encode .fend)).k.status = .ready := by decide
theorem meets_FiringsBeginWhenTheirGatesHold : let s := levels atLevel
    s.dom? 1 = some dom2 ∧ Tbl.find dom2.blocks 1 = some (blk 2 0) ∧ (blk 2 0).edges[0]? = some { a := 0, s := false, j := 0, lvl := 8, step := 4 }
      ∧ (∀ n, Tbl.find dom2.blocks 0 = some n → isMine s dom2 (Tbl.read dom2.actors n.actor {}) = true) ∧ runnable s 1 2 = true ∧ runnable s 1 0 = false ∧ runClass dom2 ≠ 0 ∧ s.carried = 0 ∧ 2 ≠ dom2.super := by
  refine ⟨by decide, by decide, by decide, ?_, by decide, by decide, by decide, by decide, by decide⟩
  intro n h; cases h; rfl
theorem meets_FiringsBegin_poor : ({ levels atLevel with debt := 1, carried := 1 } : State).carried ≠ 0 := by decide
theorem meets_NadirRises : nadirValues (levels atLevel) 1 ≠ [] ∧ (∀ p ∈ dom2.pkgs, p = (levels atLevel).pkid) ∧ nadirValues user 1 = [] := by decide
/-- The domain at rest since 100, its gates shut. -/
def stalledDom (t : Nat) (armed : Bool) : State :=
  let shut := fun (j : Nat) => { blk j (2 - j / 2 * 2) with edges := [{ a := 9, s := false, j := 1, lvl := 8 }] }
  { (levels atLevel) with time := t, cur := (0, 0), selected := false
                          doms := [(1, { dom2 with quiet := some 100, lvArmed := armed, blocks := [(0, shut 0), (1, shut 2)], actors := dom2.actors.map fun e => (e.1, { e.2 with running := false }) })]
                          cores := [(259, { ctxs := [(0, resting 0)] }), (260, { ctxs := [(0, resting 1)] }), (261, { ctxs := [(0, resting 2)] })] }
theorem meets_LvstallTells : let s := stalledDom 13100 true
    quiescent s 1 = true ∧ (s.dom 1).quiet = some 100 ∧ 100 + 13000 ≤ s.time ∧ (s.dom 1).lvArmed = true ∧ blocksDone (s.dom 1) = false ∧ (stalledDom 13099 true).time < 100 + 13000 ∧ (user.dom 1).quiet = none
      ∧ Alone s 1 ∧ isMine s (s.dom 1) (Tbl.read (s.dom 1).actors (s.dom 1).super {}) = true ∧ (stalledDom 13100 false).doms ≠ s.doms ∧ quiescent (levels atLevel) 1 = false := by
  unfold Alone; decide

theorem test_lvrd : reg (.lvrd 8 16) (levels atLevel) 16 = some 0x0000000400000008 ∧ reg (.lvrd 9 16) (levels atLevel) 16 = some 0x0000000400000008 ∧ reg (.lvrd 10 16) (levels atLevel) 16 = some 8
    ∧ parks (.lvrd 11 16) (levels atLevel) = some (21, 0xA2) ∧ parks (.lvrd 8 16) (ab (-1) 0) = some (21, 0xA0) := by decide
theorem test_lvstep : (match exec (.lvstep 12) (levels atLevel) with | .next t => t.k.lvstep == some 6 | _ => false) = true ∧ parks (.lvstep 13) (levels atLevel) = some (16, 1) := by decide
theorem test_lvbind : (match exec (.lvbind 8 16) (binder true 2 (1 + 2 ^ 20 + 2 ^ 21 + 0xFFFC * 2 ^ 32)) with
    | .next t => ((Tbl.find (t.dom 1).blocks 0).map fun b => b.edges.map fun e => (e.a, e.s, e.j, e.lvl)) == some [(-4, true, 1, 8)] && rd t.k 16 == 0 | _ => false) = true
    ∧ parks (.lvbind 8 16) (binder false 2 0) = some (21, 0xA1) ∧ parks (.lvbind 8 16) (binder true 3 0) = some (21, 0xA4) ∧ parks (.lvbind 8 16) (binder true 2 (2 + 2 ^ 21)) = some (21, 0xA5) := by decide
theorem test_lvsend : (match exec (.lvsend 10 8) (sender false) with | .next t => t.lmsgs.map (fun m => (m.2.core, m.2.stamp)) == [(261, 12)] && t.k.sending && t.k.pc == 0x100 | _ => false) = true
    ∧ pcOf (.lvsend 10 8) (sender true) = some 0x104 ∧ parks (.lvsend 12 8) (sender false) = some (5, 0xA3) := by decide
theorem test_lvrecv : (match exec (.lvrecv 8 16) receiving with
    | .next t => rd t.k 16 == 0x8600012D00000009 && readBytes (t.core 259).mem 0x1000 2 == [7, 7] && (t.core 259).inbox.map (·.stamp) == [12] | _ => false) = true := by decide
theorem test_inbox_message : (match exec (.inboxMessage 4) receiving with | .next t => (t.core 259).inbox.map (·.stamp) == [12, 9, 10] && t.lmsgs == [] && t.k.events == 1 | _ => false) = true := by decide
theorem test_supervisor_message : (match exec (.supervisorMessage 1) ((levels atLevel).updDom 1 fun d => { d with waitMsgs := List.replicate 5 ⟨1, 2, 3, 4⟩ }) with
    | .next t => (t.core 260).smsgs.length == 4 && (t.dom 1).waitMsgs.length == 1 | _ => false) = true := by decide
/-- The commit raises the level to 12, exchanges the buffers and tells block 1 (R317, R327). -/
theorem test_fend : (match exec .fend (levels atLevel) with
    | .next t => ((Tbl.find (t.dom 1).blocks 0).map fun b => (b.t, b.d, b.x == row 0x1100 16 8)) == some (12, 4, true) && t.events.contains (.levelNotification 1 1 0 12 4 false)
        && (t.dom 1).ndone == 1 && (t.ctx 259 0).status == .idle | _ => false) = true ∧ parks .fend (levels { atLevel with lvstep := some 5 }) = some (16, 2) := by decide
theorem test_fend_commit : (match execFendCommit 259 0 (withWords (levels { atLevel with lvstep := some 0 }) (encode .fend)) with
    | .next t => ((Tbl.find (t.dom 1).blocks 0).map fun b => (b.t, b.d, b.fin)) == some (12, 4, true) | _ => false) = true := by decide
theorem test_level_notification : (match exec (.levelNotification 1 1 0 12 2 false) (levels atLevel) with
    | .next t => ((Tbl.find (t.dom 1).blocks 1).map fun b => b.edges.map fun e => (e.lvl, e.step, e.count)) == some [(12, 2, 1)] && (t.ctx 261 0).events == 1 | _ => false) = true := by decide
theorem test_gate_evaluate : (match exec (.gateEvaluate 1 1) (levels atLevel) with | .next t => t.events == [.firingDispatch 1 2] | _ => false) = true := by decide
theorem test_firing_dispatch : (match exec (.firingDispatch 1 2) (levels atLevel) with
    | .next t => let k := t.ctx 261 0
      k.status == .ready && k.pc == 0x400 && rd k 9 == 1 && rd k 10 == 8 && rd k 11 == 4 && rd k 12 == 0 && gtidOf k == 0x0001000100000000 | _ => false) = true := by decide
theorem test_nadir_refresh : (match exec (.nadirRefresh 1) ((levels atLevel).updDom 1 fun d => { d with nadir := 5 }) with | .next t => (t.dom 1).nadir == 8 | _ => false) = true
    ∧ (match exec (.nadirRefresh 1) ((levels atLevel).updDom 1 fun d => { d with nadir := 9 }) with | .next t => (t.dom 1).nadir == 9 | _ => false) = true := by decide
theorem test_lvstall : (match exec (.lvstall 1) (stalledDom 13100 true) with | .next t => (t.dom 1).waitMsgs.map (fun m => m.d0.toNat % 4096) == [2 * 256 + 17] && !(t.dom 1).lvArmed | _ => false) = true := by decide

/-! ## Tasks -/

/-- Domain 1 with task contexts; one rests on context 1 of the issuing core. -/
def tasking (k : Ctx) : State :=
  { (one k) with doms := [(1, { dom1 with taskc := 2, test := 5 })], reservoir := 100
                 cores := [(259, { ctxs := [(0, k), (1, { status := .idle, home := some (1, none) })] }), (260, { ctxs := [(0, superv)] })] }
/-- Entry 0x200 in a0, a counter at 0x1000 in a1, one off by 4 in a2, and arguments. -/
def spawner : State := tasking { firing with regs := [(8, 0x200), (9, 0xC000000000001000), (10, 0xC000000000001004), (24, 1), (25, 2), (26, 3), (27, 4)] }
theorem meets_TasksAreSpawnedEndedAndJoined : let s := spawner
    Settled s [9, 8] ∧ (rd s.k 9).toNat % 8 = 0 ∧ (rd s.k 10).toNat % 8 ≠ 0 ∧ (s.dom (domOf s.k)).taskc ≠ 0 ∧ Untraced s 259 ∧ (s.core 259).deque.length < 32
      ∧ (∀ e ∈ s.dies, e.2.queue.length < 65536) ∧ releaseReady (opsOf s 259 0) s.nextId .pkg = true ∧ s.diePresent 0 = true ∧ gridMeets (s.dom 1) 0 = true ∧ gridMeets (s.dom 1) 3 = false := by
  unfold Untraced; decide
theorem meets_SpawnTargets : regTarget (rd spawner.k 8) = .ok 0x200 := rfl
theorem meets_SpawnTargets_counter : Idle spawner ∧ PlainBanks spawner 259 ∧ LocalAt (rd spawner.k 9) 0x1000 8 :=
  ⟨⟨by decide, by decide, by decide, by decide, by decide, by decide⟩, ⟨rfl, rfl, rfl, rfl, rfl, by decide, by decide⟩, by unfold LocalAt; decide⟩
theorem meets_SpawnTargets_none : (user.dom (domOf user.k)).taskc = 0 ∧ (user.die 0).ten = false ∧ ({ spawner with devcap := 0xE } : State).diePresent 0 = false := by decide
theorem meets_SpawnTargets_busy : releaseReady (opsOf (withOps spawner [{ loadDue 0 with body := .store 8 5 false none false true }]) 259 0) 9 .pkg = false := by decide
/-- A task of domain 1, and a firing of it. -/
def job : Task := { dom := 1, pc := 0x200, args := [1, 2, 3, 4], counter := 0xC000000000001000, gtid := 0x0001000040000000, die := none, core := 259, ctx := 0 }
def atTask (ctr : Word) : Ctx := { firing with home := some (1, none), work := some { dom := 1, actor := none, gtid := job.gtid, task := some { job with counter := ctr } }, regs := [(8, 0xC000000000001000)] }
theorem meets_TendEnds : let s := tasking (atTask 0)
    s.k.away = none ∧ s.k.handles = [] ∧ s.k.acc = none ∧ s.k.sending = false ∧ Untraced s 259 ∧ drained (opsOf s 259 0) = true ∧ releaseReady (opsOf s 259 0) s.nextId .pkg = true
      ∧ (s.k.work.bind (·.task)) = some { job with counter := 0 } ∧ (user.k.work.bind (·.task)) = none := by unfold Untraced; decide
theorem meets_TendEnds_counter : let s := tasking (atTask 0xC000000000001000)
    Idle s ∧ PlainBanks s 259 ∧ LocalAt 0xC000000000001000 0x1000 8 :=
  ⟨⟨by decide, by decide, by decide, by decide, by decide, by decide⟩, ⟨rfl, rfl, rfl, rfl, rfl, by decide, by decide⟩, by unfold LocalAt; decide⟩
theorem meets_TendEnds_waits : drained (opsOf (withOps (tasking (atTask 0)) [loadDue 16]) 259 0) = false := by decide
/-- The counter of the word at 0x1000 as JOINW reads it: 2 tasks out, or none with bit 63 set. -/
def joining (n : Nat) : State := (tasking (atTask 0)).updCore 259 fun k => { k with mem := writeBytes [] 0x1000 (natLE 8 n) }
theorem meets_JoinwJoins : Settled (joining 2) [8] ∧ (joining 2).k.joinLine = none ∧ (rd spawner.k 10).toNat % 8 ≠ 0 ∧ leNat (readBytes ((joining 2).core 259).mem 0x1000 8) % 2 ^ 63 ≠ 0
    ∧ leNat (readBytes ((joining (2 ^ 63)).core 259).mem 0x1000 8) % 2 ^ 63 = 0 ∧ (tasking { (atTask 0) with joinLine := some (.loc 259 0x1000) }).k.joinLine.isSome = true := by decide
theorem meets_JoinwJoins_banks : Idle (joining 2) ∧ PlainBanks (joining 2) 259 ∧ LocalAt (rd (joining 2).k 8) 0x1000 8 :=
  ⟨⟨by decide, by decide, by decide, by decide, by decide, by decide⟩, ⟨rfl, rfl, rfl, rfl, rfl, by decide, by decide⟩, by unfold LocalAt; decide⟩
/-- Tasks of domains 1, 2 and 1 in the deque; one in the die's queue. -/
def queued (d : List Task) (q : List Task) : State := ((tasking firing).updCore 259 fun k => { k with deque := d }).updDie 0 fun k => { k with queue := q }
theorem meets_TaskContextsSearchInOrder : let s := queued [job, { job with pc := 0x300 }, { job with dom := 2 }] []
    s.dom? 1 = some { dom1 with taskc := 2, test := 5 } ∧ (s.ctx 259 1).home = some (1, none) ∧ (s.ctx 259 1).work = none ∧ (s.core 259).rest = none ∧ (s.die 0).reset = none ∧ (s.die 0).isolated = false ∧ Untraced s 259
      ∧ (s.core 259).deque = [job] ++ { job with pc := 0x300 } :: [{ job with dom := 2 }] ∧ (∀ r ∈ [{ job with dom := 2 }], r.dom ≠ 1) ∧ (s.core 259).overflow = [] ∧ s.debt = 0 ∧ 5 ≤ s.reservoir
      ∧ { job with pc := 0x300 } ∉ [job] := by unfold Untraced; decide
theorem meets_TaskContexts_die : let s := queued [] [{ job with dom := 2 }, job]
    (s.die (dieOf 259)).queue = [{ job with dom := 2 }] ++ job :: [] ∧ (∀ r ∈ [{ job with dom := 2 }], r.dom ≠ 1) ∧ (∀ e ∈ s.cores, ∀ r ∈ e.2.deque, r.dom ≠ 1) := by decide
theorem meets_TaskContexts_none : (∀ e ∈ (tasking firing).cores, ∀ r ∈ e.2.deque, r.dom ≠ 1) ∧ (∀ e ∈ (tasking firing).dies, ∀ r ∈ e.2.queue, r.dom ≠ 1) ∧ (user.ctx 259 0).home = some (1, some 0) := by decide
theorem meets_TaskContexts_rest : let s := { (tasking firing).updCore 259 fun k => { k with rest := some 100, fails := 3 } with time := 4196 }
    (s.core 259).rest = some 100 ∧ 100 + 4096 ≤ s.time ∧ (user.core 259).rest = none := by decide

theorem test_spawn : (match exec (.spawn 9 8 .loc) spawner with
    | .next t => (t.core 259).deque.map (fun q => (q.pc, q.args, q.gtid)) == [(0x200, [1, 2, 3, 4], 0x0001081840000000)] && readBytes (t.core 259).mem 0x1000 8 == [1, 0, 0, 0, 0, 0, 0, 0] && t.k.spawns == 1 && t.k.pc == 0x104
    | _ => false) = true ∧ parks (.spawn 9 8 .loc) (one { firing with regs := [(8, 0x200)] }) = some (21, 0x92) ∧ parks (.spawn 0 8 (.die 3)) spawner = some (21, 0x93) ∧ (parks (.spawn 10 8 .any) spawner).map (·.1) = some 4 := by decide
theorem test_tend : (match exec .tend (tasking (atTask 0xC000000000001000)) with
    | .next t => readBytes (t.core 259).mem 0x1000 8 == List.replicate 8 255 && (t.ctx 259 0).status == .idle && (t.dom 1).ndone == 1 && t.events.contains (.taskSearch 259 0) | _ => false) = true
    ∧ (parks .tend user).map (·.1) = some 1 := by decide
theorem test_joinw : pcOf (.joinw 8) (joining (2 ^ 63)) = some 0x104 ∧ waits (.joinw 8) (joining 2) = true := by decide
theorem test_joinw_wake : (match exec (.joinwWake 259 0) { tasking { (atTask 0) with joinLine := some (.loc 259 0x1000) } with stalled := [(259, 0), (260, 0)] } with
    | .next t => t.k.joinLine == none && t.stalled == [(260, 0)] | _ => false) = true := by decide
/-- The youngest task of the domain begins, its estimate drawn. -/
theorem test_task_search : (match exec (.taskSearch 259 1) (queued [job, { job with pc := 0x300 }, { job with dom := 2 }] []) with
    | .next t => let k := t.ctx 259 1
      k.pc == 0x300 && rd k 8 == 1 && rd k 12 == 0x40000000 && rd k 13 == job.counter && (t.core 259).deque == [job, { job with dom := 2 }] && t.reservoir == 95 | _ => false) = true := by decide
theorem test_task_rest : (match exec (.taskSearch 259 1) (queued [] []) with | .next t => (t.core 259).fails == 3 && (t.core 259).rest == some 0 && t.events == [.taskSearchRestEnd 259] | _ => false) = true
    ∧ (match exec (.taskSearchRestEnd 259) { (tasking firing).updCore 259 fun k => { k with rest := some 100, fails := 3 } with time := 4196 } with
      | .next t => (t.core 259).rest == none && (t.core 259).fails == 0 && t.events == [.taskSearch 259 1] | _ => false) = true := by decide

/-! ## Parked firings, frozen fronts, the choice of contexts -/

/-- The firing parked on a misaligned load into l0, or about to park. -/
def stopped : Ctx := { firing with status := .parked, park := some (.precise (some 16) 4), ecause := 4, eaddr := 9, estat := 2 }
def failing : Ctx := { firing with pend := some { stop := { cause := .engfault, einfo := 3 }, epc := 0x80, eng := true, kind := .engine } }
theorem meets_SupervisorAnswersParkedFirings : let s := one failing
    (s.ctx 259 0).pend.isSome = true ∧ (s.ctx 259 0).status = .ready ∧ (s.ctx 259 0).p0halt = false ∧ (s.ctx 259 0).dhalt = false ∧ (s.ctx 259 0).frozenHalt = false ∧ (s.ctx 259 0).loop = none ∧ isSuper s (s.ctx 259 0) = false
      ∧ (user.ctx 259 0).pend = none ∧ (one { failing with dhalt := true }).k.dhalt = true := by decide
theorem meets_SupervisorAnswers_nobody : parkedAt user 259 0x0001000000000000 = none ∧ user.dom? (field 0x0001000000000000 63 48) ≠ none := by decide
theorem meets_SupervisorAnswers_parked : let s := one stopped
    parkedAt s 259 0x0001000000000000 = some 0 ∧ (∀ e ∈ (s.core 259).ctxs, e.2.kept = []) ∧ (s.ctx 259 0).status = .parked ∧ (s.ctx 259 0).pend = none ∧ (s.ctx 259 0).parkPage = none
      ∧ (s.ctx 259 0).park = some (.precise (some 16) 4) ∧ (s.ctx 259 0).ecause ≠ 15 ∧ (s.ctx 259 0).ecause ≠ 1 ∧ Tbl.find (s.dom 1).actors 0 = some { core := 259, wid := 7 } ∧ (s.core 259).ops = []
      ∧ s.dom? 1 ≠ none ∧ (∀ e ∈ (s.dom 1).blocks, isMine s (s.dom 1) (Tbl.read (s.dom 1).actors e.2.actor {}) = true) := by decide
theorem meets_HostCommandAnswers : let s := { one stopped with supCmd := [(1, 0x0001000000000000)] }
    (Tbl.keys s.cores).findSome? (fun c => (parkedAt s c (Tbl.read s.supCmd 1 0)).map fun x => (c, x)) = some (259, 0) ∧ Tbl.read s.supCmd 3 0 = 0 ∧ isSuper s (s.ctx 259 0) = false ∧ ({ s with supCmd := [(3, 1)] } : State).supCmd ≠ [] := by decide
/-- A frozen domain's supervisor with a buffer at 0x1000, its actor's firing at rest; one that is not frozen, its firing parked, or running. -/
def fronts (frozen : Bool) (k : Ctx) : State :=
  { one k with cur := (260, 0), doms := [(1, { dom2 with frozen := frozen })]
               cores := [(259, { ctxs := [(0, k)] }), (260, { ctxs := [(0, { superv with regs := [(8, 0xC000000000001000), (9, 8)] })] })] }
theorem meets_FrozenFronts : let s := fronts true stopped
    isSuper s s.k = true ∧ (s.dom (domOf s.k)).frozen = true ∧ Settled s [16, 8, 9] ∧ (rd s.k 9).toNat % 16 ≠ 0 ∧ (rd s.k 8).toNat = 0xC000000000000000 + 0x1000 ∧ (s.dom 1).nblk ≤ 4
      ∧ (∀ e ∈ s.events, ∀ c g, e ≠ Event.resume c g) := by
  refine ⟨by decide, by decide, by decide, by decide, by decide, by decide, ?_⟩
  intro e h; exact nomatch h
theorem meets_FrozenFronts_banks : Idle (fronts true stopped) ∧ PlainBanks (fronts true stopped) 260 :=
  ⟨⟨by decide, by decide, by decide, by decide, by decide, by decide⟩, ⟨rfl, rfl, rfl, rfl, rfl, by decide, by decide⟩⟩
theorem meets_FreezeEnds : let s := fronts false stopped
    (s.dom 1).frozen = false ∧ s.stalled = [] ∧ (∀ e ∈ s.cores, ∀ x ∈ e.2.ctxs, domOf x.2 = 1 → x.2.work.isSome = true → isSuper s x.2 = true ∨ x.2.status = .parked) ∧ (∀ e ∈ s.dies, e.2.slots = []) := by decide
theorem meets_FreezeWaits : let s := fronts false firing
    ∃ e ∈ s.cores, ∃ x ∈ e.2.ctxs, domOf x.2 = 1 ∧ x.2.work.isSome = true ∧ isSuper s x.2 = false ∧ x.2.status = .ready ∧ x.2.p0halt = false ∧ x.2.dhalt = false ∧ x.2.frozenHalt = false ∧ (e.1, x.1) ∉ s.stalled := by decide
theorem meets_ThawWaits : field 0x0001000000000000 63 48 = 1 ∧ Event.resume 259 0x0001000000000000 ∈ ({ fronts true stopped with events := [.resume 259 0x0001000000000000] } : State).events := by decide
/-- Three contexts that can issue, one of them of class 0 in domain 2. -/
def crowd : State := { user with
    selected := false, doms := [(1, dom1), (2, { dom1 with cls := 0 })]
    cores := [(259, { last := 0, ctxs := [(0, { firing with waited := 3 }), (1, { firing with waited := 5 }), (2, { firing with work := some { dom := 1, actor := some 0, gtid := 1 }, waited := 5 })] }),
      (258, { ctxs := [(0, firing), (1, { firing with home := some (2, some 0), work := some { dom := 2, actor := some 0, gtid := 0x0002000000000000 } })] })] }
theorem meets_ContextsAreChosenSavedAndResumed : (∀ e ∈ (crowd.core 259).ctxs, e.2.p0halt = false) ∧ (crowd.core 259).ctxs.filter (fun e => canIssue crowd 259 e.1) ≠ [] ∧ (crowd.core 259).ctxs.Pairwise (fun e f => e.1 ≠ f.1)
    ∧ (crowd.core 300).ctxs = [] := by decide
theorem meets_P0Halts : (∃ e ∈ (crowd.core 258).ctxs, canIssue crowd 258 e.1 = true ∧ classOf crowd e.2 = 0) ∧ ¬ (∃ e ∈ (crowd.core 259).ctxs, canIssue crowd 259 e.1 = true ∧ classOf crowd e.2 = 0) := by decide
theorem meets_ContextSaves : let s := one { firing with p0halt := true }
    s.k.work ≠ none ∧ s.k.status = .ready ∧ s.k.p0halt = true ∧ (s.die (dieOf 259)).slots.length < 4096 ∧ s.k.away = none ∧ (s.core 259).ops = [] ∧ user.k.p0halt = false ∧ user.k.homeOnly = false := by decide
/-- That firing saved in slot 0 of die 0, to resume at home. -/
def savedFiring (occ : Ctx) : State := { (one occ).updDie 0 fun d => { d with slots := [(0, ⟨{ firing with homeOnly := true }, 259, 0⟩)] } with cur := (260, 0) }
theorem meets_ContextResumes : let s := savedFiring {}
    Tbl.find (s.die 0).slots 0 = some ⟨{ firing with homeOnly := true }, 259, 0⟩ ∧ resumeSpot s 0 0 ⟨{ firing with homeOnly := true }, 259, 0⟩ = some (259, 0) ∧ (s.die 0).slots = [(0, ⟨{ firing with homeOnly := true }, 259, 0⟩)] ∧ firing.kept = [] ∧ (∀ e ∈ (s.core 259).ctxs, e.2.kept = [])
      ∧ Tbl.find (user.die 0).slots 0 = none := by decide

theorem test_park : (match exec (.park 259 0) (one failing) with
    | .next t => t.k.status == .parked && t.k.ecause == 20 && t.k.epc == 0x80 && t.k.einfo == 3 && t.k.estat.getLsbD 23 && (t.dom 1).waitMsgs.length == 1 | _ => false) = true := by decide
theorem test_resume : (match exec (.resume 259 0x0001000000000000) (one stopped) with | .next t => t.k.status == .ready && t.k.pc == 0x100 && t.k.region == 1 | _ => false) = true
    ∧ (match exec (.resumeValue 259 0x0001000000000000 77) (one stopped) with | .next t => t.k.status == .ready && t.k.pc == 0x104 && rd t.k 16 == 77 | _ => false) = true := by decide
theorem test_restart_abort : (match exec (.restart 259 0x0001000000000000) (one stopped) with | .next t => ((Tbl.find (t.dom 1).actors 0).map (·.again)) == some (some (0x0001000000000000, none, 4)) && (t.ctx 259 0).status == .idle | _ => false) = true
    ∧ (match exec (.abort 259 0x0001000000000000) (one stopped) with | .next t => (t.dom 1).items.map (fun i => (i.state, i.cause, i.eaddr, i.pc)) == [(2, 4, 9, 0x100)] && ((Tbl.find (t.dom 1).actors 0).map (·.ended)) == some true | _ => false) = true := by decide
theorem test_host_supervisor_command : (match exec (.hostSupervisorCommand 2) { one stopped with supCmd := [(1, 0x0001000000000000), (2, 5)] } with | .next t => t.k.status == .ready && rd t.k 16 == 5 | _ => false) = true
    ∧ (match exec (.hostSupervisorCommand 5) (one stopped) with | .next t => t.k.status == .parked && t.nheld.length == 1 | _ => false) = true := by decide
theorem test_freeze_thaw : (match exec .freeze (fronts false stopped) with | .next t => (t.dom 1).frozen && t.k.pc == 0x104 | _ => false) = true
    ∧ (match exec .freeze (fronts false firing) with | .next t => (t.dom 1).draining && t.k.pc == 0x100 | _ => false) = true ∧ (match exec .thaw (fronts true stopped) with | .next t => !(t.dom 1).frozen && t.k.pc == 0x104 | _ => false) = true
    ∧ (parks .freeze user).map (·.1) = some 2 := by decide
theorem test_front : (match exec (.front 8 16) (fronts true stopped) with | .next t => rd t.k 16 == 2 && readBytes (t.core 260).mem 0x1010 7 == [8, 0, 0, 0, 4, 0, 0] | _ => false) = true
    ∧ parks (.front 8 16) (fronts false stopped) = some (21, 0xA1) ∧ (parks (.front 9 16) (fronts true stopped)).map (·.1) = some 4 := by decide
theorem test_context_select : (match exec (.contextSelect 259) crowd with
    | .next t => t.cur == (259, 1) && t.selected && (t.core 259).last == 1 && [0, 1, 2].map (fun x => (t.ctx 259 x).waited) == [4, 0, 6] | _ => false) = true := by decide
theorem test_p0_request : (match exec (.p0Request 258) crowd with | .next t => (t.ctx 258 0).p0halt && !(t.ctx 258 1).p0halt | _ => false) = true := by decide
theorem test_context_save_resume : (match exec (.contextSave 259 0) (one { firing with p0halt := true }) with
    | .next t => (t.ctx 259 0).status == .empty && (t.die 0).slots.map (fun v => (v.2.homeCore, v.2.homeCtx, v.2.ctx.pc)) == [(259, 0, 0x100)] | _ => false) = true
    ∧ (match exec (.contextResume 0 0) (savedFiring {}) with | .next t => (t.ctx 259 0).pc == 0x100 && (t.ctx 259 0).status == .ready && (t.die 0).slots == [] | _ => false) = true := by decide

/-! ## Callyn packets -/

/-- Package 5 of a fabric; its ports pass every request; an actor of domain 1 on core (3, 2). -/
def pkg5 (s : State) : State := { s with pkid := 5, acl := (upFrom 0 8).map fun n => (n * 64, { hi := 0xFFFFFFFFFFFFFFFF, srclo := 0, srchi := 4095, v := true, rights := 31 }), mem := writeBytes [] 0x4000 [1, 2, 3, 4, 5, 6, 7, 8] }
/-- A request of package 6 for it: eight bytes at 0x4000 of its device memory, or core (3, 2). -/
def preq (op cont : Nat) (b : List Byte) : Packet := { op := op, cont := cont, src := 6, dst := 5, seq := 9, faddr := 0x4000, len := 8, flg := 0, ord := 0, tag := 77, raddr := 0x1000, payload := b }
def cmsg (sub : Nat) (b : List Byte) : Packet := { preq 6 0x83 b with faddr := 2 ^ 62 + 3 * 2 ^ 43 + 2 * 2 ^ 37, len := b.length, flg := 16 * sub, raddr := 0, info := gtbInfo 1 }
theorem entered_all (p : Packet) (op right : Nat) (h : p.dst = 5 ∧ p.op = op ∧ p.src ≤ 4095 ∧ right ≤ 4 ∧ p.faddr + max p.len 1 - 1 ≤ 0xFFFFFFFFFFFFFFFF) (s : State)
    (hs : s.pkid = 5) (ha : s.acl = (pkg5 user).acl) (hf : s.inbound = []) : Entered op right p s := by
  obtain ⟨h1, h2, h3, h4, h5⟩ := h
  refine ⟨by rw [hs]; decide, by rw [h1, hs], h2, by simp [Fresh, inboundOf, hf], 0, by decide, ?_⟩
  have hp : inPort p < 8 := Nat.mod_lt _ (by decide)
  have key : ∀ n, n < 8 → Tbl.read (pkg5 user).acl (n * 64 + 0) {} = { hi := 0xFFFFFFFFFFFFFFFF, srclo := 0, srchi := 4095, v := true, rights := 31 } := by decide
  rw [ha, key _ hp]
  refine ⟨rfl, Nat.zero_le _, h3, Nat.zero_le _, h5, ?_⟩
  match right, h4 with
  | 0, _ | 1, _ | 2, _ | 3, _ | 4, _ => rfl
theorem meets_PeerRequestsPassTheLastHop : Entered 0x01 0 (preq 1 0x80 []) (pkg5 user) ∧ Entered 0x02 1 (preq 2 0x83 [9, 9, 9, 9, 9, 9, 9, 9]) (pkg5 user) ∧ PlainSpan (pkg5 user) 0x4000 8 :=
  ⟨entered_all _ _ _ (by decide) _ rfl rfl rfl, entered_all _ _ _ (by decide) _ rfl rfl rfl, by unfold PlainSpan; exact ⟨by decide, by decide, ⟨_, rfl, by decide⟩, by decide, by decide, by decide, by decide, by decide, rfl, by decide, by decide, by decide, by decide, by decide⟩⟩
theorem meets_PeerRequests_refused : requestForm (.rd (preq 2 0x80 [])) = some (1, 0, preq 2 0x80 []) ∧ Entered 2 0 (preq 2 0x80 []) (pkg5 user) ∧ targetPlace (pkg5 user) (2 ^ 56) 8 = none ∧ user.pkid = 0 :=
  ⟨rfl, entered_all _ _ _ (by decide) _ rfl rfl rfl, by decide, rfl⟩
theorem meets_PeerRequests_outside : ¬ Entered 1 0 (preq 1 0x80 []) { pkg5 user with acl := [] } := by
  rintro ⟨-, -, -, -, n, -, h, -⟩; exact nomatch (show false = true from h)
/-- AMO packets of AADD 7, an old sequence among the kept replies, and one older than the highest. -/
def amoReq (q : Nat) : Packet := { preq 3 0x80 (natLE 8 7 ++ natLE 8 0) with seq := q }
def served : State := { pkg5 user with replies := [(6, { high := some 9, entries := [(8, preq 0x80 0 [4])] })] }
theorem meets_PeerAmosAreExecutedOnce : Entered 3 2 (amoReq 10) served ∧ (∀ e ∈ (Tbl.read served.replies 6 {}).entries, e.1 ≠ 10) ∧ (Tbl.read served.replies 6 {}).high = some 9 ∧ 0 < (10 + 65536 - 9) % 65536 ∧ (10 + 65536 - 9) % 65536 < 32768
    ∧ amoCode (.aadd ⟨false, true, 0, 0, 0, .core, .rlx, 0, 0⟩) = some ((amoReq 10).flg / 16) ∧ (amoReq 10).faddr % 8 = 0 ∧ (amoForm (.aadd ⟨false, true, 0, 0, 0, .core, .rlx, 0, 0⟩)).isSome = true :=
  ⟨entered_all _ _ _ (by decide) _ rfl rfl rfl, by decide, by decide, by decide, by decide, by decide, by decide, by decide⟩
theorem meets_PeerAmos_memory : PlainSpan served 0x4000 8 :=
  ⟨by decide, by decide, ⟨_, rfl, by decide⟩, by decide, by decide, by decide, by decide, by decide, rfl, by decide, by decide, by decide, by decide, by decide⟩
theorem meets_PeerAmos_kept : (Tbl.read served.replies (amoReq 8).src {}).entries.find? (fun e => e.1 == 8) = some (8, preq 0x80 0 [4]) ∧ 32768 ≤ (7 + 65536 - 9) % 65536 ∧ (9 + 65536 - 9) % 65536 = 0 := by decide
/-- A request of this package, sent at 100 and not answered; its operation, an AMO or a store of the user's firing. -/
def asked (op : Nat) (pkt : Packet) : Sent := { tag := 77, pkt := { pkt with src := 5, dst := 6, tag := 77 }, core := 259, op := op, first := 100, last := 100 }
def peerAmo : Op := { loadDue 16 with id := 4, body := .amo 0 ⟨false, true, 0, 0, 0, .core, .rlx, 0, 0⟩ 7 0 (some 9) }
def peerStore : Op := { loadDue 0 with id := 4, body := .store 8 5 false none false true }
def asking (r : Sent) (o : Op) (t : Nat) : State := { withOps (pkg5 user) [o] with sent := [r], time := t }
theorem meets_PeerAmos_sent : let s := asking (asked 4 (amoReq 9)) peerAmo 41700
    asked 4 (amoReq 9) ∈ s.sent ∧ (∀ q ∈ s.sent, q.tag = 77 → q = asked 4 (amoReq 9)) ∧ (asked 4 (amoReq 9)).pkt.op = 3 ∧ (asked 4 (amoReq 9)).sends < 4 ∧ 100 + 10400 ≤ s.time ∧ 100 + 41600 ≤ s.time
      ∧ opById s 259 4 = some peerAmo ∧ peerAmo.ctx < 16 ∧ (s.ctx 259 0).work ≠ none ∧ (s.ctx 259 0).status ≠ .parked ∧ (s.ctx 259 0).pend = none
      ∧ (asking (asked 4 (amoReq 9)) peerAmo 10499).time < 100 + 10400 ∧ ({ asked 4 (amoReq 9) with sends := 4 } : Sent).sends ≥ 4 ∧ ({ asked 4 (amoReq 9) with nack := some 1 } : Sent).nack ≠ none := by
  refine ⟨.head _, ?_, by decide, by decide, by decide, by decide, by decide, by decide, by decide, by decide, by decide, by decide, by decide, by decide⟩
  intro q hq _; exact List.mem_singleton.mp hq
theorem meets_PeerMessagesReachTheirUnits : let s := pkg5 user
    Entered 6 4 (cmsg 1 (List.replicate 76 1)) s ∧ CoreSpace s (cmsg 1 []).faddr 259 0 ∧ holdsActor s 1 259 0 = true ∧ holdsActor s 1 259 3 = false ∧ holdsDom s 1 259 = true ∧ holdsDom s 2 259 = false
      ∧ s.dom? 1 ≠ none ∧ s.dom? 2 = none ∧ (s.core 259).ctxs.Pairwise (fun e f => e.1 ≠ f.1) ∧ ∀ n, (cmsg n []).flg / 16 = n :=
  ⟨entered_all _ _ _ (by decide) _ rfl rfl rfl, by unfold CoreSpace; decide, by decide, by decide, by decide, by decide, by decide, by decide, by decide, fun n => by show 16 * n / 16 = n; omega⟩
theorem meets_PeerMessages_command : let b := natLE 8 4 ++ natLE 8 0x0001000000000000 ++ natLE 16 0
    leWord (b.take 8) = 4 ∧ field (leWord ((b.drop 8).take 8)) 63 48 = 1 ∧ leWord ((b.drop 16).take 8) = 0 ∧ leWord ((b.drop 24).take 8) = 0 := by decide
theorem meets_PeerMessages_run : Entered 5 0 { cmsg 2 (List.replicate 32 0) with op := 5 } (pkg5 user) ∧ CoreSpace (pkg5 user) (cmsg 2 []).faddr 259 0 :=
  ⟨entered_all _ _ _ (by decide) _ rfl rfl rfl, by unfold CoreSpace; decide⟩
def spread3 : State := (pkg5 user).updDom 1 fun d => { d with pkgs := [5, 6, 7] }
theorem meets_PeerMessages_nadir : Entered 10 4 { cmsg 0 (natLE 4 8 ++ [1]) with op := 10 } spread3 ∧ (spread3.dom 1).pkgs = [5, 6, 7] ∧ 6 ∈ (spread3.dom 1).pkgs ∧ 9 ∉ (spread3.dom 1).pkgs
    ∧ (∃ q ∈ (spread3.dom 1).pkgs, q ≠ spread3.pkid ∧ q ≠ 6 ∧ Tbl.find (spread3.dom 1).peerMin q = none) :=
  ⟨entered_all _ _ _ (by decide) _ rfl rfl rfl, by decide, by decide, by decide, by decide⟩
def shooting : State := { pkg5 user with tlb := [{ level := 2, inst := 0, dom := 1, page := 0x123, leaf := 1, big := false }, { level := 2, inst := 0, dom := 2, page := 0x123, leaf := 1, big := false }] }
theorem meets_PeerMessages_shoot : let p := { cmsg 0 (natLE 8 0x1230000 ++ [0]) with op := 9 }
    Entered 9 4 p shooting ∧ rf p.payload 0 8 = 0x1230000 ∧ rf p.payload 0 8 < 2 ^ 57 ∧ rf p.payload 8 1 = 0 ∧ translatedOut shooting 1 (namedPage shooting 1 (some 0x1230000)) = false :=
  ⟨entered_all _ _ _ (by decide) _ rfl rfl rfl, by decide, by decide, by decide, by decide⟩
/-- A MIG of package 6 for domain 1's page at 0x10000, whose frame it names: sent here, rewritten there, abandoned; and a run of a page that comes here. -/
def migReq (sub : Nat) : Packet := { preq 8 0x83 (natLE 8 0x10000 ++ natLE 8 0x70000) with faddr := frameAt 0 0x99, raddr := 0, flg := 16 * sub, len := 16, info := gtbInfo 1 }
def migHome : State := let s := paged 0 0 0
  { pkg5 s with mem := s.mem }
theorem meets_PagesMoveToTheirPeers : let s := migHome
    Entered 8 4 (migReq 0) s ∧ (migReq 0).src ≠ 0 ∧ packetGtb (migReq 0) = 1 ∧ rf (migReq 0).payload 0 8 = 0x10000 ∧ s.moves = [] ∧ (s.dom? 1).isSome = true
      ∧ walk s (s.dom 1).root 0x10000 = some (leaf1 0 0 0, false) ∧ leafAddr s (s.dom 1).root 0x10000 = some 0x400008 ∧ ptePeer (leaf1 0 0 0) = 0
      ∧ frameAt (pteHome (leaf1 0 0 0)) (ptePfn (leaf1 0 0 0)) = (migReq 0).faddr ∧ moving s (migReq 0).faddr = false ∧ s.dom? 2 = none :=
  ⟨entered_all _ _ _ (by decide) _ rfl rfl rfl, by decide, by decide, by decide, by decide, by decide, by decide, by decide, by decide, by decide, by decide, by decide⟩
def migMove : Move := ⟨4, 1, 0x10000, 0x400008, leaf1 0 0 0, 0x99, 0, 7, 0, 0, 6⟩
def migRun (g : Option (List Byte)) (n : Option Nat) : Sent := { tag := 78, pkt := preq 8 0x83 [], core := 2 ^ 35, op := 4, got := g, nack := n }
theorem meets_PagesMoveToTheirPeers_end : let s := { migHome with moves := [migMove], sent := [migRun (some []) none] }
    s.moves.find? (fun m => m.dom == 1 && m.va == 0x10000 && m.newPeer == 6) = some migMove ∧ (∀ r ∈ s.sent.filter fun r => r.core == 2 ^ 35 && r.op == 4, r.nack = none ∧ r.got ≠ none)
      ∧ readEntry s 0x400008 = leaf1 0 0 0 ∧ pageUncached s (migReq 2).faddr ∧ migMove.oldHome * 2 ^ 52 + migMove.oldPfn * 65536 = (migReq 2).faddr ∧ (migReq 2).flg / 16 = 2 ∧ (migRun none none).got = none
      ∧ (migRun none (some 1)).nack ≠ none := by
  unfold pageUncached; decide
theorem meets_PagesMoveToTheirPeers_leaf : PlainSpan { migHome with moves := [migMove], sent := [migRun (some []) none] } 0x400008 8 :=
  ⟨by decide, by decide, ⟨_, rfl, by decide⟩, by decide, by decide, by decide, by decide, by decide, rfl, by decide, by decide, by decide, by decide, by decide⟩
/-- This package has asked package 6 for its page: its frame 7 here, and the run of its second 256 bytes, whose third sector is poisoned. -/
def migMine : State := { pkg5 user with moves := [⟨4, 1, 0x10000, 0x400008, leaf1 0 0 0, 0x99, 0, 7, 0, 6, 0⟩] }
def migPage : Packet := { preq 8 0x83 (List.replicate 256 3) with faddr := 0x70100, raddr := 0, flg := 16, len := 256, info := gtbInfo 1 ++ [4] }
theorem meets_PagesMoveToTheirPeers_run : Entered 8 4 migPage migMine ∧ migPage.flg / 16 = 1 ∧ (∃ m ∈ migMine.moves, m.dom = 1 ∧ m.oldPeer = 6 ∧ frameAt m.newHome m.newPfn = migPage.faddr / 65536 * 65536)
    ∧ migPage.payload.length = 256 ∧ migPage.faddr % 256 = 0 ∧ dirEntry migMine (migPage.faddr / 256) = {} ∧ migMine.replay.rstat ≠ 2 ∧ migMine.hinj.mode ≠ 1 ∧ Memory.wf migMine.mem = true :=
  ⟨entered_all _ _ _ (by decide) _ rfl rfl rfl, by decide, ⟨_, .head _, rfl, rfl, by decide⟩, by decide, by decide, by decide, by decide, by decide, by decide⟩
/-- Replies to the request of tag 77. -/
def reply (op : Nat) (b : List Byte) : Packet := { preq op 0 b with len := b.length }
theorem meets_RepliesRetireTheirRequests : let r := asked 4 (preq 1 0x80 [])
    let s := asking r peerStore 200
    r ∈ s.sent ∧ r.tag = (reply 0x80 [1]).tag ∧ (∀ q ∈ s.sent, q.tag = r.tag → q = r) ∧ r.core < 8192 ∧ opById s 259 4 = some peerStore ∧ r.pkt.op ≠ 5 ∧ r.pkt.op ≠ 6 ∧ r.op ≠ 2 ^ 42 ∧ isStore peerStore = true
      ∧ peerStore.status = 0 ∧ isStore peerAmo = false ∧ (s.ctx 259 0).work ≠ none ∧ (s.ctx 259 0).pend = none ∧ r.pkt.cont = 0x80 := by
  refine ⟨.head _, rfl, ?_, by decide, by decide, by decide, by decide, by decide, by decide, by decide, by decide, by decide, by decide, by decide⟩
  intro q hq _; exact List.mem_singleton.mp hq
theorem meets_Replies_dep : let s := asking (asked 4 (preq 1 0x81 [])) peerAmo 200
    ((opById s 259 4).map (·.bank)).getD 259 = 259 ∧ 0x1000 + (reply 0x81 [1, 2]).payload.length ≤ 0x30000 ∧ 0x1000 % 256 + 2 ≤ 256 ∧ (s.core 259).bad = [] ∧ (s.core 259).dirl = [] ∧ (s.core 259).inj.mode ≠ 1 ∧ Memory.wf (s.core 259).mem = true := by decide
theorem meets_Replies_cnt : let s := { asking (asked 5 (preq 5 0x82 [])) peerAmo 200 with exchs := [{ exch1 with active := true }] }
    (s.exchs.find? fun e => e.core == 259 && e.op == 5) = some { exch1 with active := true } ∧ (∀ r ∈ s.sent, r.tag ≠ 76) ∧ (∀ w ∈ s.groups, w.tag ≠ 76) := by decide
/-- Group 3's board switch is its top and copies to ports 5, 6 and 7. -/
def grouped : State := { pkg5 user with asterism := [(3, 2 ^ 17 + 2 ^ 16 + 0xE0)] }
def groupWrite (src : Nat) : Packet := { preq 4 0x84 [1, 2, 3, 4, 5, 6, 7, 8] with src := src, dst := 0xF03 }
theorem meets_GroupWritesReachEveryMember : GroupAt grouped 0 ((groupWrite 6).dst - 0xF00) true 0xE0 ∧ 0xE0 / 2 ^ (grouped.pkid % 16) % 2 = 1 ∧ 0xC0 / 2 ^ (grouped.pkid % 16) % 2 = 0 ∧ 0xF00 ≤ (groupWrite 6).dst ∧ (groupWrite 6).src ≠ grouped.pkid
    ∧ admitted grouped (groupWrite 6) 3 = true ∧ admitted { grouped with acl := [] } (groupWrite 6) 3 = false ∧ (groupWrite 6).payload.length = (groupWrite 6).len := by unfold GroupAt; decide
theorem meets_GroupWrites_memory : PlainSpan grouped 0x4000 8 :=
  ⟨by decide, by decide, ⟨_, rfl, by decide⟩, by decide, by decide, by decide, by decide, by decide, rfl, by decide, by decide, by decide, by decide, by decide⟩
theorem meets_GroupWrites_own : let s := { grouped with sent := [{ asked 4 (groupWrite 5) with pkt := groupWrite 5 }] }
    (∃ r ∈ s.sent, r.tag = 77 ∧ r.pkt.op = 4) ∧ (∀ w ∈ s.groups, w.tag ≠ 77) ∧ 0xE0 ≠ 0 := by decide
/-- The write waits for ports 6 and 7 with one positive counted. -/
def waitingFor (ps : List Nat) : State := { grouped with groups := [{ tag := 77, tier := 0, ports := ps, pos := 1 }], sent := [{ asked 4 (groupWrite 5) with pkt := groupWrite 5 }], time := 26100 }
def mack (pos neg fneg : Nat) : Packet := { preq 0x84 0 (natLE 2 pos ++ natLE 2 neg ++ natLE 2 fneg) with len := 6 }
theorem meets_GroupWrites_aggregate : (mack 1 0 0xFFF).src / 16 = grouped.pkid / 16 ∧ (mack 1 0 0xFFF).src % 16 ∈ [6, 7] ∧ (∃ q ∈ [6, 7], q ≠ (mack 1 0 0xFFF).src % 16) ∧ (∀ q ∈ [6], q = (mack 1 0 0xFFF).src % 16) := by decide
theorem meets_GroupWrites_source : let r := { asked 4 (groupWrite 5) with pkt := groupWrite 5 }
    let s := asking r peerStore 200
    (∀ w ∈ s.groups, w.tag ≠ 77) ∧ r ∈ s.sent ∧ r.pkt.op = 4 ∧ opById s 259 4 = some peerStore ∧ rf (mack 2 1 7).payload 2 2 ≠ 0 ∧ rf (mack 2 0 0xFFF).payload 2 2 = 0 := by decide
theorem meets_GroupWrites_silent : let s := waitingFor [6, 7]
    s.groups = [{ tag := 77, tier := 0, ports := [6, 7], pos := 1 }] ∧ 6 ∈ [6, 7] ∧ (s.sent.find? fun r => r.tag == 77).isSome = true ∧ 100 + 26000 ≤ s.time ∧ (∃ q ∈ [6, 7], q ≠ 6) ∧ (∀ w ∈ s.groups, w.tag = 77 → w.tier = 0 → 9 ∉ w.ports) := by decide
/-- MCWR of group 3 at the board switch of package 5 to ports 1 and 2; an access-table write at ports 0 and 2, entry 4. -/
def mcwrReq (tier : Nat) : Packet := { preq 11 0x80 (natLE 8 (3 + tier * 256 + 5 * 4096) ++ natLE 8 (2 ^ 17 + 6)) with src := 5, len := 16 }
def aclwrReq : Packet := { preq 11 0x83 (natLE 8 0 ++ natLE 8 (5 + 4 * 256) ++ natLE 8 0x100 ++ natLE 8 0x1FF ++ natLE 8 (2 + 5 * 2 ^ 16 + 2 ^ 39 + 3 * 2 ^ 32)) with src := 5, flg := 16 }
theorem meets_SwitchesAndLinksAreReconfigured : let a := leWord ((mcwrReq 0).payload.take 8)
    field a 9 8 < 3 ∧ field a 23 12 / 16 ^ (field a 9 8 + 1) = grouped.pkid / 16 ^ (field a 9 8 + 1) ∧ (∀ w ∈ grouped.groups, w.tier ≠ 0) ∧ ¬ field (leWord ((mcwrReq 3).payload.take 8)) 9 8 < 3
      ∧ ({ tag := 77, tier := 0, ports := [6] } : GroupWrite) ∈ [({ tag := 77, tier := 0, ports := [6] } : GroupWrite)] ∧ (groupWrite 5).dst = 0xF00 + 3 ∧ aclwrReq.flg / 16 = 1 := by decide
theorem meets_LinkGroups : let s := asking { asked 4 (preq 1 0x80 []) with lg := 2 } peerAmo 200
    2 ∉ s.linkDown ∧ (∃ m ∈ [0, 1, 3], m < 8 ∧ m ≠ 2 ∧ m ∉ s.linkDown) ∧ (s.sent.map (·.tag)).Nodup ∧ 2 ∈ ({ s with linkDown := [2] } : State).linkDown
      ∧ (∀ m, m < 8 → m ≠ 2 → m ∈ ({ s with linkDown := [0, 1, 3, 4, 5, 6, 7] } : State).linkDown) ∧ isStore peerAmo = false ∧ (preq 1 0x80 []).op ∉ [3, 5, 6] := by decide

/-- The bytes of the packets that leave. -/
def leaves (i : Out) : List (Nat × Nat × List Byte) :=
  match i with
  | .next t => t.out.filterMap fun o => match o with | .packet p => some (p.op, p.dst, p.payload) | _ => none
  | _ => []
theorem test_rd_wr : leaves (execRd (preq 1 0x80 []) (pkg5 user)) = [(0x80, 6, [1, 2, 3, 4, 5, 6, 7, 8])] ∧ leaves (execRd (preq 1 0x80 []) { pkg5 user with acl := [] }) = [(0x90, 6, [1])]
    ∧ (match exec (.wr (preq 2 0x83 [9, 9, 9, 9, 9, 9, 9, 9])) (pkg5 user) with | .next t => readBytes t.mem 0x3FFF 10 == [0, 9, 9, 9, 9, 9, 9, 9, 9, 0] | _ => false) = true := by decide
theorem test_amo_packet : (match execAmo (amoReq 10) served with | .next t => readBytes t.mem 0x4000 2 == [8, 2] && (Tbl.read t.replies 6 {}).high == some 10 | _ => false) = true
    ∧ leaves (execAmo (amoReq 10) served) = [(0x80, 6, [1, 2, 3, 4, 5, 6, 7, 8])] ∧ leaves (execAmo (amoReq 8) served) = [(0x80, 5, [4])] ∧ (leaves (execAmo (amoReq 7) served)).map (·.1) = [0x91] := by decide
theorem test_amo_times : (leaves (execAmoRetransmit 77 (asking (asked 4 (amoReq 9)) peerAmo 10500))).length = 1
    ∧ (match execAmoTimeout 77 (asking (asked 4 (amoReq 9)) peerAmo 41700) with | .next t => t.sent == [] && t.k.pend.map (fun n => (n.stop.cause, n.stop.einfo)) == some (.amounknown, 0x60009) | _ => false) = true := by decide
theorem test_messages : (match execMsg (cmsg 0 []) (pkg5 user) with | .next t => t.k.events == 1 | _ => false) = true
    ∧ (match execMsg (cmsg 1 (natLE 4 12 ++ natLE 8 0 ++ List.replicate 64 3)) (pkg5 user) with | .next t => t.lmsgs.map (fun m => (m.2.stamp, m.2.tag)) == [(12, 77)] | _ => false) = true := by decide
theorem test_xrun_nadir : (match execXrun { cmsg 1 [] with op := 5, info := natLE 2 5 ++ natLE 2 1 ++ natLE 36 0 } (pkg5 user) with | .next t => t.events == [.closingNotice 0] && t.xmsgs.map (fun m => (m.xid, m.fromP)) == [(5, 1)] | _ => false) = true
    ∧ (match execNadir { cmsg 0 (natLE 4 8 ++ [1]) with op := 10 } spread3 with | .next t => Tbl.find (t.dom 1).peerMin 6 == some (2 ^ 32 + 8) | _ => false) = true := by decide
theorem test_shoot : (match execShoot { cmsg 0 (natLE 8 0x1230000 ++ [0]) with op := 9 } shooting with | .next t => t.tlb.map (·.dom) == [2] | _ => false) = true := by decide
theorem test_mig : (match execMig (migReq 2) { migHome with moves := [migMove], sent := [migRun (some []) none] } with
    | .next t => ptePeer (readEntry t 0x400008) == 6 && ptePfn (readEntry t 0x400008) == 7 && t.moves == [] | _ => false) = true
    ∧ (match execMig migPage migMine with | .next t => readBytes t.mem 0x700FF 3 == [0, 3, 3] && t.poison == [0x1C06] && t.out.length == 1 | _ => false) = true := by decide
theorem test_val_dep : (match execVal (reply 0x80 [1, 2]) (asking (asked 4 (preq 1 0x80 [])) peerAmo 200) with | .next t => t.sent.map (·.got) == [some [1, 2]] | _ => false) = true
    ∧ (match execDep (reply 0x81 [1, 2]) (asking (asked 4 (preq 1 0x81 [])) peerAmo 200) with | .next t => readBytes (t.core 259).mem 0x1000 3 == [1, 2, 0] | _ => false) = true := by decide
theorem test_cnt_done : (match execCnt { reply 0x82 [] with len := 4 } { asking (asked 5 (preq 5 0x82 [])) peerAmo 200 with exchs := [{ exch1 with active := true }] } with | .next t => t.exchs.map (·.acked) == [4] && t.sent == [] | _ => false) = true
    ∧ (match execDone (reply 0x83 []) (asking (asked 4 (preq 2 0x83 [])) peerStore 200) with | .next t => t.sent == [] && (t.core 259).ops == [] | _ => false) = true := by decide
theorem test_nack_unknown : (match execNack (reply 0x90 [1]) (asking (asked 4 (preq 2 0x83 [])) peerStore 200) with | .next t => t.k.pend.map (fun n => (n.stop.cause, n.stop.einfo)) == some (.fabnack, 1) | _ => false) = true
    ∧ (match execUnknown (reply 0x91 []) (asking (asked 4 (amoReq 9)) peerAmo 200) with | .next t => t.k.pend.map (·.stop.cause) == some .amounknown | _ => false) = true := by decide
theorem test_gwr : (match execGwr (groupWrite 6) grouped with | .next t => readBytes t.mem 0x4000 2 == [1, 2] | _ => false) = true ∧ leaves (execGwr (groupWrite 6) grouped) = [(0x84, 6, [1, 0, 0, 0, 0xFF, 0x0F])]
    ∧ (match execGwr (groupWrite 5) { grouped with sent := [{ asked 4 (groupWrite 5) with pkt := groupWrite 5 }] } with | .next t => t.out == [.copy 6 (groupWrite 5), .copy 7 (groupWrite 5)] | _ => false) = true := by decide
theorem test_mack : (match execMack (mack 1 0 0xFFF) (waitingFor [6, 7]) with | .next t => t.groups.map (fun w => (w.pos, w.ports)) == [(2, [7])] | _ => false) = true
    ∧ (match execMackPortTimeout 77 6 (waitingFor [6, 7]) with | .next t => t.groups.map (fun w => (w.neg, w.fneg, w.ports)) == [(1, 6, [7])] | _ => false) = true := by decide
theorem test_cfg : (match execCfg (mcwrReq 0) grouped with | .next t => Tbl.read t.asterism 3 0 == 2 ^ 17 + 6 && t.events.length == 1 | _ => false) = true
    ∧ (match execCfg aclwrReq grouped with | .next t => (Tbl.read t.acl (2 * 64 + 4) {}).rights == 3 && (Tbl.read t.acl (64 + 4) {}).rights == 0 | _ => false) = true := by decide
theorem test_links : (match execLinkGroupFail 2 (asking { asked 4 (preq 1 0x80 []) with lg := 2 } peerAmo 200) with | .next t => t.linkDown == [2] && t.sent.map (fun r => (r.resent, r.lg == 2)) == [(true, false)] | _ => false) = true
    ∧ (match execLinkGroupRestore 2 { served with linkDown := [2] } with | .next t => t.linkDown == [] && (Tbl.read t.replies 6 {}) == { high := some 9 } | _ => false) = true := by decide

/-! ## Launches, gangs, energy and ends -/

/-- A record of one actor, with an image of 64 bytes at 0x2000, on a grid of four cores from (8, 0), and one task context a core. -/
def rec1 (mark : Nat) : List Byte :=
  natLE 8 0 ++ natLE 4 64 ++ natLE 4 0x2000 ++ natLE 48 0 ++ natLE 4 1 ++ natLE 12 0 ++ natLE 8 0 ++ natLE 8 0 ++ natLE 8 0xFF ++ [0x13, 3] ++ List.replicate 6 255
    ++ natLE 4 0 ++ [4, 1, 8, 0, 1, 0, 0, 0] ++ natLE 4 5 ++ natLE 8 0 ++ natLE 4 0 ++ natLE 2 3 ++ natLE 2 0 ++ natLE 2 1 ++ natLE 14 0 ++ List.replicate 351 0 ++ [BitVec.ofNat 8 mark]
def act1 : List Byte := natLE 8 7 ++ natLE 24 0 ++ natLE 4 0x2000 ++ [1, 0, 0, 0] ++ natLE 8 0 ++ natLE 4 10 ++ natLE 76 0
def img1 : List Byte := List.replicate 64 3
def launch1 : Launch := { bytes := rec1 1, win := some 2, tabs := [act1, [], [], [], [], img1, []] }
def tabs1 : Tabs := ⟨.ok act1, .ok [], .ok [], .ok [], .ok [], .ok img1, .ok []⟩
def pendingL (l : Launch) : State := { user with pendingLaunch := [l], wins := [(2, { en := true })] }
theorem meets_LaunchesArePlacedAndStarted : ∃ spots tasks, Placed (pendingL launch1) launch1 tabs1 8 0 spots tasks ∧ tabsOf launch1 tabs1 ∧ launchClass launch1 < 8 ∧ img1.length = rf launch1.bytes 8 4 := by
  unfold Placed
  refine ⟨_, _, ⟨by decide, by decide, rfl, by decide, by decide, rfl, ?_, ?_, ?_⟩, ⟨_, _, _, _, _, _, _, rfl, rfl⟩, by decide, by decide⟩ <;> decide
theorem meets_LaunchesArePlaced_memories : memoriesCanonical (pendingL launch1) := canonical_one _ (by decide) (by decide) (by decide)
/-- Every context of the grid's first core is taken; the same record refused for its image's length. -/
theorem meets_LaunchesArePlaced_full : refuseLaunch ((pendingL launch1).updCore 8 fun k => { k with ctxs := (upFrom 0 16).map fun i => (i, resting 0) }) launch1.bytes tabs1 = none
    ∧ (findPlace ((pendingL launch1).updCore 8 fun k => { k with ctxs := (upFrom 0 16).map fun i => (i, resting 0) }) (domainOf (pendingL launch1) launch1 tabs1)).isNone = true := by decide
theorem meets_LaunchesArePlaced_refused : refuseFirst { launch1 with bytes := launch1.bytes.set 8 65 } = none ∧ refuseLaunch (pendingL launch1) (launch1.bytes.set 8 65) tabs1 = some (.shape, 8) := by decide
/-- A supervisor's firing with a record at 0x1000 of its banks (a0); an empty one there; others whose address is no operand. -/
def launcher (r : List Byte) : State := (one { firing with regs := [(8, 0xC000000000001000), (9, 0xC000000000001040), (10, BitVec.ofNat 64 (2 ^ 62 + 0xF01 * 2 ^ 50))] }).updCore 259 fun k => { k with mem := writeBytes [] 0x1000 r }
theorem meets_LaunchOperands : let s := launcher (List.replicate 512 0)
    Settled s [16, 8] ∧ (rd s.k 9).toNat % 512 ≠ 0 ∧ (rd s.k 10).toNat % 512 = 0 ∧ field (rd s.k 10) 63 62 = 1 ∧ 0xF00 ≤ field (rd s.k 10) 61 50 ∧ s.pendingLaunch.length < 256
      ∧ (s.dom (domOf s.k)).pre = 0 ∧ emptyRecord (List.replicate 512 0) := by unfold emptyRecord; decide
theorem meets_LaunchOperands_banks : let s := launcher (List.replicate 512 0)
    Idle s ∧ PlainBanks s 259 ∧ LocalAt (rd s.k 8) 0x1000 512 :=
  ⟨⟨by decide, by decide, by decide, by decide, by decide, by decide⟩, ⟨rfl, rfl, rfl, rfl, rfl, by decide, by decide⟩, by unfold LocalAt; decide⟩
theorem meets_LaunchOperands_p0 : rCls (List.replicate 512 0) = 0 ∧ rPre (List.replicate 512 0) = 0 ∧ ((user.updDom 1 fun d => { d with pre := 1 }).dom 1).pre ≠ 0 := by decide
theorem meets_LaunchOperands_starts : (match tryLaunch user { launch1 with parent := some (3, true) } with | .ok .started v => v.k == user.k && v.cur == user.cur && (v.dom? 3).isSome | _ => false) = true
    ∧ (match tryLaunch { user with nheld := List.replicate 1024 [] } { launch1 with parent := some (3, true) } with | .ok (.pending m) v => v.k == user.k && v.cur == user.cur && m.tabs.length == 7 | _ => false) = true := by decide
theorem meets_LaunchWindowsCopySealedRecords : let s := { user with wins := [(2, { en := true, wbase := 0x1000 })] }
    (Tbl.read s.wins 2 {}).busy = false ∧ (rec1 1).length = 512 ∧ Memory.wf s.mem = true ∧ (Tbl.read s.wins 2 {}).en = true ∧ ((rec1 1).getD 511 0).toNat = (Tbl.read s.wins 2 {}).wseq ∧ ((rec1 2).getD 511 0).toNat ≠ 1 ∧ s.fw = 6 := by decide
theorem meets_LaunchWindows_copied : let b := List.replicate 511 0 ++ [1]
    let s := { user with wins := [(2, { en := true, busy := true })], mem := writeBytes [] (8 * 2 ^ 52) b }
    (Tbl.read s.wins 2 {}).busy = true ∧ s.pendingLaunch.length < 256 ∧ b.length = 512 ∧ readBytes s.mem (8 * 2 ^ 52) 512 = b ∧ emptyRecord b ∧ ¬ (s.replay.arm = true ∧ s.replay.win = 2)
      ∧ 256 ≤ (List.replicate 256 launch1).length ∧ State.reset.fw ≠ 6 := by unfold emptyRecord; decide
theorem meets_EnergyFillsAndIsSpent : user.dom? 1 = some dom1 ∧ dom1.spent = false ∧ dom1.cls ≠ 0 ∧ user.dom? 2 = none ∧ ((user.updDom 1 fun d => { d with spent := true }).dom 1).spent = true := by decide
/-- Domain 1 at rest, its only block done, every actor idle. -/
def atRest : State := { stalledDom 200 true with doms := [(1, { (stalledDom 200 true).dom 1 with launch := { bytes := (rec1 1).set 140 1 }, blocks := [(0, { blk 0 1 with fin := true }), (1, { blk 2 0 with fin := true })] })] }
theorem meets_DomainsEndAndReleaseTheirContexts : let s := atRest
    (∀ l ∈ s.pendingLaunch, rGtb l.bytes ≠ 1) ∧ (s.dom? 1).isSome = true ∧ (s.dom 1).gang = none ∧ quiescent s 1 = true ∧ blocksDone (s.dom 1) = true ∧ (s.dom 1).launch.replay = false ∧ rGtb (s.dom 1).launch.bytes = 1
      ∧ (s.dom 1).pkgs.length ≤ 1 ∧ quiescent user 1 = false := by decide
theorem meets_DomainsEnd_pending : let s := pendingL launch1
    s.pendingLaunch = [launch1] ∧ rGtb launch1.bytes = 3 ∧ s.dom? 3 = none := by decide
theorem meets_DomainsEnd_replay : let s := { atRest with replay := { rstat := 2, gtb := some 1, pass := 2, passm1 := 1, images := [(259, [])] } }
    s.replay.gtb = some 1 ∧ s.replay.rstat = 2 ∧ s.replay.passm1 < s.replay.pass ∧ (s.dom 1).rings = [] ∧ (s.replay.images.map (·.1)).Nodup ∧ user.replay.gtb = none := by decide
/-- Package 5 with a gang of coordinator 6, reserved or started here, of domain 9; the coordinator's own gang. -/
def ganged (coord : Nat) (started : Bool) : State :=
  { pkg5 user with time := 261000, doms := [(1, dom1), (9, { dom1 with started := started, pkgs := [coord, if coord = 5 then 6 else 5], tstart := 100, gang := some { coordinator := coord, waitAck := if coord = 5 then [6] else [] } })] }
def gangReq (sub : Nat) (b : List Byte) : Packet := { preq 7 0x83 b with flg := 16 * sub, raddr := 0, info := gtbInfo 9, len := b.length }
theorem meets_GangsReserveCommitAndAbort : let s := ganged 6 false
    Entered 7 4 (gangReq 2 []) s ∧ (gangReq 1 []).flg / 16 = 1 ∧ (s.dom? 9).isSome = true ∧ ((s.dom 9).gang.map (·.coordinator)) = some (gangReq 2 []).src ∧ (s.dom 9).started = false ∧ ((ganged 6 true).dom 9).started = true
      ∧ ((ganged 8 true).dom 9).gang.map (·.coordinator) ≠ some 6 ∧ s.dom? 7 = none ∧ (gangReq 4 (natLE 13 0)).src ∉ (s.dom 9).reported ∧ rf (natLE 13 0) 12 1 / 2 % 2 = 0 :=
  ⟨entered_all _ _ _ (by decide) _ rfl rfl rfl, by decide, by decide, by decide, by decide, by decide, by decide, by decide, by decide, by decide⟩
/-- A RESERVE of a record of packages 6 and 5 whose tables this package can read at once because it has none is refused for its shape. -/
theorem meets_Gangs_reserve : emptyRecord (List.replicate 160 0 ++ List.replicate 351 0 ++ [0]) ∧ (pkg5 user).dom? (rGtb (List.replicate 512 0)) = none := by unfold emptyRecord; decide
/-- Requests of the gang of domain 9 that are out, sent at 100. -/
def gangOut (sub : Nat) : Sent := { tag := 90 + sub, pkt := { preq 7 0x83 [] with src := 5, dst := 6, tag := 90 + sub, flg := 16 * sub + 4, raddr := 9 }, core := 2 ^ 34, op := 9, first := 100, last := 100 }
def gangWaits (sub t : Nat) : State := { ganged 5 (sub != 1) with sent := [gangOut sub], time := t, cores := [(259, { ctxs := [(0, resting 0)] })] }
theorem meets_Gangs_overdue : let s := gangWaits 1 65100
    s.sent.filter (fun r => r.core == 2 ^ 34 && r.op == 9 && r.pkt.flg / 16 == 1) ≠ [] ∧ (∃ r ∈ s.sent, r.last + 65000 ≤ s.time) ∧ (s.dom? 9).isSome = true ∧ ((s.dom 9).gang.map (·.fate)) = some none
      ∧ (∀ e ∈ s.cores, ∀ x ∈ e.2.ctxs, x.2.work = none) ∧ (∀ e ∈ s.dies, e.2.slots = []) ∧ (s.sent.map (·.tag)).Nodup ∧ (gangWaits 1 65099).time < 100 + 65000 := by decide
theorem meets_Gangs_reservation : let s := ganged 6 false
    (s.dom 9).started = false ∧ (s.dom 9).pkgs.headD s.pkid ≠ s.pkid ∧ (s.dom 9).tstart + 260000 ≤ s.time ∧ ({ s with time := 260099 } : State).time < (s.dom 9).tstart + 260000 := by decide
theorem meets_Gangs_acknowledged : let s := gangWaits 1 200
    gangOut 1 ∈ s.sent ∧ (∀ o ∈ s.sent, o.tag = (gangOut 1).tag → o = gangOut 1) ∧ (gangOut 1).pkt.cont = 0x83 ∧ (gangOut 1).pkt.flg / 16 = 1 ∧ ((s.dom 9).gang.map fun q => (q.fate, q.committed, q.waitAck)) = some (none, false, [(gangOut 1).pkt.dst]) := by
  refine ⟨.head _, ?_, by decide, by decide, by decide⟩
  intro q hq _; exact List.mem_singleton.mp hq

theorem test_launch : (match exec (.launch 8 16) (launcher (List.replicate 512 0)) with | .next t => rd t.k 16 == 0 && t.nheld == [] | _ => false) = false
    ∧ (match exec (.launch 8 16) (launcher ((List.replicate 512 0).set 104 0x13)) with | .next t => rd t.k 16 == 0x0215000000000000 && t.nheld.length == 1 | _ => false) = true ∧ (parks (.launch 9 16) (launcher [])).map (·.1) = some 4 := by decide
/-- The actor's context stands at (9, 0), the image at 0x2000 (R339, R340). -/
theorem test_launch_retry : (match exec .launchRetry (pendingL launch1) with
    | .next t => (t.ctx 9 0).home == some (3, some 0) && (t.ctx 8 0).home == some (3, none) && readBytes (t.core 9).mem 0x1FFF 66 == [0] ++ img1 ++ [0] && (t.dom 3).ox == 8 && t.pendingLaunch == []
        && (Tbl.read t.wins 2 {}).lgtb == 3 | _ => false) = true := by decide
theorem test_launch_window : (match exec (.launchWindowCopy 2 (rec1 1)) { user with wins := [(2, { en := true, wbase := 0x1000 })] } with
    | .next t => (Tbl.read t.wins 2 {}).busy && readBytes t.mem (8 * 2 ^ 52 + 0x1000) 512 == rec1 1 | _ => false) = true := by decide
theorem test_windows : (match exec (.windowEnable 2) user with | .next t => (Tbl.read t.wins 2 {}).en | _ => false) = true ∧ (match exec (.windowDestroy 2) { user with wins := [(2, { en := true })] } with | .next t => !(Tbl.read t.wins 2 {}).en | _ => false) = true := by decide
theorem test_energy : (match exec .energyWindow { user with reservoir := 7, debt := 3000000 } with | .next t => t.reservoir == 0 && t.debt == 200000 | _ => false) = true
    ∧ (match execEnergyBudgetSpent 1 user with | .next t => (t.dom 1).spent && t.k.matCls == 7 && t.nheld.length == 1 | _ => false) = true := by decide
theorem test_domain_ends : (match execDomainComplete 1 atRest with | .next t => (t.dom? 1).isNone && (t.ctx 259 0).home.isNone && t.nheld.map (·.take 6) == [[1, 0, 0, 0, 1, 0]] | _ => false) = true
    ∧ (match execDomainAbort 3 (pendingL launch1) with | .next t => t.pendingLaunch == [] && t.nheld.length == 1 | _ => false) = true := by decide
theorem test_replay_pass : (match execReplayPassEnd { atRest with replay := { rstat := 2, gtb := some 1, pass := 2, passm1 := 1, images := [(259, [(5, 9)])] } } with
    | .next t => t.replay.rstat == 3 && (t.core 259).mem == [(5, 9)] && (t.dom? 1).isNone | _ => false) = true := by decide
theorem test_gangs : (match execGangCommit (gangReq 2 []) (ganged 6 false) with | .next t => (t.dom 9).started && t.sent.map (fun r => (r.pkt.op, r.pkt.flg / 16)) == [(10, 2)] | _ => false) = true
    ∧ (match execGangAbort (gangReq 3 []) (ganged 6 false) with | .next t => (t.dom? 9).isNone && t.out.length == 2 | _ => false) = true
    ∧ (match execGangReserve (gangReq 4 (natLE 4 2 ++ natLE 8 30 ++ [1])) (ganged 6 true) with | .next t => (t.dom 9).ndone == 2 && (t.dom 9).meter == 30 && (t.dom 9).reported == [6] | _ => false) = true := by decide
theorem test_gang_times : (match execGangReserveTimeout 9 (gangWaits 1 65100) with | .next t => (t.dom 9).gang.map (·.fate) == some (some (2, 23)) && t.sent.map (fun r => r.pkt.flg / 16) == [3] | _ => false) = true
    ∧ (match execGangCommitTimeout 9 (gangWaits 2 65100) with | .next t => (t.dom 9).ended | _ => false) = true
    ∧ (match execGangAbortResend 9 (gangWaits 3 65100) with | .next t => t.out.length == 1 && t.sent.map (·.sends) == [2] | _ => false) = true
    ∧ (match execReservationExpire 9 (ganged 6 false) with | .next t => (t.dom? 9).isNone | _ => false) = true := by decide
theorem test_gang_committed : (match execDone (reply 0x83 [] |> fun p => { p with tag := 91 }) (gangWaits 1 200) with | .next t => (t.dom 9).started && t.sent.map (fun r => (r.pkt.op, r.pkt.flg / 16)) == [(7, 2), (10, 2)] | _ => false) = true := by decide

/-! ## The debugger, dumps, trace, replay, injection and notifications -/

def halted : State := { one { firing with dhalt := true, pend := some { stop := { cause := .engfault }, epc := 0x80, eng := true, kind := .engine } } with exchs := [] }
theorem meets_DebuggerHaltsStepsAndWritesContexts : (halted.ctx 259 0).dhalt = true ∧ (halted.ctx 259 0).pend ≠ none ∧ halted.exchs = [] ∧ (user.ctx 259 0).dhalt = false ∧ (user.ctx 259 0).work ≠ none ∧ (user.ctx 259 0).status = .ready
    ∧ (user.ctx 261 0).work = none := by decide
theorem meets_DctlCancels : let s := { (fillQueued .waiting).updCtx 259 0 fun k => { k with dhalt := true } with exchs := [] }
    (s.ctx 259 0).dhalt = true ∧ (s.core 259).ops.map (fun o => (o.ctx, live o, o.id)) = [(0, true, 5)] ∧ 5 ∈ (s.core 259).copyQ := by decide
theorem meets_ContextStateWrites : [0, 0x10 + 8 * 7, 0x50 + 8 * 23, 0x2B0, 0x2D8, 0x2E8, 0x2F0, 0x328].all (fun o => o % 8 = 0 && o < 0x630) = true ∧ ((7 : Reg).toNat < 8 ∧ 0 < (7 : Reg).toNat) ∧ 8 ≤ (31 : Reg).toNat := by decide
theorem meets_StopsAndDumpsFindTheirWork : (user.cores.findSome? fun e => (e.2.ctxs.find? fun y => y.2.work.isSome && gtidOf y.2 == 0x0001000000000000).map fun y => (e.1, y.1)) = some (259, 0) ∧ 31 < 32
    ∧ (∀ e ∈ user.cores, ∀ y ∈ e.2.ctxs, y.2.work ≠ none → gtidOf y.2 ≠ 7) ∧ ((savedFiring {}).die 0).slots.map (fun v => gtidOf v.2.ctx) = [0x0001000000000000] := by decide
theorem meets_DumpStarts : let s := fronts true stopped
    s.dom? 1 ≠ none ∧ (s.dom 1).frozen = true ∧ s.dstat ≠ 1 ∧ ({ s with dstat := 1 } : State).dstat = 1 ∧ (user.dom 1).frozen = false := by decide
/-- A dump of domain 9, which holds no context, into a buffer of 64 bytes at 0x8000 of host memory. -/
def dumping (n : Nat) : State := { user with doms := [(1, dom1), (9, { dom1 with frozen := true })], dstat := 1, dgtb := 9, dbuf := 0x8000, dlen := n, time := 77 }
theorem meets_DumpWrites : let s := dumping 64
    s.dstat = 1 ∧ (∀ e ∈ s.cores, ∀ o ∈ e.2.ops, ¬ o.dom = s.dgtb) ∧ (∀ e ∈ s.cores, ∀ x ∈ e.2.ctxs, inDom x.2 s.dgtb = false) ∧ 64 ≤ s.dlen ∧ (dumping 63).dlen < 64 ∧ s.dbuf.toNat % 64 = 0 ∧ user.dstat ≠ 1 := by decide
theorem meets_DumpWrites_memory : PlainSpan (dumping 64) (8 * 2 ^ 52 + 0x8000) 64 :=
  ⟨by decide, by decide, ⟨_, rfl, by decide⟩, by decide, by decide, by decide, by decide, by decide, rfl, by decide, by decide, by decide, by decide, by decide⟩
theorem meets_DumpWaits : let s := { (withOps user [{ fillOp with dom := 9 }]) with dstat := 1, dgtb := 9 }
    ∃ e ∈ s.cores, ∃ o ∈ e.2.ops, o.dom = s.dgtb ∧ o.status = 0 ∧ isLoad o = false := by decide
/-- The trace of die 0 takes every work into a ring of two records at 0x8000 of host memory. -/
def tracing (ix : Nat) (w : Bool) : State := { user.updDie 0 fun d => { d with ten := true, alld := true, tbase := 8 * 2 ^ 52 + 0x8000, tsize := 2, widx := ix, wrap := w } with time := 77 }
theorem meets_TraceReplayInjectionAndNotifications : let k := (tracing 1 false).die (dieOf 259)
    Settled (tracing 1 false) [8] ∧ k.ten = true ∧ k.tsize ≠ 0 ∧ k.alld = true ∧ k.widx < k.tsize ∧ ((tracing 2 false).die 0).tsize ≤ ((tracing 2 false).die 0).widx ∧ (user.die (dieOf 259)).ten = false ∧ user.diePresent 3 = true
      ∧ ({ user with devcap := 7 } : State).diePresent 3 = false ∧ user.replay.rstat ≠ 2 := by decide
theorem meets_MarkWrites_memory : PlainSpan (tracing 1 false) (8 * 2 ^ 52 + 0x8000 + 32 * 1) 32 :=
  ⟨by decide, by decide, ⟨_, rfl, by decide⟩, by decide, by decide, by decide, by decide, by decide, rfl, by decide, by decide, by decide, by decide, by decide⟩
theorem meets_Injects : 0x30040 < 2 ^ 56 ∧ homeOf 0x30040 ≤ 5 ∧ homePresent user (homeOf 0x30040) = true := by decide
/-- One record waits for a ring of four at 0x8000 of host memory, three of them not read yet, or all. -/
def noting (head : Nat) : State := { user with nbase := 0x8000, nsize := 4, ntail := 7, nhead := head, nheld := [List.replicate 64 9] }
theorem meets_NotificationDrains : let s := noting 3
    s.nheld = [List.replicate 64 9] ∧ s.nhead ≤ 4 ∧ 4 ≤ s.ntail ∧ s.ntail - 4 < s.nsize.toNat ∧ s.nsize.toNat ≤ s.ntail - s.nhead ∧ (8 * 2 ^ 52 + 0x8000 + 64 * (7 % 4)) % 64 = 0 ∧ user.nheld = [] := by decide
theorem meets_NotificationDrains_memory : PlainSpan (noting 3) (8 * 2 ^ 52 + 0x8000 + 64 * 3) 64 :=
  ⟨by decide, by decide, ⟨_, rfl, by decide⟩, by decide, by decide, by decide, by decide, by decide, rfl, by decide, by decide, by decide, by decide, by decide⟩

theorem test_debugger : (match execDctlHaltreq 259 0 user with | .next t => t.k.dhalt | _ => false) = true ∧ (match execDctlResume 259 0 halted with | .next t => !t.k.dhalt && t.k.pass && t.events == [.park 259 0] | _ => false) = true
    ∧ (match execDctlStep 259 0 halted with | .next t => t.k.stepping | _ => false) = true := by decide
theorem test_dctl_cancel : (match execDctlCancel 259 0 ((fillQueued .waiting).updCtx 259 0 fun k => { k with dhalt := true }) with
    | .next t => (t.core 259).ops.map (fun o => match o.body with | .copy m => m.guarded.taken | _ => .run) == [.discard] | _ => false) = true := by decide
theorem test_context_state_write : (match execContextStateWrite 259 0 0x58 77 halted with | .next t => rd t.k 9 == 77 && rd t.k 8 == 5 | _ => false) = true
    ∧ (match execContextStateWrite 259 0 0x2B0 0xB halted with | .next t => guardOf t.k 1 == some true && guardOf t.k 2 == some false && guardOf t.k 3 == none | _ => false) = true := by decide
theorem test_stops : (match execStopEntryWrite 5 2 0xFFFFFFFF user with | .next t => (Tbl.read t.stops 5 {}).w2 == 0x800FFFFF | _ => false) = true
    ∧ (match execStopRequest 0x0001000000000000 user with | .next t => (t.ctx 259 0).dhalt && !t.sgNone | _ => false) = true ∧ (match execStopRequest 7 user with | .next t => t.sgNone | _ => false) = true := by decide
theorem test_dump : (match execDumpStart 1 user with | .next t => t.dstat == 3 | _ => false) = true
    ∧ (match execDumpWrite (dumping 64) with | .next t => t.dstat == 2 && readBytes t.mem (8 * 2 ^ 52 + 0x8000) 32 == natLE 8 9 ++ natLE 16 0 ++ natLE 8 77 | _ => false) = true := by decide
theorem test_mark : (match exec (.mark 8) (tracing 1 false) with
    | .next t => readBytes t.mem (8 * 2 ^ 52 + 0x8020) 32 == natLE 8 77 ++ natLE 8 0x0001000000000000 ++ [4, 3, 1, 0] ++ natLE 4 0 ++ natLE 8 5 && (t.die 0).widx == 2 | _ => false) = true
    ∧ (match exec (.mark 8) (tracing 2 false) with | .next t => (t.die 0).drops == 1 && t.mem == [] | _ => false) = true := by decide
theorem test_trace_replay : (match execTraceEnable 0 (tracing 2 true) with | .next t => (t.die 0).widx == 0 | _ => false) = true
    ∧ (match execReplayArm 0x10205 user with | .next t => t.replay.arm && t.replay.passm1 == 2 && t.replay.win == 5 | _ => false) = true := by decide
theorem test_inject : (match execErrorInjectWrite .hub 0x30040 0 2 user with | .next t => t.poison == [0x30040 / 64] | _ => false) = true
    ∧ (match execErrorInjectWrite (.core 259) 0x40 3 1 user with | .next t => (t.core 259).inj == ⟨0x40, 3, 1⟩ | _ => false) = true := by decide
theorem test_notification_drain : (match execNotificationDrain 4 (noting 3) with | .next t => t.ntail == 8 && readBytes t.mem (8 * 2 ^ 52 + 0x80C0) 2 == [9, 9] && t.out == [.msix 0] | _ => false) = true
    ∧ (match execNotificationDrain 0 (noting 3) with | .next t => t.ntail == 7 && t.nheld.length == 1 | _ => false) = true := by decide

/-! ## Ethernet, bring-up, reset and attestation -/

/-- Port 0's queue 3 each way: base 0x4000, size 16, its words at 0x5000 and 0x5008, its next descriptor of 64 bytes at 0x6000 with an interrupt. -/
def ethQ : EthQ := { base := 0x4000, size := 16, proda := 0x5000, consa := 0x5008, vec := 4, en := true, done := 2, prod := 3 }
def port0 (k : EthPort) : State :=
  { user with time := 77, eth := [(0, { k with up := true })], mem := writeBytes (writeBytes (writeBytes [] 0x4040 (natLE 8 0x6000 ++ natLE 4 64 ++ [1])) 0x5000 (natLE 8 3 ++ natLE 8 2)) 0x6000 (List.replicate 64 7) }
def sending : State := port0 { tx := [(3, ethQ)] }
def receives (k : EthQ) : State := port0 { rx := [(3, k)] }
theorem still (k : EthPort) : StillMemory (port0 k) := ⟨rfl, rfl, rfl, rfl, by show (0 : Nat) ≠ 2; decide, by show (0 : Nat) ≠ 1; decide, fun _ => ⟨rfl, rfl⟩, (by decide : Memory.wf (port0 {}).mem = true)⟩
theorem span (s : State) (a n : Nat) (h : s.devcap = user.devcap) (ha : a + n ≤ 65536) : PortSpan s a n := by
  have e : a / 2 ^ 52 = 0 := by omega
  refine ⟨by omega, by show a / 2 ^ 52 % 16 ≤ 5; rw [e]; decide, ?_, ?_⟩
  · show homePresent s (a / 2 ^ 52 % 16) = true
    rw [e]; show (field s.devcap 3 0 / 2 ^ 0 % 2 == 1) = true
    rw [h]; decide
  · refine ⟨_, by show homeFrames (a / 2 ^ 52 % 16) = _; rw [e]; rfl, ?_⟩
    omega

theorem meets_EthernetQueuesSendTheirFrames : let s := sending
    StillMemory s ∧ (s.port 0).held = [] ∧ s.portPresent 0 = true ∧ (s.port 0).up = true ∧ (s.queue 0 false 3).en = true ∧ (s.queue 0 false 3).stop = false ∧ (s.queue 0 false 3).done ≠ (s.queue 0 false 3).prod ∧ 3 ∉ (s.port 0).paused
      ∧ (∀ n, 3 < n → ¬ (n < 8 ∧ (s.queue 0 false n).en = true)) ∧ PortSpan s 0x4040 32 ∧ PortSpan s 0x5008 8 ∧ PortSpan s 0x6000 64 ∧ leNat (readBytes s.mem 0x4048 4) = 64 ∧ leNat (readBytes s.mem 0x404C 1) < 2
      ∧ readBytes s.mem 0x404D 3 = natLE 3 0 ∧ Apart 0x5008 8 0x4040 32 := by
  refine ⟨still _, rfl, by decide, by decide, by decide, by decide, by decide, by decide, ?_, span _ _ _ rfl (by decide), span _ _ _ rfl (by decide), span _ _ _ rfl (by decide), by decide, by decide, by decide, .inr (by decide)⟩
  rintro n h ⟨h8, he⟩
  match n, h8 with
  | 4, _ | 5, _ | 6, _ | 7, _ => exact nomatch (show false = true from he)
theorem meets_EthernetQueues_enable : let k := { ethQ with en := false, stop := true }
    let s := port0 { tx := [(3, k)] }
    StillMemory s ∧ (s.queue 0 false 3).en = false ∧ (∃ n, 4 ≤ n ∧ n ≤ 16 ∧ (s.queue 0 false 3).size = 2 ^ n) ∧ PortSpan s 0x5008 8 ∧ PortSpan s 0x5000 8 ∧ homeOf (8 * 2 ^ 52) > 5 ∧ (s.queue 0 true 3).size ≠ 2 ^ 4
      ∧ ({ s with devcap := 0 } : State).portPresent 0 = false :=
  ⟨still _, by decide, ⟨4, by decide, by decide, by decide⟩, span _ _ _ rfl (by decide), span _ _ _ rfl (by decide), by decide, by decide, by decide⟩
/-- A higher queue that can send; a pause frame; a link that is down. -/
theorem meets_EthernetQueues_others : (port0 { tx := [(3, ethQ), (5, ethQ)] }).queue 0 false 5 = ethQ ∧ user.portPresent 0 = true ∧ (user.port 0).up = false ∧ (sending.port 0).up = true ∧ runs (sending.queue 0 false 3) = true ∧ posted (sending.queue 0 false 3) = true := by decide
/-- A frame of priority 3. -/
def frame3 : List Byte := List.replicate 12 1 ++ [0x81, 0, 0x60, 0] ++ List.replicate 48 2
theorem meets_EthernetQueuesReceiveFrames : let s := receives ethQ
    StillMemory s ∧ (s.port 0).held = [] ∧ frame3.getD 12 0 = 0x81 ∧ (frame3.getD 14 0).toNat / 32 = 3 ∧ frame3.length + 4 ≤ 9216 ∧ 64 ≤ frame3.length + 4 ∧ (s.queue 0 true 3).done ≠ (s.queue 0 true 3).prod
      ∧ PortSpan s 0x4040 32 ∧ PortSpan s 0x5008 8 ∧ PortSpan s 0x6000 64 ∧ leNat (readBytes s.mem 0x4040 8) = 0x6000 ∧ leNat (readBytes s.mem 0x4048 4) = 64 ∧ Apart 0x5008 8 0x4040 32 ∧ Apart 0x6000 64 0x4040 32 ∧ Apart 0x6000 64 0x5008 8 :=
  ⟨still _, by decide, by decide, by decide, by decide, by decide, by decide, span _ _ _ rfl (by decide), span _ _ _ rfl (by decide), span _ _ _ rfl (by decide), by decide, by decide, .inr (by decide), .inr (by decide), .inr (by decide)⟩
theorem meets_EthernetQueuesReceive_none : ((receives { ethQ with prod := 2 }).queue 0 true 3).done = ((receives { ethQ with prod := 2 }).queue 0 true 3).prod ∧ ((receives { ethQ with prod := 2, pfc := true }).queue 0 true 3).pfc = true
    ∧ ((receives { ethQ with en := false }).queue 0 true 3).en = false ∧ (List.replicate 59 1).length + 4 < 64 ∧ 9216 < (List.replicate 9213 (0 : Byte)).length + 4 := by
  refine ⟨by decide, by decide, by decide, by decide, ?_⟩
  rw [List.length_replicate]; decide
/-- Either the image's signatures verify, or they do not: the clauses of bring-up hold of the machine after reset by one or the other (log 21). -/
theorem meets_BringUpResetsAndAttests : State.reset.fw = 0 ∧ (Config.signaturesVerify State.reset.fwImage = true ∨ Config.signaturesVerify State.reset.fwImage = false) ∧ user.fw ≠ 0 ∧ ((1 ≤ 2 ∧ 2 ≤ 6 ∧ 2 ≤ 2) ∧ 3 ≤ 6) :=
  ⟨rfl, by cases Config.signaturesVerify State.reset.fwImage; exact .inr rfl; exact .inl rfl, by decide, by decide⟩
theorem meets_BringUp_others : (0xFF8 % 8 = 0 ∧ 0xFF8 < 0x1000) ∧ 4 ≤ user.fw ∧ user.fw < 0x80 ∧ State.reset.fw < 4 ∧ (0x85 : Nat) ∉ [0x81, 0x82, 0x83, 0x84, 0xE0, 0xE1, 0xE3, 0xFE] := by decide

theorem test_eth_enable : (match execEthQueueEnable 0 3 false (port0 { tx := [(3, { ethQ with en := false })] }) with | .next t => (t.queue 0 false 3).en && (t.queue 0 false 3).done == 2 && (t.queue 0 false 3).prod == 3 | _ => false) = true
    ∧ (match execEthQueueDisable 0 3 false sending with | .next t => !(t.queue 0 false 3).en | _ => false) = true ∧ (match execEthProducerUpdate 0 3 false sending with | .next t => t.events == [.ethTransmit 0 3] | _ => false) = true := by decide
theorem test_eth_transmit : (match execEthTransmit 0 3 sending with
    | .next t => t.out == [.msix 4, .frame 0 (List.replicate 64 7)] && readBytes t.mem 0x4050 16 == natLE 8 0 ++ natLE 8 77 && readBytes t.mem 0x5008 2 == [3, 0] && Tbl.read (t.port 0).stats 8 0 == 64 | _ => false) = true := by decide
theorem test_eth_receive : (match execEthReceive 0 frame3 true (receives ethQ) with
    | .next t => readBytes t.mem 0x6000 64 == frame3 && readBytes t.mem 0x4050 16 == natLE 4 0 ++ natLE 4 64 ++ natLE 8 77 && (t.queue 0 true 3).done == 3 | _ => false) = true
    ∧ (match execEthReceive 0 frame3 false (receives ethQ) with | .next t => (t.port 0).stats == [(0x20, 1)] | _ => false) = true := by decide
theorem test_eth_pause_link : (match execEthPauseReceive 0 3 sending with | .next t => (t.port 0).paused == [3] && t.events == [.ethPauseExpire 0 3] | _ => false) = true
    ∧ (match execEthPauseExpire 0 3 (port0 { tx := [(3, ethQ)], paused := [3] }) with | .next t => (t.port 0).paused == [] && t.events == [.ethTransmit 0 3] | _ => false) = true
    ∧ (match execEthLinkChange 0 false sending with | .next t => !(t.port 0).up | _ => false) = true := by decide
theorem test_power_good : (match execPowerGood (some 2) State.reset with | .next t => t.fw == 0x82 | _ => false) = true ∧ (match execPowerGood none user with | .next t => t.fw == 6 | _ => false) = true := by decide
theorem test_package_reset : (match execPackageReset none { user with mem := [(5, 1)] } with | .next t => t.fw == 0 && t.mem == [(5, 1)] && t.cores.length == 0 && t.events == [.powerGood none] | _ => false) = true := by decide
theorem test_firmware_spdm : (match execFirmwareLoadWrite 8 0x0102 user with | .next t => t.fwImage == List.replicate 8 0 ++ natLE 8 0x0102 | _ => false) = true
    ∧ (match execSpdmRequest 0x85 user with | .next t => t.out == [.spdm 0x7F [7]] | _ => false) = true := by decide

/-! ## Further premises met -/

theorem meets_PeerFree : PeerFree user 259 .sys ∧ PeerFree (levels atLevel) 259 (dom2.scope) ∧ PeerFree (levels atLevel) 261 .sys :=
  ⟨fun _ => ⟨by decide, by decide, by decide⟩, fun _ => ⟨by decide, by decide, by decide⟩, fun _ => ⟨by decide, by decide, by decide⟩⟩
/-- STSZ written while a store through a window is outstanding, while a page denies the write-back, and while a peer's sector is on its way. -/
theorem meets_RegisterWriteMovesTakeEffect_stsz : storesThrough (withOps stashing [windowStore]) 259 0 bankEnd = true ∧ storesThrough (stashed 0xB) 259 0 bankEnd = false
    ∧ (flushRights (stashed 0xB) 259 0 0 bankEnd).1 ≠ none
    ∧ (let s := { stashed 0xF with sent := [{ tag := 1, pkt := preq 2 0x83 [], core := wbCore 0, op := 1 }] }
       (flushRights s 259 0 0 bankEnd).1 = none ∧ flushPending (flushSpan (flushRights s 259 0 0 bankEnd).2 259 0 0 bankEnd) 259 0 0 bankEnd = true) := by decide
theorem meets_RegisterWriteMovesTakeEffect_csr : written .tvec (csrGet user 259 0 .tvec) 0x1234567 = some 0x34564 ∧ csrConst .coord = true ∧ fpBusy (withOps user [adding]) 259 0 = true
    ∧ tableBusy (withOps user [expanding]) 259 = true ∧ tableBusy user 259 = false ∧ ({ user with devcap := 0x33FFF } : State).rchkPresent = false := by decide
theorem meets_HubRegisterWritesTakeEffect : 4 ≤ user.fw ∧ user.fw < 0x80 ∧ user.fw = 6 ∧ State.reset.fw < 4 ∧ (Tbl.read (pendingL launch1).wins 2 {}).en = true ∧ (Tbl.read user.wins 2 {}).en = false ∧ user.portPresent 0 = true
    ∧ (sending.queue 0 false 3).en = true ∧ (sending.queue 0 true 3).en = false ∧ (9 : Word).toNat % 8 = 1 ∧ (0x20000 : Word).toNat % 8 = 0 ∧ (9 : Word).toNat % 2 = 1 := by decide
/-- A record at 0x4000 that no ring is live at; 32 live rings; a null handle; a record whose consumer is core (4, 2). -/
def ringless : State := shaped.updCore 259 fun k => { k with rings := [] }
theorem meets_RbindTakesARole_fresh : let s := ringless
    Tbl.find (s.core 259).rings 0x4000 = none ∧ opsOf s 259 0 = [] ∧ (s.core 259).bad = [] ∧ dieOf (bankCore s 259 0) = dieOf 259
      ∧ (ringRecord (overRings s 259 0x4000 (readBytes (s.core 259).mem 0x4000 64))).map (fun w => (ringPlaced s s.k.dox s.k.doy w).consCore) = some 259
      ∧ (handleOf s.k 1).bind = none ∧ (handleOf s.k 1).shape ≠ {} ∧ (handleOf s.k 9).shape = {} ∧ (handleOf s.k 9).bind = none ∧ (s.core 259).rings.length < 32 := by decide
theorem meets_RbindTakesARole_full : let s := ringless.updCore 259 fun k => { k with rings := (upFrom 0 32).map fun i => (0x8000 + 64 * i, ring1) }
    (s.core 259).rings.length ≥ 32 ∧ Tbl.find (s.core 259).rings 0x4000 = none ∧ (ringRecord (overRings s 259 0x4000 (readBytes (s.core 259).mem 0x4000 64))).isSome = true := by decide
theorem meets_RbindTakesARole_elsewhere : (ringRecord (overRings ringless 259 0x4000 (readBytes (ringless.core 259).mem 0x4000 64))).map (fun w => (ringPlaced ringless 1 2 w).consCore) = some 260 := by decide
theorem meets_RingNotificationTells : (shaped.ctx 259 0).home = some (1, some 0) ∧ (shaped.ctx 259 0).away = none ∧ (shaped.die (dieOf 259)).slots = []
    ∧ (∀ e ∈ shaped.cores, ∀ k ∈ e.2.ctxs, k.2.away = none) ∧ Tbl.find (shaped.core 259).rings 0x2000 = none := by decide
theorem meets_EnginesOnTheirDie : (∀ p ∈ [capture shaped shaped.k 1, capture shaped shaped.k 2, capture shaped shaped.k 3], typeCode p.shape ≠ 15) ∧ dieOf fillOp.bank = dieOf 259 ∧ dieOf addOp8.bank = dieOf 259
    ∧ (fillRuns.core 259).bad = [] ∧ (fillRuns.core 259).windows = [] ∧ (fillRuns.core 259).dirl = [] ∧ ((addRuns adding8).core 259).bad = [] ∧ ((addRuns adding8).core 259).windows = [] ∧ adding8.subst = none
    ∧ adding8.undo = [] ∧ fillOp.held = false ∧ addOp8.held = false ∧ (exchOp .run).held = false ∧ releaseBefore (exchQueued .run) 259 (exchOp .run) = false
    ∧ vectorsBefore (exchRuns exch1) 259 (exchOp .run) = false ∧ dieOf (exchOp .run).bank = dieOf 259 := by decide
theorem meets_EnginesOnTheirDie_memories : memoriesCanonical fillRuns ∧ memoriesCanonical (addRuns adding8) ∧ memoriesCanonical (exchQueued .run) :=
  ⟨canonical_one _ (by decide) (by decide) (by decide), canonical_one _ (by decide) (by decide) (by decide), canonical_one _ (by decide) (by decide) (by decide)⟩
/-- FRONT's states: a finished block, one whose firing is to start again, one whose gate holds or is shut, one whose firing is parked, halted or saved. -/
def restarting : Dom := { dom2 with actors := [(0, { core := 259, block := some 0, again := some (7, none, 4) }), (2, { core := 261, block := some 1 })] }
theorem meets_FrozenFronts_states : let s := fronts true stopped
    ({ blk 0 1 with fin := true } : Block).fin = true ∧ (Tbl.read restarting.actors 0 {}).again = some (7, none, 4) ∧ (Tbl.read dom2.actors 0 {}).again = none ∧ (firingOf s 1 2).isNone = true
      ∧ gateHolds (blk 2 0) = true ∧ gateHolds { blk 2 0 with edges := [{ a := 9, s := false, j := 1, lvl := 8 }] } = false
      ∧ (firingOf s 1 0).map (fun k => (k.1.status, k.2)) = some (.parked, false) ∧ (firingOf (fronts true { firing with frozenHalt := true }) 1 0).map (fun k => (k.1.status, k.1.frozenHalt)) = some (.ready, true) := by decide
theorem meets_ThawGoesOn : ∀ (c : Nat) (t : Word), Event.resume c t ∉ (fronts true stopped).events ∧ Event.restart c t ∉ (fronts true stopped).events ∧ Event.abort c t ∉ (fronts true stopped).events
    ∧ ∀ v, Event.resumeValue c t v ∉ (fronts true stopped).events :=
  fun _ _ => ⟨fun h => (nomatch h), fun h => (nomatch h), fun h => (nomatch h), fun _ h => (nomatch h)⟩
theorem meets_SupervisorAnswers_slots : ((one stopped).ctx 259 0).loop = none ∧ ((one stopped).ctx 259 0).back = [] ∧ ((one failing).ctx 259 0).later = [] ∧ stopped.work = firing.work ∧ stopped.away = none ∧ stopped.acc = none
    ∧ stopped.handles = [] ∧ stopped.sending = false ∧ stopped.arrival = none ∧ isSuper (one stopped) ((one stopped).ctx 259 0) = false := by decide
/-- The host's command of an unknown operation, or of an operation for the parked firing. -/
theorem meets_HostCommandAnswers_ops : (5 : Word).toNat % 256 > 4 ∧ (2 : Word).toNat / 256 = 0 ∧ (2 : Word).toNat % 256 = 2 := by decide
theorem meets_LaunchOperands_unnamed : (∀ e ∈ user.cores, ∀ y ∈ e.2.ctxs, ∀ w, y.2.work = some w → w.dom ≠ 3) ∧ ∀ e ∈ user.dies, ∀ y ∈ e.2.slots, ∀ w, y.2.ctx.work = some w → w.dom ≠ 3 := by
  refine ⟨?_, by intro e h; exact nomatch h⟩
  intro e he y hy w hw
  rcases List.mem_cons.mp he with rfl | he
  · cases List.mem_singleton.mp hy; cases hw; decide
  · cases List.mem_singleton.mp he; cases List.mem_singleton.mp hy; cases hw; decide
/-- A RESERVE of a launch of packages 6 and 5 whose tables stand in pages of this package: its one actor is placed here. -/
def gangRec : List Byte :=
  natLE 8 0x10200 ++ natLE 4 64 ++ natLE 4 0x2000 ++ natLE 8 0x100000 ++ natLE 8 0x10100 ++ natLE 32 0 ++ natLE 4 1 ++ natLE 12 0 ++ natLE 8 0 ++ natLE 8 0 ++ natLE 8 0xFF ++ [0x13, 3] ++ List.replicate 6 255
    ++ natLE 4 0 ++ [4, 1, 8, 0, 1, 0, 0, 0] ++ natLE 4 5 ++ natLE 8 0 ++ natLE 4 0 ++ natLE 4 9 ++ natLE 8 2 ++ natLE 8 0x10000
def gangHome : State := { migHome with mem := writeBytes (writeBytes (writeBytes migHome.mem 0x990000 [6, 0, 5, 0]) 0x990100 (act1.set 46 1)) 0x990200 img1 }
theorem meets_Gangs_reserved : gangHome.dom? (rGtb (gangRec ++ List.replicate 351 0 ++ [1])) = none ∧ gangRec.length = 160
    ∧ (match tryLaunch { gangHome with inbound := gangHome.inbound ++ [{ src := 6, tag := 77, op := 0x07 }] } { bytes := gangRec ++ List.replicate 351 0 ++ [1] } with
      | .ok .started v => (v.dom 9).pkgs.head? == some 6 && v.pkid == 5 && (v.dom? 9).isSome | _ => false) = true := by decide
/-- A queue whose EN is set and whose start is to come. -/
theorem meets_EthernetQueues_starting : (port0 { tx := [(3, { ethQ with starting := true })] } |>.queue 0 false 3).starting = true ∧ (sending.queue 0 false 3).starting = false ∧ (sending.port 0).held = []
    ∧ ((receives ethQ).queue 0 true 3).starting = false := by decide

theorem test_registerWrite : (match execRegisterWrite (.csr 259 0 .tvec) 0x1234567 user with | .next t => t.k.tvec == 0x34564 | _ => false) = true
    ∧ (match execRegisterWrite (.hub 0x20000) 0x9000 user with | .next t => t.nbase == 0x9000 | _ => false) = true := by decide
theorem test_gang_reserve : (match execGangReserve (gangReq 1 (gangRec ++ [1])) gangHome with
    | .next t => t.out.length == 1 && t.events == [.reservationExpire 9] && (t.dom 9).gang.map (·.coordinator) == some 6 && !(t.dom 9).started | _ => false) = true := by decide

/-! ## A domain of several packages -/

/-- Domain 1 over packages 5 and 6: block 1's actor lives on package 6, on core (5, 2). -/
def apartDom (frozen : Bool) : Dom :=
  { dom2 with frozen := frozen, pkgs := [5, 6], blocks := [(0, { blk 0 1 with edges := [] }), (1, { blk 2 0 with t := 12, d := 2 })]
              actors := [(0, { core := 259, wid := 7, block := some 0, running := true }), (1, { core := 260, x := 1, begun := true }), (2, { pkg := 1, x := 5, y := 2, block := some 1 })] }
/-- This is package 5; the firing of block 0 issues, or the supervisor, whose table at 0x1000 enables no edge. -/
def apart (sent : List Sent) : State := { levels atLevel with pkid := 5, acl := (pkg5 user).acl, doms := [(1, apartDom false)], sent := sent }
def apartSup (frozen : Bool) : State := { binder frozen 2 0 with pkid := 5, acl := (pkg5 user).acl, doms := [(1, apartDom frozen)] }
/-- A question that context 0 of a core has sent to package 6, and its answer. -/
def question (core sub : Nat) (b : List Byte) (got : Option (List Byte)) : Sent :=
  { tag := 70, pkt := { preq 6 0x80 b with src := 5, dst := 6, tag := 70, flg := 4 + 16 * sub }, core := core, op := msgId 0, got := got }
theorem meets_FarPartsAreAsked : let s := apart []
    Settled s [16, 9] ∧ (rd s.k 9).toNat = 1 ∧ 1 < (s.dom (domOf s.k)).nblk ∧ ¬ Here s (s.dom (domOf s.k)) 1 ∧ ownBlockOf s = some (0, { blk 0 1 with edges := [] }) ∧ s.sent = [] ∧ (s.dom (domOf s.k)).scope ≠ .sys
      ∧ askedBy s.cur.1 (msgId s.cur.2) 9 ((s.dom (domOf s.k)).pkgs.getD (Tbl.read (s.dom 1).actors (Tbl.read (s.dom 1).blocks 1 {}).actor {}).pkg 0, 0, natLE 4 1) (question 259 9 (natLE 4 1) none) = true := by
  unfold Here; decide
theorem meets_FarParts_supervisor : let s := apartSup true
    isSuper s s.k = true ∧ s.sent = [] ∧ ¬ Alone s (domOf s.k) ∧ (s.dom 1).frozen = true ∧ (rd s.k 8).toNat % 64 = 0 ∧ 1 < (s.dom 1).nblk ∧ ¬ Here s (s.dom 1) 1 ∧ levelsOnWay s 1 = false ∧ (s.dom 1).blocks ≠ []
      ∧ (∀ b ∈ (s.dom 1).blocks, b.1 < (s.dom 1).nblk) ∧ ((apartSup false).dom 1).frozen = false := by
  unfold Here Alone; decide
theorem meets_FarParts_table : let w := fun (i : Nat) => leWord (readBytes ((apartSup true).core 260).mem (0x1000 + 8 * i) 8)
    w 0 = BitVec.ofNat 64 2 ∧ (upFrom 1 23).all (fun i => w i == 0) = true := by decide
theorem meets_FarParts_banks : Idle (apartSup true) ∧ PlainBanks (apartSup true) 260 :=
  ⟨⟨by decide, by decide, by decide, by decide, by decide, by decide⟩, ⟨rfl, rfl, rfl, rfl, rfl, by decide, by decide⟩⟩
/-- Package 6 meets its domain's barrier, which package 5 counts. -/
def gathers (arrival : Option Nat) (sent : List Sent) : State :=
  { one { firing with arrival := arrival, regs := [(9, 0x20005)] } with pkid := 6, acl := (pkg5 user).acl, doms := [(1, { dom1 with pkgs := [5, 6], scope := .sys })], sent := sent }
theorem meets_FarParts_barrier : let s := gathers none []
    Settled s [9] ∧ s.k.arrival = none ∧ (rd s.k 9).toNat / 2 ^ 16 % 2 ^ 16 = 2 ∧ releaseReady (opsOf s s.cur.1 s.cur.2) s.nextId .sys = true ∧ (s.dom (domOf s.k)).pkgs.headD s.pkid ≠ s.pkid ∧ s.barriers = [] := by decide
theorem meets_FarParts_arrived : let r := question 259 6 [5, 2, 0] (some [1])
    let s := gathers (some 4) [r]
    s.k.arrival.isSome = true ∧ s.sent = [r] ∧ r.core = s.cur.1 ∧ r.op = msgId s.cur.2 ∧ r.pkt.flg / 16 = 6 ∧ r.got = some [1] ∧ rf [1] 0 1 ≠ 0 ∧ rf [0] 0 1 = 0 ∧ s.k.departed = false
      ∧ (s.die (dieOf s.cur.1)).sectors = [] ∧ (s.core s.cur.1).stash = [] := by decide
/-- Package 6 asks package 5, where one of two has met barrier 5 of system scope. -/
def counting (n : Nat) : State := { apart [] with barriers := [⟨4, 1, 0, .sys, 5, n, 1, []⟩] }
theorem meets_PeerUnits_domain : let s := counting 3
    Entered 6 4 (cmsg 6 ([5] ++ natLE 2 3 ++ natLE 8 44)) s ∧ s.dom? 1 = some (apartDom false) ∧ (cmsg 6 []).src ∈ (apartDom false).pkgs ∧ 9 ∉ (apartDom false).pkgs ∧ s.dom? 2 = none ∧ (cmsg 6 []).flg / 16 = 6 ∧ (cmsg 6 []).cont ≠ 0x81
      ∧ s.barriers.find? (fun q => q.dom == 1 && q.scope == .sys && q.inst == 0 && q.num == 5) = some ⟨4, 1, 0, .sys, 5, 3, 1, []⟩ ∧ 1 + 1 < 3 ∧ untold s 1 = false
      ∧ stillRuns (beginFreeze s 1) 1 = true ∧ (apartDom false).frozen = false ∧ stillRuns (beginFreeze (apartSup false) 1) 1 = false :=
  ⟨entered_all _ _ _ (by decide) _ rfl rfl rfl, by decide, by decide, by decide, by decide, by decide, by decide, by decide, by decide, by decide, by decide, by decide, by decide⟩
theorem meets_PeerUnits_commit : Entered 10 4 { cmsg 1 (natLE 4 1 ++ natLE 4 16 ++ natLE 2 4 ++ [1]) with op := 10 } (apart []) ∧ ¬ Here (apart []) (apartDom false) 1 ∧ Here (apart []) (apartDom false) 0 :=
  ⟨entered_all _ _ _ (by decide) _ rfl rfl rfl, by unfold Here; decide, by unfold Here; decide⟩
/-- The gang's packages are told that their domain is complete; the coordinator waits for a report. -/
theorem meets_Gangs_complete : Entered 7 4 (gangReq 5 []) (ganged 6 true) ∧ (gangReq 5 []).flg / 16 = 5 ∧ ((ganged 6 true).dom 9).pkgs.headD 0 = (gangReq 5 []).src ∧ (gangReq 5 []).src ≠ (ganged 6 true).pkid ∧ (ganged 6 true).linkDown = []
    ∧ ((ganged 8 true).dom 9).pkgs.headD 0 ≠ 6 :=
  ⟨entered_all _ _ _ (by decide) _ rfl rfl rfl, by decide, by decide, by decide, by decide, by decide⟩
theorem meets_DomainsEnd_gang : let s := ganged 5 true
    (s.dom? 9).isSome = true ∧ ((s.dom 9).gang.map (·.fate)) = some none ∧ (s.dom 9).pkgs.headD s.pkid = s.pkid ∧ quiescent (gangWaits 1 200) 9 = false ∧ ((ganged 6 true).dom 9).pkgs.headD 5 ≠ 5
      ∧ (∃ p ∈ (s.dom 9).pkgs, p ≠ s.pkid ∧ p ∉ (s.dom 9).reported) := by decide

end Sys2Proof.Tests
end

section
/-!
PROOFS. What an instruction that names a register with a reply due, or that waits at issue, leaves as it was (R84, R93, R364), and what
one that retires leaves.
-/
namespace Sys2Proof.Machine
open Sys2Proof

/-! Waiting at issue. -/

/-- Everything outside the issuing context that a claim about bytes and contexts can see. -/
def KeptElsewhere (s t : State) : Prop := t.cur = s.cur ∧ OthersKept s t ∧ BytesKept s t

theorem keptElsewhere_refl (s : State) : KeptElsewhere s s :=
  ⟨rfl, fun _ _ _ => rfl, fun _ => rfl, fun _ => rfl, fun _ _ => rfl⟩

theorem KeptElsewhere.trans {s t u : State} (h : KeptElsewhere s t) (g : KeptElsewhere t u) : KeptElsewhere s u := by
  obtain ⟨hc, ho, hm, hd, hb⟩ := h
  obtain ⟨gc, go, gm, gd, gb⟩ := g
  refine ⟨gc.trans hc, fun c x hx => ?_, fun a => (gm a).trans (hm a), fun d => (gd d).trans (hd d), fun c a => (gb c a).trans (hb c a)⟩
  rw [go c x (by rwa [hc]), ho c x hx]

theorem PackageKept.elsewhere {s t : State} (h : PackageKept s t) : KeptElsewhere s t := by
  have ⟨_, _, others, _⟩ := h
  exact ⟨h.cur, others, h.bytes⟩

theorem SameParts.elsewhere {s t : State} (h : SameParts s t) : KeptElsewhere s t := by
  have ⟨_, hcur, hmem, hdies⟩ := h
  exact ⟨hcur, fun c x _ => h.ctx c x, fun a => by rw [hmem], fun d => by rw [State.die, hdies]; rfl, fun c a => by rw [h.core]⟩

/-- A context that waits keeps all but the marks of a debugger's step and of a freeze (R364, R367, R374). -/
theorem finish_wait (len : Nat) (d : Option Reg) (s : State) :
    KeptElsewhere s (finish len d (.wait s)) ∧ ∃ stepping dhalt frozenHalt,
      (finish len d (.wait s)).k = { s.k with stepping := stepping, dhalt := dhalt, frozenHalt := frozenHalt } := by
  obtain ⟨u, hu⟩ : ∃ u, u = s.updK fun k => if k.stepping then { k with stepping := false, dhalt := true } else k := ⟨_, rfl⟩
  have hk : ∃ a b, u.k = { s.k with stepping := a, dhalt := b } := by
    rw [hu, State.updK_eq, State.k_setCtx_cur]
    split
    · exact ⟨_, _, rfl⟩
    · exact ⟨_, _, rfl⟩
  have hp : PackageKept s u := by rw [hu, State.updK_eq]; exact packageKept_setCtx_cur s _
  obtain ⟨a, b, hk⟩ := hk
  have e : finish len d (.wait s) = if ((u.dom (domOf u.k)).draining || (u.dom (domOf u.k)).hostFreeze) && !isSuper u u.k
      then { u.updK (fun k => { k with frozenHalt := true }) with stalled := [] }
      else { u with stalled := u.stalled ++ [s.cur] } := by rw [hu]; rfl
  rw [e]
  split
  · have same : SameParts (u.updK fun k => { k with frozenHalt := true })
        { u.updK (fun k => { k with frozenHalt := true }) with stalled := [] } := ⟨rfl, rfl, rfl, rfl⟩
    refine ⟨(hp.elsewhere.trans ?_).trans same.elsewhere, a, b, true, ?_⟩
    · rw [State.updK_eq]; exact (packageKept_setCtx_cur u _).elsewhere
    · rw [same.k, State.updK_eq, State.k_setCtx_cur, hk]
  · have same : SameParts u { u with stalled := u.stalled ++ [s.cur] } := ⟨rfl, rfl, rfl, rfl⟩
    exact ⟨hp.elsewhere.trans same.elsewhere, a, b, s.k.frozenHalt, by rw [same.k, hk]⟩

/-- Contexts that agree but for the PC and what every retirement clears have the same guards. -/
theorem guardOf_of_contextKept {a b : Ctx} (h : ContextKept a b) (q : QIx) : guardOf b q = guardOf a q := by
  have e := congrArg (guardOf · q) h
  exact e

theorem specials_of_contextKept {a b : Ctx} (h : ContextKept a b) : specials b = specials a := by
  have e := congrArg specials h
  exact e

theorem retained_of_contextKept {a b : Ctx} (h : ContextKept a b) : Retained a b := by
  have e := congrArg (fun k : Ctx => (k.handles, k.frames, k.depth, k.wp, k.lvstep, k.acc, k.matCls, k.nbv, k.events,
    [k.fpc, k.widl, k.supv, k.tvec, k.wins])) h
  exact e

/-- An instruction that waits in a state that differs from the one before in nothing that a wait may not touch. -/
theorem finish_waits {len : Nat} {d : Option Reg} {s u : State} (hp : PackageKept s u) (hk : ContextKept s.k u.k)
    (hr : RegsKept s u []) (hpc : u.k.pc = s.k.pc) : Waits s (finish len d (.wait u)) := by
  obtain ⟨he, a, b, c, ek⟩ := finish_wait len d u
  obtain ⟨-, others, bytes⟩ := hp.elsewhere.trans he
  have sp := specials_of_contextKept hk
  have re := retained_of_contextKept hk
  rw [Waits, RegsKept, GuardsKept, ek]
  exact ⟨hpc, hr, fun q _ => guardOf_of_contextKept hk q, others, bytes, sp, re⟩

/-- An instruction that names a register whose reply is outstanding waits (R84, R93). -/
theorem issue_busy {len : Nat} {d : Option Reg} {srcs : List Reg} {body : State → Res} {s : State}
    (h : ∃ r ∈ d.toList ++ srcs, busyReg (opsOf s s.cur.1 s.cur.2) r = true) : Waits s (issue len d srcs body s) := by
  have any : (d.toList ++ srcs).any (busyReg (opsOf s s.cur.1 s.cur.2)) = true := List.any_eq_true.2 h
  have e : issue len d srcs body s = finish len d (.wait s) := by rw [issue, if_pos any]
  rw [e]
  exact finish_waits (packageKept_refl s) rfl (fun _ _ => rfl) rfl

theorem pc_readReplies (k : Ctx) (srcs : List Reg) : (readReplies k srcs).pc = k.pc := by unfold readReplies; split <;> rfl

/-- An instruction whose body waits has performed no acquire (R216, R364). -/
theorem issue_waits {len : Nat} {d : Option Reg} {srcs : List Reg} {body : State → Res} {s : State}
    (h : Settled s (d.toList ++ srcs))
    (hb : body (s.updK fun k => readReplies k srcs) = .wait (s.updK fun k => readReplies k srcs)) :
    Waits s (issue len d srcs body s) := by
  rw [issue_settled h, hb]
  obtain ⟨kept, ek⟩ := issued_kept s srcs
  show Waits s (finish len d (.wait ((s.updK fun k => readReplies k srcs).updK fun k => { k with region := s.k.region })))
  generalize (s.updK fun k => readReplies k srcs) = u at kept ek
  have ek' : (u.updK fun k => { k with region := s.k.region }).k = { readReplies s.k srcs with region := s.k.region } := by
    rw [State.updK_eq, State.k_setCtx_cur, ek]
  refine finish_waits ?_ ?_ (fun r _ => ?_) ?_
  · rw [State.updK_eq]; exact packageKept_trans kept (packageKept_setCtx_cur u _)
  · rw [ek']; exact contextKept_trans (contextKept_readReplies s.k srcs) rfl
  · rw [ek']; exact rd_readReplies s.k srcs r
  · rw [ek']; exact pc_readReplies s.k srcs

/-! Retiring. -/

/-- An issue whose body retires in a state: the PC goes on from what the body left of the context, and the rest stays as the body left it. -/
theorem issue_ret {len : Nat} {d : Option Reg} {srcs : List Reg} {body : State → Res} {s w : State}
    (h : Settled s (d.toList ++ srcs)) (hb : body (s.updK fun k => readReplies k srcs) = .ret w) :
    (issue len d srcs body s).k = retired w.k len ∧ PackageKept w (issue len d srcs body s) := by
  rw [issue_settled h, hb]
  obtain ⟨v, hv, kept, ek⟩ := atIssue_ret s srcs d w
  obtain ⟨fk, fp⟩ := finish_ret len d v
  rw [hv, fk, ek]
  exact ⟨rfl, packageKept_trans kept fp⟩

/-! Acquiring, writing and retiring. -/

/-- The acquire of a guard that a COMPACT resolved touches the region number alone (R129). -/
theorem observe_eq (k : Ctx) (qs : List QIx) : ∃ r, observe k qs = { k with region := r } := by
  unfold observe
  split
  · exact ⟨_, rfl⟩
  · exact ⟨k.region, rfl⟩

theorem readReplies_eq (k : Ctx) (srcs : List Reg) : ∃ r, readReplies k srcs = { k with region := r } := by
  unfold readReplies
  split
  · exact ⟨_, rfl⟩
  · exact ⟨k.region, rfl⟩

theorem contextKept_region (k : Ctx) (r : BitVec 32) : ContextKept k { k with region := r } := rfl

/-- The issuing context's region number changed, and the rest of the package kept. -/
def OnlyAcquires (s t : State) : Prop := PackageKept s t ∧ ∃ r, t.k = { s.k with region := r }

theorem onlyAcquires_updK (s : State) {f : Ctx → Ctx} (h : ∃ r, f s.k = { s.k with region := r }) : OnlyAcquires s (s.updK f) := by
  rw [State.updK_eq]
  exact ⟨packageKept_setCtx_cur s _, by rw [State.k_setCtx_cur]; exact h⟩

theorem OnlyAcquires.trans {s t u : State} (h : OnlyAcquires s t) (g : OnlyAcquires t u) : OnlyAcquires s u := by
  obtain ⟨hp, _, hk⟩ := h
  obtain ⟨gp, r, gk⟩ := g
  exact ⟨packageKept_trans hp gp, r, by rw [gk, hk]⟩

/-- An issue that acquires, writes one register and retires. -/
theorem issue_acquires_writes {len : Nat} {d : Reg} {srcs : List Reg} {body : State → Res} {s w : State} {v : Word}
    (h : Settled s (d :: srcs)) (ha : OnlyAcquires s w) (hb : body (s.updK fun k => readReplies k srcs) = .ret (w.wrK d v)) :
    Writes len d v s (issue len (some d) srcs body s) := by
  obtain ⟨fk, fp⟩ := issue_ret (len := len) (d := some d) h hb
  obtain ⟨hp, r, hk⟩ := ha
  rw [State.wrK_eq] at fk fp
  rw [State.k_setCtx_cur, hk] at fk
  refine ⟨?_, fun q hq => ?_, ?_, ?_, packageKept_trans (packageKept_trans hp (packageKept_setCtx_cur w _)) fp⟩
  · rw [fk, rd_retired, rd_wr_same]; rfl
  · rw [fk, rd_retired, rd_wr_other _ _ (by simpa using hq)]; rfl
  · rw [fk]; exact contextKept_trans (contextKept_trans (contextKept_region s.k r) (contextKept_wr _ d v)) (contextKept_retired _ len)
  · rw [fk, pc_retired, nextPc_wr]; rfl

/-- An issue that acquires and retires. -/
theorem issue_acquires_retires {len : Nat} {d : Option Reg} {srcs : List Reg} {body : State → Res} {s w : State}
    (h : Settled s (d.toList ++ srcs)) (ha : OnlyAcquires s w) (hb : body (s.updK fun k => readReplies k srcs) = .ret w) :
    OnlyRetires len s (issue len d srcs body s) := by
  obtain ⟨fk, fp⟩ := issue_ret (len := len) h hb
  obtain ⟨hp, r, hk⟩ := ha
  rw [hk] at fk
  refine ⟨fun q _ => ?_, ?_, ?_, packageKept_trans hp fp⟩
  · rw [fk, rd_retired]; rfl
  · rw [fk]; exact contextKept_trans (contextKept_region s.k r) (contextKept_retired _ len)
  · rw [fk, pc_retired]; rfl

end Sys2Proof.Machine
end

section
/-!
PROOFS. The guard functions (R127-R130): what a write of a guard can change, and the rows' results.
-/
namespace Sys2Proof.Machine
open Sys2Proof

/-! A guard written, and taken by the commands that wait on it (R128). -/

theorem sameParts_wakeEngines (s : State) (c : Nat) : SameParts s (wakeEngines s c) :=
  (((sameParts_pushOnce s _).trans (sameParts_pushOnce _ _)).trans (sameParts_pushOnce _ _)).trans (sameParts_pushOnce _ _)

/-- A core whose contexts and bytes stay. -/
theorem elsewhere_setCore (s : State) (c : Nat) (k : Core) (hc : k.ctxs = (s.core c).ctxs) (hm : k.mem = (s.core c).mem) :
    KeptElsewhere s (s.setCore c k) ∧ (s.setCore c k).k = s.k := by
  have ctx : ∀ d x, (s.setCore c k).ctx d x = s.ctx d x := fun d x => by
    rw [State.ctx_setCore]
    split
    · subst d; rw [hc]; rfl
    · rfl
  refine ⟨⟨rfl, fun d x _ => ctx d x, fun _ => rfl, fun _ => rfl, fun d a => ?_⟩, ctx _ _⟩
  rw [State.core_setCore]
  split
  · subst d; rw [hm]
  · rfl

/-- A die whose sectors stay. -/
theorem elsewhere_updDie (s : State) (d : Nat) (f : Die → Die) (hf : (f (s.die d)).sectors = (s.die d).sectors) :
    KeptElsewhere s (s.updDie d f) ∧ (s.updDie d f).k = s.k := by
  rw [State.updDie_eq]
  refine ⟨⟨rfl, fun _ _ _ => rfl, fun _ => rfl, fun e => ?_, fun _ _ => rfl⟩, rfl⟩
  rw [State.die_setDie]
  split
  · subst e; exact hf
  · rfl

/-- The issuing context by its number, changed in its kept commands: they alone can change of it. -/
theorem elsewhere_updCtxN_kept (s : State) (f : List Op → List Op) :
    KeptElsewhere s (updCtxN s s.cur.1 s.cur.2 fun k => { k with kept := f k.kept })
      ∧ ∃ l, (updCtxN s s.cur.1 s.cur.2 fun k => { k with kept := f k.kept }).k = { s.k with kept := l } := by
  unfold updCtxN
  split
  · exact ⟨keptElsewhere_refl s, s.k.kept, rfl⟩
  · split
    · exact ⟨(packageKept_setCtx_cur s _).elsewhere, _, State.k_setCtx_cur s _⟩
    · refine (elsewhere_updDie s _ _ ?_).imp id fun e => ⟨s.k.kept, e⟩
      split <;> rfl

/-- Taking a guard changes of the issuing context its kept commands alone, and no byte and no other context. -/
theorem elsewhere_takeGuards (s : State) (q : QIx) (v : Bool) :
    KeptElsewhere s (takeGuards s s.cur.1 s.cur.2 q v) ∧ ∃ l, (takeGuards s s.cur.1 s.cur.2 q v).k = { s.k with kept := l } := by
  obtain ⟨he, l, ek⟩ := elsewhere_updCtxN_kept s fun ops => ops.map (onGuarded (takeGuard q v))
  unfold takeGuards
  dsimp only
  generalize (updCtxN s s.cur.1 s.cur.2 fun k => { k with kept := k.kept.map (onGuarded (takeGuard q v)) }) = u at he ek ⊢
  split
  · obtain ⟨ce, ck⟩ := elsewhere_setCore u s.cur.1
      { u.core s.cur.1 with ops := (u.core s.cur.1).ops.map fun o => if o.ctx = s.cur.2 then onGuarded (takeGuard q v) o else o } rfl rfl
    have wake := sameParts_wakeEngines (u.setCore s.cur.1
      { u.core s.cur.1 with ops := (u.core s.cur.1).ops.map fun o => if o.ctx = s.cur.2 then onGuarded (takeGuard q v) o else o }) s.cur.1
    exact ⟨(he.trans ce).trans wake.elsewhere, l, (wake.k.trans ck).trans ek⟩
  · exact ⟨he, l, ek⟩

/-- A write of a guard changes of the issuing context the guard and its kept commands, and no byte and no other context. -/
theorem elsewhere_setG (s : State) (q : QIx) (v : Option Bool) :
    KeptElsewhere s (s.setG q v) ∧ ∃ l, (s.setG q v).k = { setGuard s.k q v with kept := l } := by
  have he : KeptElsewhere s (s.updK fun k => setGuard k q v) := by
    rw [State.updK_eq]; exact (packageKept_setCtx_cur s _).elsewhere
  have ek : (s.updK fun k => setGuard k q v).k = setGuard s.k q v := by rw [State.updK_eq, State.k_setCtx_cur]
  have unchanged : ∃ l, (s.updK fun k => setGuard k q v).k = { setGuard s.k q v with kept := l } := ⟨_, ek⟩
  unfold State.setG
  cases v with
  | none => exact ⟨he, unchanged⟩
  | some b =>
    dsimp only
    split
    · exact ⟨he, unchanged⟩
    · obtain ⟨te, l, tk⟩ := elsewhere_takeGuards (s.updK fun k => setGuard k q (some b)) q b
      exact ⟨he.trans te, l, by rw [tk, ek]⟩

/-! An instruction whose one result is a guard. -/

theorem opsOf_readReplies (s : State) (srcs : List Reg) :
    opsOf (s.updK fun k => readReplies k srcs) s.cur.1 s.cur.2 = opsOf s s.cur.1 s.cur.2 := by
  have kept : (readReplies s.k srcs).kept = s.k.kept := by unfold readReplies; split <;> rfl
  simp only [opsOf, State.updK_eq, State.core_setCtx_same, State.ctx_setCtx_same, kept]
  rfl

/-- `guardWrite` stalls while a COMPACT will resolve the guard (R100). -/
theorem guardWrite_of_due {s : State} {g : QIx} (v : Option Bool) (h : resolves (opsOf s s.cur.1 s.cur.2) g = true) :
    guardWrite g v s = .wait s := by rw [guardWrite, if_pos h]

theorem guardWrite_of_not_due {s : State} {g : QIx} (v : Option Bool) (h : resolves (opsOf s s.cur.1 s.cur.2) g = false) :
    guardWrite g v s = .ret (s.setG g v) := by rw [guardWrite, h]; rfl

/-- What a guard instruction leaves of its context: the guard and its COMPACT mark, the kept commands and the region number aside, all. -/
abbrev GuardCtx (k : Ctx) (g : QIx) (v : Option Bool) (a : Ctx) : Prop :=
  guardOf a g = (if g = 0 then some true else v) ∧ (∀ q, q ≠ g → guardOf a q = guardOf k q)
    ∧ { a with guards := k.guards, compacted := k.compacted, kept := k.kept, region := k.region } = k

theorem guardCtx_setGuard (k : Ctx) (srcs : List Reg) (g : QIx) (v : Option Bool) (l : List Op) (r : BitVec 32) :
    GuardCtx k g v { setGuard (readReplies k srcs) g v with kept := l, region := r } := by
  have guards : ∀ q, guardOf (setGuard (readReplies k srcs) g v) q = if q = g ∧ ¬ g = 0#3 then v else guardOf k q := fun q => by
    rw [guardOf_setGuard, guardOf_of_contextKept (contextKept_readReplies k srcs)]
  refine ⟨?_, fun q hq => ?_, ?_⟩
  · refine (guards g).trans ?_
    by_cases hg : g = 0
    · simp [hg, guardOf]
    · rw [if_neg hg, if_pos ⟨rfl, hg⟩]
  · exact (guards q).trans (if_neg fun e => hq e.1)
  · unfold setGuard readReplies
    split <;> split <;> rfl

/-- An instruction whose body retires with such a context has its one result in the guard. -/
theorem issue_writesGuard {len : Nat} {srcs : List Reg} {body : State → Res} {s w : State} {g : QIx} {v : Option Bool}
    (h : Settled s srcs) (hb : body (s.updK fun k => readReplies k srcs) = .ret w)
    (he : KeptElsewhere (s.updK fun k => readReplies k srcs) w) (hk : GuardCtx s.k g v w.k) :
    Claims.WritesGuard len g v s (issue len none srcs body s) := by
  obtain ⟨fk, fp⟩ := issue_ret (len := len) (d := none) h hb
  obtain ⟨-, others, bytes⟩ := ((issued_kept s srcs).1.elsewhere.trans he).trans fp.elsewhere
  obtain ⟨written, kept, rest⟩ := hk
  have ck := contextKept_retired w.k len
  have regs : ∀ r, rd w.k r = rd s.k r := fun r => by have e := congrArg (rd · r) rest; exact e
  have spec : specials w.k = specials s.k := by have e := congrArg specials rest; exact e
  have next : nextPc w.k len = nextPc s.k len := by have e := congrArg (nextPc · len) rest; exact e
  rw [Claims.WritesGuard, GuardsKept, RegsKept, fk]
  refine ⟨?_, fun q hq => ?_, fun r _ => ?_, ?_, ?_, others, bytes⟩
  · rw [guardOf_of_contextKept ck, written]
  · rw [guardOf_of_contextKept ck, kept q (by simpa using hq)]
  · rw [rd_retired, regs]
  · rw [specials_of_contextKept ck, spec]
  · rw [pc_retired, next]

/-- A body that writes a guard: it takes the value, unless a COMPACT will resolve it (R100, R130). -/
theorem issue_guardWrite {len : Nat} {srcs : List Reg} {body : State → Res} {s : State} {g : QIx} {v : Option Bool}
    (h : Settled s srcs)
    (hb : body (s.updK fun k => readReplies k srcs) = guardWrite g v (s.updK fun k => readReplies k srcs)) :
    (resolves (opsOf s s.cur.1 s.cur.2) g = false → Claims.WritesGuard len g v s (issue len none srcs body s))
      ∧ (resolves (opsOf s s.cur.1 s.cur.2) g = true → Waits s (issue len none srcs body s)) := by
  rw [← opsOf_readReplies s srcs]
  refine ⟨fun due => ?_, fun due => ?_⟩
  · rw [guardWrite_of_not_due v due] at hb
    obtain ⟨he, l, ek⟩ := elsewhere_setG (s.updK fun k => readReplies k srcs) g v
    rw [(issued_kept s srcs).2] at ek
    exact issue_writesGuard h hb he (by rw [ek]; exact guardCtx_setGuard s.k srcs g v l _)
  · exact issue_waits h (hb.trans (guardWrite_of_due v due))

theorem settled_nil (s : State) : Settled s [] := fun _ hr => absurd hr List.not_mem_nil

/-- A GRD function of guards that is decided writes its value (R129, R130). -/
theorem guardFn_decided {f : Option Bool → Option Bool → Option Bool} {x y g : QIx} {s : State} {b : Bool}
    (due : resolves (opsOf s s.cur.1 s.cur.2) g = false) (hf : f (guardOf s.k x) (guardOf s.k y) = some b) :
    Claims.WritesGuard 4 g (some b) s (guardFn f x y g s) := by
  rw [← opsOf_readReplies s []] at due
  obtain ⟨he, l, ek⟩ := elsewhere_setG (s.updK fun k => readReplies k []) g (some b)
  have hw := guardWrite_of_not_due (s := s.updK fun k => readReplies k []) (some b) due
  have hk := (issued_kept s []).2
  refine issue_writesGuard (srcs := []) (w := if observed (s.updK fun k => readReplies k []).k [x, y]
    then ((s.updK fun k => readReplies k []).setG g (some b)).updK region else (s.updK fun k => readReplies k []).setG g (some b))
    (settled_nil s) ?_ ?_ ?_
  · have hx : guardOf (s.updK fun k => readReplies k []).k x = guardOf s.k x := by rw [hk]; rfl
    have hy : guardOf (s.updK fun k => readReplies k []).k y = guardOf s.k y := by rw [hk]; rfl
    simp only [hx, hy, hf, hw]
  · split
    · rw [State.updK_eq ((s.updK fun k => readReplies k []).setG g (some b))]
      exact he.trans (packageKept_setCtx_cur _ _).elsewhere
    · exact he
  · rw [hk] at ek
    split
    · rw [State.updK_eq ((s.updK fun k => readReplies k []).setG g (some b)), State.k_setCtx_cur, ek]
      exact guardCtx_setGuard s.k [] g (some b) l _
    · rw [ek]
      exact guardCtx_setGuard s.k [] g (some b) l _

/-- A GRD function of guards that is not decided waits (R130). -/
theorem guardFn_undecided {f : Option Bool → Option Bool → Option Bool} {x y g : QIx} {s : State}
    (hf : f (guardOf s.k x) (guardOf s.k y) = none) : Waits s (guardFn f x y g s) := by
  have hk := (issued_kept s []).2
  refine issue_waits (d := none) (settled_nil s) ?_
  have hx : guardOf (s.updK fun k => readReplies k []).k x = guardOf s.k x := by rw [hk]; rfl
  have hy : guardOf (s.updK fun k => readReplies k []).k y = guardOf s.k y := by rw [hk]; rfl
  simp only [hx, hy, hf]

end Sys2Proof.Machine

namespace Sys2Proof.Proofs
open Sys2Proof Sys2Proof.Machine Sys2Proof.Claims

/-! The comparisons as rows (R130). -/

/-- A row that is issued with the registers it names and writes into a guard a bool of their values. -/
def ComparesInto (i : Instr) (rs : List Reg) (g : QIx) (len : Nat) (f : Ctx → Bool) : Prop :=
  (∀ s, exec i s = .next (issue len none rs (fun u => guardWrite g (some (f u.k)) u) s)) ∧ ∀ k, f (readReplies k rs) = f k

theorem comparesInto_cmpOp {i : Instr} {f : Word → Word → Bool} {b a : Reg} {g : QIx} {c : Ctx → Bool}
    (he : ∀ s, exec i s = took (cmpOp f b a g s)) (hf : ∀ k, f (rd k a) (rd k b) = c k) : ComparesInto i [b, a] g 4 c := by
  refine ⟨fun s => ?_, fun k => by rw [← hf, ← hf, rd_readReplies, rd_readReplies]⟩
  rw [he, cmpOp]
  simp only [hf]
  rfl

/-- What a comparison with an immediate finds (R130). -/
def cmpHolds (c : CmpI) (v i : Word) : Bool :=
  match c with
  | .eq => v == i
  | .ne => v != i
  | .lt => v.slt i
  | .ge => !v.slt i

theorem comparesInto_cmpImm {i : Instr} {len : Nat} {v : Word} {a : Reg} {c : CmpI} {g : QIx} {f : Ctx → Bool}
    (he : ∀ s, exec i s = took (cmpImm len v a c g s)) (hf : ∀ k, cmpHolds c (rd k a) v = f k) : ComparesInto i [a] g len f := by
  refine ⟨fun s => ?_, fun k => by rw [← hf, ← hf, rd_readReplies]⟩
  rw [he, cmpImm]
  simp only [← hf]
  cases c <;> rfl

theorem bne_eq_decide_ne (x y : Word) : (x != y) = decide (x ≠ y) := (decide_not (p := x = y)).symm

theorem not_slt_eq_decide (x y : Word) : (!x.slt y) = decide (x.toInt ≥ y.toInt) := by simp [BitVec.slt, ← decide_not]

theorem not_ult_eq_decide (x y : Word) : (!x.ult y) = decide (x.toNat ≥ y.toNat) := by simp [BitVec.ult, ← decide_not]

/-- The 14-bit immediate as a word stands for the same integer. -/
theorem toInt_imm14 (i : BitVec 14) : (imm14 i).toInt = i.toInt := BitVec.toInt_signExtend_of_le (by decide)

theorem eq_imm14_iff (v : Word) (i : BitVec 14) : v = imm14 i ↔ v.toInt = i.toInt := by
  rw [← toInt_imm14 i, BitVec.toInt_inj]

/-- Every comparison, and GSET, is such a row. -/
theorem comparesInto_of_compareForm {i : Instr} {rs : List Reg} {g : QIx} {len : Nat} {f : Ctx → Bool}
    (h : compareForm i = some (rs, g, len, f)) : ComparesInto i rs g len f := by
  unfold compareForm at h
  split at h <;> cases h
  case h_1 => exact comparesInto_cmpOp (fun _ => rfl) fun _ => rfl -- CMPG.eq
  case h_2 => exact comparesInto_cmpOp (fun _ => rfl) fun _ => bne_eq_decide_ne _ _ -- CMPG.ne
  case h_3 => exact comparesInto_cmpOp (fun _ => rfl) fun _ => rfl -- CMPG.lt
  case h_4 => exact comparesInto_cmpOp (fun _ => rfl) fun _ => not_slt_eq_decide _ _ -- CMPG.ge
  case h_5 => exact comparesInto_cmpOp (fun _ => rfl) fun _ => rfl -- CMPG.ltn
  case h_6 => exact comparesInto_cmpOp (fun _ => rfl) fun _ => not_ult_eq_decide _ _ -- CMPG.gen
  case h_7 => exact comparesInto_cmpImm (fun _ => rfl) fun _ => decide_eq_decide.2 (eq_imm14_iff ..) -- CMPGI.eq
  case h_8 => exact comparesInto_cmpImm (fun _ => rfl) fun _ => (bne_eq_decide_ne ..).trans (decide_eq_decide.2 (not_congr (eq_imm14_iff ..))) -- CMPGI.ne
  case h_9 => exact comparesInto_cmpImm (fun _ => rfl) fun _ => by rw [← toInt_imm14]; rfl -- CMPGI.lt
  case h_10 => exact comparesInto_cmpImm (fun _ => rfl) fun _ => by rw [← toInt_imm14]; exact not_slt_eq_decide .. -- CMPGI.ge
  case h_11 => exact comparesInto_cmpImm (fun _ => rfl) fun _ => rfl -- CMPGI.eq with a literal
  case h_12 => exact comparesInto_cmpImm (fun _ => rfl) fun _ => bne_eq_decide_ne _ _ -- CMPGI.ne with a literal
  case h_13 => exact comparesInto_cmpImm (fun _ => rfl) fun _ => rfl -- CMPGI.lt with a literal
  case h_14 => exact comparesInto_cmpImm (fun _ => rfl) fun _ => not_slt_eq_decide _ _ -- CMPGI.ge with a literal
  case h_15 => exact ⟨fun _ => rfl, fun _ => rfl⟩ -- GSET

theorem comparisonsWriteTheirGuard : ComparisonsWriteTheirGuard := fun i rs g len f s hform hs => by
  obtain ⟨he, hf⟩ := comparesInto_of_compareForm hform
  obtain ⟨writes, waits⟩ := issue_guardWrite (len := len) (body := fun u => guardWrite g (some (f u.k)) u) (v := some (f s.k)) hs
    (by rw [(issued_kept s rs).2, hf])
  exact ⟨fun due => ⟨_, he s, writes due⟩, fun due => ⟨_, he s, waits due⟩⟩

/-- A GRD function of guards takes its value once that is decided, and waits before. -/
theorem runs_guardFn {i : Instr} {f : Option Bool → Option Bool → Option Bool} {x y g : QIx} {s : State} {r : Option (Option Bool)}
    (he : exec i s = took (guardFn f x y g s)) (due : resolves (opsOf s s.cur.1 s.cur.2) g = false)
    (hr : (f (guardOf s.k x) (guardOf s.k y)).map some = r) :
    (∀ v, r = some v → Runs i s (WritesGuard 4 g v s)) ∧ (r = none → Runs i s (Waits s)) := by
  subst hr
  cases hf : f (guardOf s.k x) (guardOf s.k y) with
  | none => exact ⟨fun _ h => (nomatch h), fun _ => ⟨_, he, guardFn_undecided hf⟩⟩
  | some b =>
    refine ⟨fun v hv => ⟨_, he, ?_⟩, fun h => nomatch h⟩
    obtain rfl := Option.some.inj hv
    exact guardFn_decided due hf

/-- GAND is false as soon as either guard is false (R130). -/
theorem gAnd_eq (x y : Option Bool) : (gAnd x y).map some = if y = some false ∨ x = some false then some (some false)
    else if y = some true ∧ x = some true then some (some true) else none := by
  rcases x with _ | _ | _ <;> rcases y with _ | _ | _ <;> rfl

/-- GOR is true as soon as either guard is true (R130). -/
theorem gOr_eq (x y : Option Bool) : (gOr x y).map some = if y = some true ∨ x = some true then some (some true)
    else if y = some false ∧ x = some false then some (some false) else none := by
  rcases x with _ | _ | _ <;> rcases y with _ | _ | _ <;> rfl

theorem guardFunctionsResolve : GuardFunctionsResolve := fun i g f s hform due => by
  unfold guardForm at hform
  split at hform <;> cases hform
  case h_1 =>
    refine ⟨fun v hv => ⟨_, rfl, ?_⟩, fun h => nomatch h⟩
    obtain rfl := Option.some.inj hv
    exact (issue_guardWrite (settled_nil s) rfl).1 due
  case h_2 => exact runs_guardFn rfl due rfl
  case h_3 => exact runs_guardFn rfl due (Option.map_map ..)
  case h_4 => exact runs_guardFn rfl due (gAnd_eq ..)
  case h_5 => exact runs_guardFn rfl due (gOr_eq ..)

end Sys2Proof.Proofs
end

section
/-!
PROOFS. The values of the integer functions (R131, R132).
-/
namespace Sys2Proof.Proofs
open Sys2Proof Sys2Proof.Machine Sys2Proof.Claims

variable {n : Nat}

theorem boolBits_eq_ite (b : Bool) : (boolBits b : BitVec n) = if b then 1 else 0 := by cases b <;> rfl

/-- A number below 2^n on `n` bits. -/
theorem toNat_ofNat_of_lt {v : Nat} (h : v < 2 ^ n) : (BitVec.ofNat n v).toNat = v := by
  rw [BitVec.toNat_ofNat, Nat.mod_eq_of_lt h]

theorem toNat_ofNat_of_le {v : Nat} (h : v ≤ n) : (BitVec.ofNat n v).toNat = v := 
  toNat_ofNat_of_lt (Nat.lt_of_le_of_lt h Nat.lt_two_pow_self)

theorem add_eq_ofInt (x y : BitVec n) : x + y = BitVec.ofInt n (x.toInt + y.toInt) := by
  rw [BitVec.ofInt_add, BitVec.ofInt_toInt, BitVec.ofInt_toInt]

theorem sub_eq_ofInt (x y : BitVec n) : x - y = BitVec.ofInt n (x.toInt - y.toInt) := by
  rw [Int.sub_eq_add_neg, BitVec.ofInt_add, BitVec.ofInt_neg, BitVec.ofInt_toInt, BitVec.ofInt_toInt, BitVec.sub_eq_add_neg]

theorem mul_eq_ofInt (x y : BitVec n) : x * y = BitVec.ofInt n (x.toInt * y.toInt) := by
  rw [BitVec.ofInt_mul, BitVec.ofInt_toInt, BitVec.ofInt_toInt]

theorem getLsbD_andn (x y : BitVec n) {j : Nat} (hj : j < n) : (x &&& ~~~y).getLsbD j = (x.getLsbD j && !y.getLsbD j) := by
  simp [hj]

theorem toNat_shl (x : BitVec n) (k : Nat) : (x <<< k).toNat = x.toNat * 2 ^ k % 2 ^ n := by
  rw [BitVec.toNat_shiftLeft, Nat.shiftLeft_eq]

theorem toNat_shr (x : BitVec n) (k : Nat) : (x >>> k).toNat = x.toNat / 2 ^ k := by
  rw [BitVec.toNat_ushiftRight, Nat.shiftRight_eq_div_pow]

theorem toInt_sar (x : BitVec n) (k : Nat) : (x.sshiftRight k).toInt = x.toInt / 2 ^ k := by
  rw [BitVec.toInt_sshiftRight, Int.shiftRight_eq_div_pow]
  norm_cast

/-- Bit `j` of the operand of a rotation stands `k` places higher in the result, modulo `n`. -/
theorem getLsbD_rol (x : BitVec n) {k j : Nat} (hk : k < n) (hj : j < n) : (x.rotateLeft k).getLsbD ((j + k) % n) = x.getLsbD j := by
  rw [BitVec.getLsbD_rotateLeft, Nat.mod_eq_of_lt hk]
  by_cases h : j + k < n
  · have high : ¬ j + k < k := by omega
    rw [Nat.mod_eq_of_lt h, decide_eq_false high, decide_eq_true h, Nat.add_sub_cancel]
    rfl
  · have wrapped : (j + k) % n = j + k - n := by rw [Nat.mod_eq_sub_mod (by omega), Nat.mod_eq_of_lt (by omega)]
    have low : j + k - n < k := by omega
    rw [wrapped, decide_eq_true low, show n - k + (j + k - n) = j by omega]
    rfl

theorem slt_eq_ite (x y : BitVec n) : (boolBits (x.slt y) : BitVec n) = if x.toInt < y.toInt then 1 else 0 := by
  rw [boolBits_eq_ite]
  simp [BitVec.slt]

theorem ult_eq_ite (x y : BitVec n) : (boolBits (x.ult y) : BitVec n) = if x.toNat < y.toNat then 1 else 0 := by
  rw [boolBits_eq_ite]
  simp [BitVec.ult]

/-- The function of a choice by a comparison, on the numbers that the operands stand for. -/
theorem toInt_min (x y : BitVec n) : (if y.slt x then y else x).toInt = Min.min x.toInt y.toInt := by
  simp only [BitVec.slt, decide_eq_true_eq]
  split <;> omega

theorem toInt_max (x y : BitVec n) : (if x.slt y then y else x).toInt = Max.max x.toInt y.toInt := by
  simp only [BitVec.slt, decide_eq_true_eq]
  split <;> omega

theorem toNat_min (x y : BitVec n) : (if y.ult x then y else x).toNat = Min.min x.toNat y.toNat := by
  simp only [BitVec.ult, decide_eq_true_eq]
  split <;> omega

theorem toNat_max (x y : BitVec n) : (if x.ult y then y else x).toNat = Max.max x.toNat y.toNat := by
  simp only [BitVec.ult, decide_eq_true_eq]
  split <;> omega

/-- A product of two signed numbers of `m + 1` bits is at most 2^m * 2^m, which is a quarter of 2^(m+1) * 2^(m+1). -/
theorem natAbs_toInt_mul_le {m : Nat} (x y : BitVec (m + 1)) : (x.toInt * y.toInt).natAbs ≤ 2 ^ m * 2 ^ m := by
  have bound : ∀ z : BitVec (m + 1), z.toInt.natAbs ≤ 2 ^ m := fun z => by
    have lower := BitVec.le_toInt z
    have upper := BitVec.toInt_lt (x := z)
    rw [Nat.add_sub_cancel] at lower upper
    have cast : ((2 ^ m : Nat) : Int) = 2 ^ m := by norm_cast
    omega
  rw [Int.natAbs_mul]
  exact Nat.mul_le_mul (bound x) (bound y)

/-- The high half of a signed product fits `n` bits. -/
theorem toInt_mulHS (hn : 0 < n) (x y : BitVec n) : (mulHS x y).toInt = x.toInt * y.toInt / 2 ^ n := by
  obtain ⟨m, rfl⟩ : ∃ m, n = m + 1 := ⟨n - 1, by omega⟩
  have product := natAbs_toInt_mul_le x y
  have pos : 0 < 2 ^ m * 2 ^ m := Nat.mul_pos (Nat.two_pow_pos m) (Nat.two_pow_pos m)
  have square : (2 : Int) ^ m * 2 ^ (m + 1) = 2 * ((2 ^ m * 2 ^ m : Nat) : Int) := by
    rw [Int.pow_succ, ← Int.mul_assoc, Int.mul_comm]
    norm_cast
  have divisor : (0 : Int) < 2 ^ (m + 1) := Int.pow_pos (by decide)
  rw [mulHS]
  refine BitVec.toInt_ofInt_eq_self hn ?_ ?_
  · rw [Nat.add_sub_cancel, Int.le_ediv_iff_mul_le divisor, Int.neg_mul, square]
    omega
  · rw [Nat.add_sub_cancel, Int.ediv_lt_iff_lt_mul divisor, square]
    omega

theorem toNat_mulHU (x y : BitVec n) : (mulHU x y).toNat = x.toNat * y.toNat / 2 ^ n := by
  refine toNat_ofNat_of_lt (Nat.div_lt_of_lt_mul ?_)
  exact Nat.mul_lt_mul'' x.isLt y.isLt

theorem divU_eq (x y : BitVec n) : if y = 0 then divU x y = BitVec.allOnes n else (divU x y).toNat = x.toNat / y.toNat := by
  split
  · exact if_pos ‹_›
  · rw [divU, if_neg ‹_›]
    exact toNat_ofNat_of_lt (Nat.lt_of_le_of_lt (Nat.div_le_self _ _) x.isLt)

theorem remU_eq (x y : BitVec n) : if y = 0 then remU x y = x else (remU x y).toNat = x.toNat % y.toNat := by
  split
  · exact if_pos ‹_›
  · rw [remU, if_neg ‹_›]
    exact toNat_ofNat_of_lt (Nat.lt_of_le_of_lt (Nat.mod_le _ _) x.isLt)

theorem remS_eq (x y : BitVec n) : if y = 0 then remS x y = x else (remS x y).toInt = x.toInt.tmod y.toInt := by
  split
  · exact if_pos ‹_›
  · rw [remS, if_neg ‹_›, ← BitVec.toInt_srem, BitVec.ofInt_toInt]

/-! Counting functions. -/

theorem upFrom_eq_range' (a m : Nat) : upFrom a m = List.range' a m := by
  induction m generalizing a with
  | zero => rfl
  | succ m ih => rw [upFrom, ih, List.range'_succ]

/-- The first place of `m` at which a bit is set, or `m`. -/
def firstOf (p : Nat → Bool) (m : Nat) : Nat := match (upFrom 0 m).find? p with | some i => i | none => m

theorem firstOf_spec (p : Nat → Bool) (m : Nat) :
    firstOf p m ≤ m ∧ (∀ j, j < firstOf p m → p j = false) ∧ (firstOf p m < m → p (firstOf p m) = true) := by
  unfold firstOf
  rw [upFrom_eq_range', ← List.range_eq_range']
  cases h : (List.range m).find? p with
  | none =>
    rw [List.find?_range_eq_none] at h
    exact ⟨Nat.le_refl m, fun j hj => by simpa using h j hj, fun hl => absurd hl (Nat.lt_irrefl m)⟩
  | some i =>
    obtain ⟨hp, hi, before⟩ := List.find?_range_eq_some.1 h
    exact ⟨Nat.le_of_lt (List.mem_range.1 hi), fun j hj => by simpa using before j hj, fun _ => hp⟩

theorem toNat_clzBits (x : BitVec n) : (clzBits x).toNat = firstOf (fromTop x) n := toNat_ofNat_of_le (firstOf_spec (fromTop x) n).1
theorem toNat_ctzBits (x : BitVec n) : (ctzBits x).toNat = firstOf x.getLsbD n := toNat_ofNat_of_le (firstOf_spec x.getLsbD n).1

/-- The set bits of a number, counted from the lowest. -/
theorem popN_eq (m v : Nat) : popN m v = ((List.range m).filter v.testBit).length := by
  induction m generalizing v with
  | zero => rfl
  | succ m ih =>
    have shifted : ((List.range m).map Nat.succ).filter v.testBit = ((List.range m).filter (v / 2).testBit).map Nat.succ := by
      rw [List.filter_map]
      congr 2
      funext j
      exact Nat.testBit_succ v j
    rw [popN, ih, List.range_succ_eq_map, List.filter_cons, shifted, Nat.testBit_zero]
    rcases Nat.mod_two_eq_zero_or_one v with h | h
    · rw [h, decide_eq_false (by decide), if_neg Bool.false_ne_true, List.length_map, Nat.zero_add]
    · rw [h, decide_eq_true rfl, if_pos rfl, List.length_cons, List.length_map, Nat.add_comm]

theorem toNat_popBits (x : BitVec n) : (popBits x).toNat = ((List.range n).filter fun j => x.getLsbD j).length := by
  have count := popN_eq n x.toNat
  rw [popBits, toNat_ofNat_of_le, count]
  · rfl
  · rw [count]
    exact Nat.le_trans (List.length_filter_le _ _) (Nat.le_of_eq List.length_range)

/-! Bytes in the other order. -/

/-- Bit `8 * i + j` of a little-endian number is bit `j` of its byte `i`. -/
theorem testBit_leNat (bs : List Byte) {i j : Nat} (hj : j < 8) : (leNat bs).testBit (8 * i + j) = (bs.getD i 0).getLsbD j := by
  induction bs generalizing i with
  | nil => simp [leNat]
  | cons b r ih =>
    have low : b.toNat < 2 ^ 8 := b.isLt
    rw [leNat, show b.toNat + 256 * leNat r = 2 ^ 8 * leNat r + b.toNat by omega, Nat.testBit_two_pow_mul_add _ low]
    cases i with
    | zero => simp [hj, BitVec.testBit_toNat]
    | succ i =>
      have far : ¬ 8 * (i + 1) + j < 8 := by omega
      rw [if_neg far, show 8 * (i + 1) + j - 8 = 8 * i + j by omega, ih]
      rfl

theorem getD_natLE {m v i : Nat} (hi : i < m) : (natLE m v).getD i 0 = BitVec.ofNat 8 (v / 256 ^ i) := by
  induction m generalizing v i with
  | zero => omega
  | succ m ih =>
    cases i with
    | zero => simp [natLE]
    | succ i =>
      rw [natLE, List.getD_cons_succ, ih (by omega), Nat.div_div_eq_div_mul, Nat.pow_succ, Nat.mul_comm]

/-- Bit `j` of the reversed bytes. -/
theorem getLsbD_bswapBits (h8 : 8 ∣ n) (x : BitVec n) {j : Nat} (hj : j < n) :
    (bswapBits x).getLsbD j = x.getLsbD (8 * (n / 8 - 1 - j / 8) + j % 8) := by
  have hb : j / 8 < n / 8 := by omega
  have hm : j % 8 < 8 := Nat.mod_lt _ (by decide)
  have parts : j = 8 * (j / 8) + j % 8 := by omega
  have byte : (natLE (n / 8) x.toNat).reverse.getD (j / 8) 0 = BitVec.ofNat 8 (x.toNat / 256 ^ (n / 8 - 1 - j / 8)) := by
    rw [← getD_natLE (m := n / 8) (by omega), List.getD_eq_getElem?_getD, List.getElem?_reverse (by rwa [natLE_length]), natLE_length,
      List.getD_eq_getElem?_getD]
  have bits : (leNat (natLE (n / 8) x.toNat).reverse).testBit j = x.toNat.testBit (8 * (n / 8 - 1 - j / 8) + j % 8) := by
    rw [parts, testBit_leNat _ hm, ← parts, byte, BitVec.getLsbD_ofNat, show (256 : Nat) = 2 ^ 8 from rfl, ← Nat.pow_mul,
      Nat.testBit_div_two_pow]
    simp [hm, Nat.add_comm]
  rw [bswapBits, BitVec.getLsbD_ofNat, bits]
  simp [hj, BitVec.testBit_toNat]

end Sys2Proof.Proofs
end

section
/-!
PROOFS. The integer functions write their result and nothing else (R131, R132), MOVG, and the wait for a reply that is due.
-/
namespace Sys2Proof.Proofs
open Sys2Proof Sys2Proof.Machine Sys2Proof.Claims

/-- The registers with which a row is issued are those that it names, g0 aside. -/
def Names (srcs rs : List Reg) : Prop := srcs ⊆ rs ∧ ∀ r ∈ rs, r ≠ 0#5 → r ∈ srcs

theorem names_refl (rs : List Reg) : Names rs rs := ⟨List.Subset.refl rs, fun _ hr _ => hr⟩

theorem names_zero (rs : List Reg) : Names rs (0 :: rs) :=
  ⟨List.subset_cons_self 0 rs, fun _ hr h0 => (List.mem_cons.1 hr).resolve_left h0⟩

theorem Names.settled {srcs rs : List Reg} {d : Reg} {s : State} (h : Names srcs rs) (hs : Settled s (d :: rs)) : Settled s (d :: srcs) :=
  fun r hr => hs r (List.cons_subset_cons d h.1 hr)

theorem Names.mem {srcs rs : List Reg} {d r : Reg} (h : Names srcs rs) (hr : r ∈ d :: rs) (h0 : r ≠ 0#5) : r ∈ d :: srcs := by
  rcases List.mem_cons.1 hr with rfl | hr
  · exact List.mem_cons_self
  · exact List.mem_cons_of_mem d (h.2 r hr h0)

/-! The rows of the ALU. -/

/-- A row that is issued with the registers it names, and writes into D the value of a function that R131 gives it. -/
def AluRow (i : Instr) (w : Bool) (a b d : Reg) : Prop :=
  ∃ (f : (n : Nat) → BitVec n → BitVec n → BitVec n) (srcs : List Reg),
    (∀ n, n = 32 ∨ n = 64 → ∀ x y, aluSays i n x y (f n x y)) ∧ Names srcs [b, a]
      ∧ ∀ s, exec i s = .next (issue 4 (some d) srcs (fun u => .ret (u.wrK d (alu w f (rd u.k a) (rd u.k b)))) s)

theorem aluRow_of_two {i : Instr} {w : Bool} {a b d : Reg} {f : (n : Nat) → BitVec n → BitVec n → BitVec n}
    (he : ∀ s, exec i s = took (aluOp w f b a d s)) (hf : ∀ n, n = 32 ∨ n = 64 → ∀ x y, aluSays i n x y (f n x y)) :
    AluRow i w a b d := ⟨f, [b, a], hf, names_refl _, he⟩

theorem aluRow_of_one {i : Instr} {w : Bool} {a d : Reg} {f : (n : Nat) → BitVec n → BitVec n}
    (he : ∀ s, exec i s = took (aluOp1 w f a d s)) (hf : ∀ n, n = 32 ∨ n = 64 → ∀ x y, aluSays i n x y (f n x)) :
    AluRow i w a 0 d := ⟨fun n x _ => f n x, [a], hf, names_zero _, he⟩

theorem aluRow_of_aluForm {i : Instr} {w : Bool} {a b d : Reg} (h : aluForm i = some (w, a, b, d)) : AluRow i w a b d := by
  have pos : ∀ n, n = 32 ∨ n = 64 → 0 < n := by omega
  unfold aluForm at h
  split at h <;> cases h
  case h_1 => exact aluRow_of_two (fun _ => rfl) fun _ _ => add_eq_ofInt -- ADD
  case h_2 => exact aluRow_of_two (fun _ => rfl) fun _ _ => sub_eq_ofInt -- SUB
  case h_3 => exact aluRow_of_two (fun _ => rfl) fun _ _ x y _ => BitVec.getLsbD_and -- AND
  case h_4 => exact aluRow_of_two (fun _ => rfl) fun _ _ x y _ => BitVec.getLsbD_or -- OR
  case h_5 => exact aluRow_of_two (fun _ => rfl) fun _ _ x y _ => BitVec.getLsbD_xor -- XOR
  case h_6 => exact aluRow_of_two (fun _ => rfl) fun _ _ x y _ => getLsbD_andn x y -- ANDN
  case h_7 => exact aluRow_of_two (fun _ => rfl) fun _ _ x y => toNat_shl x (shAmt y) -- SHL
  case h_8 => exact aluRow_of_two (fun _ => rfl) fun _ _ x y => toNat_shr x (shAmt y) -- SHR
  case h_9 => exact aluRow_of_two (fun _ => rfl) fun _ _ x y => toInt_sar x (shAmt y) -- SAR
  case h_10 => exact aluRow_of_two (fun _ => rfl) fun n hn x y _ => getLsbD_rol x (Nat.mod_lt y.toNat (pos n hn)) -- ROL
  case h_11 => exact aluRow_of_two (fun _ => rfl) fun _ _ => slt_eq_ite -- SLT
  case h_12 => exact aluRow_of_two (fun _ => rfl) fun _ _ => ult_eq_ite -- SLTN
  case h_13 => exact aluRow_of_two (fun _ => rfl) fun _ _ => toInt_min -- MIN
  case h_14 => exact aluRow_of_two (fun _ => rfl) fun _ _ => toInt_max -- MAX
  case h_15 => exact aluRow_of_two (fun _ => rfl) fun _ _ => toNat_min -- MINN
  case h_16 => exact aluRow_of_two (fun _ => rfl) fun _ _ => toNat_max -- MAXN
  case h_17 => exact aluRow_of_two (fun _ => rfl) fun _ _ => mul_eq_ofInt -- MUL
  case h_18 => exact aluRow_of_two (fun _ => rfl) fun n hn => toInt_mulHS (pos n hn) -- MULH
  case h_19 => exact aluRow_of_two (fun _ => rfl) fun _ _ => toNat_mulHU -- MULHN
  case h_20 => exact aluRow_of_two (fun _ => rfl) fun _ _ _ _ => rfl -- DIV
  case h_21 => exact aluRow_of_two (fun _ => rfl) fun _ _ => divU_eq -- DIVN
  case h_22 => exact aluRow_of_two (fun _ => rfl) fun _ _ => remS_eq -- REM
  case h_23 => exact aluRow_of_two (fun _ => rfl) fun _ _ => remU_eq -- REMN
  case h_24 => exact aluRow_of_one (fun _ => rfl) fun n _ x _ => by rw [aluSays, toNat_clzBits]; exact firstOf_spec (fromTop x) n -- CLZ
  case h_25 => exact aluRow_of_one (fun _ => rfl) fun n _ x _ => by rw [aluSays, toNat_ctzBits]; exact firstOf_spec x.getLsbD n -- CTZ
  case h_26 => exact aluRow_of_one (fun _ => rfl) fun _ _ x _ => toNat_popBits x -- POPC
  case h_27 => exact aluRow_of_one (fun _ => rfl) fun n hn x _ _ => getLsbD_bswapBits (by omega) x -- BSWAP

/-- In either width the value is the one that R131 gives. -/
theorem aluResult_alu {i : Instr} {f : (n : Nat) → BitVec n → BitVec n → BitVec n}
    (hf : ∀ n, n = 32 ∨ n = 64 → ∀ x y, aluSays i n x y (f n x y)) (w : Bool) (x y : Word) : aluResult i w x y (alu w f x y) := by
  cases w
  case false => exact hf 64 (.inr rfl) x y
  case true => exact ⟨_, rfl, hf 32 (.inl rfl) _ _⟩

theorem aluFunctionsWriteTheirResult : AluFunctionsWriteTheirResult := fun i w a b d s hform hs => by
  obtain ⟨f, srcs, hf, hsrcs, he⟩ := aluRow_of_aluForm hform
  refine ⟨_, aluResult_alu hf w _ _, _, he s, issue_writes (hsrcs.settled hs) ?_⟩
  simp only [(issued_kept s srcs).2, rd_readReplies]

/-! The rows with a constant (R132, R131 for SEXT and ZEXT, R126 for WFLD). -/

/-- A row that is issued with the register it names, and writes a function of it into D, which for WFLD the work identifier's bands set. -/
def UnaryRow (i : Instr) (widl : Word) (a d : Reg) (len : Nat) (f : Word → Word) : Prop :=
  ∃ (srcs : List Reg) (body : State → Res), Names srcs [a] ∧ (∀ s, exec i s = .next (issue len (some d) srcs body s))
    ∧ ∀ u : State, u.k.widl = widl → body u = .ret (u.wrK d (f (rd u.k a)))

theorem unaryRow_of_immOp {i : Instr} {widl : Word} {a d : Reg} {len : Nat} {f g : Word → Word}
    (he : ∀ s, exec i s = took (immOp len g a d s)) (hg : ∀ v, g v = f v) : UnaryRow i widl a d len f :=
  ⟨[a], _, names_refl _, he, fun u _ => by rw [hg]⟩

/-- A sum with an immediate is the sum of the integers. -/
theorem add_imm14_eq (v : Word) (i : BitVec 14) : v + imm14 i = BitVec.ofInt 64 (v.toInt + i.toInt) := by
  rw [add_eq_ofInt, toInt_imm14]

theorem slt_imm14_eq (v : Word) (i : BitVec 14) : boolBits (v.slt (imm14 i)) = if v.toInt < i.toInt then (1 : Word) else 0 := by
  rw [slt_eq_ite, toInt_imm14]

theorem shl_eq_ofNat (v : Word) (k : Nat) : v <<< k = BitVec.ofNat 64 (v.toNat * 2 ^ k) :=
  BitVec.eq_of_toNat_eq (by rw [toNat_shl, BitVec.toNat_ofNat])

theorem shr_eq_ofNat (v : Word) (k : Nat) : v >>> k = BitVec.ofNat 64 (v.toNat / 2 ^ k) := by
  rw [← toNat_shr, BitVec.ofNat_toNat, BitVec.setWidth_eq]

theorem sar_eq_ofInt (v : Word) (k : Nat) : v.sshiftRight k = BitVec.ofInt 64 (v.toInt / 2 ^ k) := by
  rw [← toInt_sar, BitVec.ofInt_toInt]

/-- The low `m` bits kept are those under a mask of ones. -/
theorem zext_eq_and (m : Nat) (v : Word) : zext m v = v &&& BitVec.ofNat 64 (2 ^ m - 1) := by
  apply BitVec.eq_of_getLsbD_eq
  intro j hj
  rw [zext, BitVec.getLsbD_setWidth, BitVec.getLsbD_setWidth, BitVec.getLsbD_and, BitVec.getLsbD_ofNat, Nat.testBit_two_pow_sub_one]
  simp [hj, Bool.and_comm]

theorem band_eq (widl : Word) (j : Nat) : band widl j = widl.toNat / 2 ^ (6 * j) % 64 := by
  have width : 6 * j + 5 + 1 - 6 * j = 6 := by omega
  exact congrArg (fun m => widl.toNat / 2 ^ (6 * j) % 2 ^ m) width

/-- A band starts where the bands before it end (R125). -/
theorem foldl_band_eq_sum (widl : Word) (k : Nat) :
    (upFrom 0 k).foldl (fun m i => m + band widl i) 0 = ((List.range k).map fun j => widl.toNat / 2 ^ (6 * j) % 64).sum := by
  rw [upFrom_eq_range', ← List.range_eq_range', List.sum_eq_foldl, List.foldl_map]
  simp only [band_eq]

/-- The band that WFLD takes out of a value (R126). -/
theorem bandOf_eq (widl v : Word) (k : Nat) : bandOf widl v k = BitVec.ofNat 64
    (v.toNat / 2 ^ ((List.range k).map fun j => widl.toNat / 2 ^ (6 * j) % 64).sum % 2 ^ (widl.toNat / 2 ^ (6 * k) % 64)) := by
  rw [bandOf, foldl_band_eq_sum, band_eq]

theorem unaryRow_of_unaryForm {i : Instr} {widl : Word} {a d : Reg} {len : Nat} {f : Word → Word}
    (h : unaryForm widl i = some (a, d, len, f)) : UnaryRow i widl a d len f := by
  unfold unaryForm at h
  split at h <;> cases h
  case h_1 => exact unaryRow_of_immOp (fun _ => rfl) fun v => add_imm14_eq v _ -- ADDI
  case h_2 => exact unaryRow_of_immOp (fun _ => rfl) fun v => add_eq_ofInt v _ -- ADDI with a literal
  case h_3 => exact unaryRow_of_immOp (fun _ => rfl) fun _ => rfl -- ANDI
  case h_4 => exact unaryRow_of_immOp (fun _ => rfl) fun _ => rfl -- ANDI with a literal
  case h_5 => exact unaryRow_of_immOp (fun _ => rfl) fun _ => rfl -- ORI
  case h_6 => exact unaryRow_of_immOp (fun _ => rfl) fun _ => rfl -- ORI with a literal
  case h_7 => exact unaryRow_of_immOp (fun _ => rfl) fun _ => rfl -- XORI
  case h_8 => exact unaryRow_of_immOp (fun _ => rfl) fun _ => rfl -- XORI with a literal
  case h_9 => exact unaryRow_of_immOp (fun _ => rfl) fun v => slt_imm14_eq v _ -- SLTI
  case h_10 => exact unaryRow_of_immOp (fun _ => rfl) fun v => slt_eq_ite v _ -- SLTI with a literal
  case h_11 => exact unaryRow_of_immOp (fun _ => rfl) fun v => ult_eq_ite v _ -- SLTIN
  case h_12 => exact unaryRow_of_immOp (fun _ => rfl) fun v => ult_eq_ite v _ -- SLTIN with a literal
  case h_13 => exact unaryRow_of_immOp (fun _ => rfl) fun v => shl_eq_ofNat v _ -- SHLI
  case h_14 => exact unaryRow_of_immOp (fun _ => rfl) fun v => shr_eq_ofNat v _ -- SHRI
  case h_15 => exact unaryRow_of_immOp (fun _ => rfl) fun v => sar_eq_ofInt v _ -- SARI
  case h_16 => exact unaryRow_of_immOp (fun _ => rfl) fun _ => rfl -- ROLI
  case h_17 => exact unaryRow_of_immOp (fun _ => rfl) fun _ => rfl -- SEXT.b
  case h_18 => exact unaryRow_of_immOp (fun _ => rfl) fun _ => rfl -- SEXT.h
  case h_19 => exact unaryRow_of_immOp (fun _ => rfl) fun _ => rfl -- SEXT.w
  case h_20 => exact unaryRow_of_immOp (fun _ => rfl) (zext_eq_and 8) -- ZEXT.b
  case h_21 => exact unaryRow_of_immOp (fun _ => rfl) (zext_eq_and 16) -- ZEXT.h
  case h_22 => exact unaryRow_of_immOp (fun _ => rfl) (zext_eq_and 32) -- ZEXT.w
  case h_23 => exact ⟨[], _, names_zero _, fun _ => rfl, fun _ _ => rfl⟩ -- LDI
  case h_24 => exact ⟨[], _, names_zero _, fun _ => rfl, fun _ _ => rfl⟩ -- LDL
  case h_25 => exact ⟨[a], _, names_refl _, fun _ => rfl, fun u hu => by rw [hu, bandOf_eq]⟩ -- WFLD

theorem immediateFunctionsWriteTheirResult : ImmediateFunctionsWriteTheirResult := fun i a d len f s hform hs => by
  obtain ⟨srcs, body, hsrcs, he, hb⟩ := unaryRow_of_unaryForm hform
  have widl : (s.updK fun k => readReplies k srcs).k.widl = s.k.widl := by
    rw [(issued_kept s srcs).2]; unfold readReplies; split <;> rfl
  refine ⟨_, he s, issue_writes (hsrcs.settled hs) ?_⟩
  rw [hb _ widl, (issued_kept s srcs).2, rd_readReplies]

/-! MOVG (R128, R131). -/

theorem movgMovesUnderItsGuard : MovgMovesUnderItsGuard := fun n q a d s hs => by
  have hk := (issued_kept s [a]).2
  have acquired := onlyAcquires_updK s (f := fun k => readReplies k [a]) (readReplies_eq s.k [a])
  have guard : guardOf (s.updK fun k => readReplies k [a]).k q = guardOf s.k q := by
    rw [hk]; exact guardOf_of_contextKept (contextKept_readReplies s.k [a]) q
  have source : rd (s.updK fun k => readReplies k [a]).k a = rd s.k a := by rw [hk, rd_readReplies]
  refine ⟨fun g hg => ⟨_, rfl, ?_⟩, fun hg => ⟨_, rfl, issue_waits hs ?_⟩⟩
  · rw [hg] at guard
    by_cases hn : g = n
    · have stays : (g != n) = false := by simp [hn]
      rw [if_pos hn]
      refine issue_acquires_retires (d := some d) hs (acquired.trans (onlyAcquires_updK _ (f := id) ⟨_, rfl⟩)) ?_
      simp only [guard, stays]
      rfl
    · have moves : (g != n) = true := by simp [hn]
      rw [if_neg hn]
      refine issue_acquires_writes hs (acquired.trans (onlyAcquires_updK _ (f := fun k => observe k [q]) (observe_eq _ [q]))) ?_
      simp only [guard, moves, source, if_true]
  · simp only [guard, hg]

/-! The wait for a reply that is due (R84, R93, R162). -/

/-- A row that is issued with registers among which one has its reply outstanding waits. -/
theorem runs_waits_of_busy {i : Instr} {len : Nat} {d : Option Reg} {srcs : List Reg} {body : State → Res} {s : State} {r : Reg}
    (he : exec i s = .next (issue len d srcs body s)) (hr : r ∈ d.toList ++ srcs)
    (busy : busyReg (opsOf s s.cur.1 s.cur.2) r = true) : Runs i s (Waits s) := ⟨_, he, issue_busy ⟨r, hr, busy⟩⟩

/-- No reply is due for g0. -/
theorem ne_zero_of_busyReg {ops : List Op} {r : Reg} (h : busyReg ops r = true) : r ≠ 0#5 := by
  rintro rfl
  exact Bool.false_ne_true h

theorem namedRegisterWithReplyDueWaits : NamedRegisterWithReplyDueWaits := by
  rintro i rs s hform ⟨r, hr, busy⟩
  have nonzero := ne_zero_of_busyReg busy
  rcases hform with ⟨w, a, b, d, hform, rfl⟩ | ⟨a, d, len, f, hform, rfl⟩ | ⟨g, len, f, hform⟩ | ⟨o, h, c, a, rfl, rfl⟩
    | ⟨a, rfl, rfl⟩
  case inl =>
    obtain ⟨f, srcs, -, hsrcs, he⟩ := aluRow_of_aluForm hform
    exact runs_waits_of_busy (he s) (hsrcs.mem hr nonzero) busy
  case inr.inl =>
    obtain ⟨srcs, body, hsrcs, he, -⟩ := unaryRow_of_unaryForm hform
    exact runs_waits_of_busy (he s) (hsrcs.mem hr nonzero) busy
  case inr.inr.inl => exact runs_waits_of_busy (d := none) ((comparesInto_of_compareForm hform).1 s) hr busy
  case inr.inr.inr.inl => exact runs_waits_of_busy (d := none) rfl hr busy
  case inr.inr.inr.inr => exact runs_waits_of_busy (d := none) rfl hr busy

/-! The obligations. -/

/-- Settles O30: the rows of each form are issued alike, and the value of each is the one that R131 or R132 gives. -/
theorem integerFunctionsWriteTheirResult : Obligations.IntegerFunctionsWriteTheirResult :=
  ⟨aluFunctionsWriteTheirResult, immediateFunctionsWriteTheirResult, movgMovesUnderItsGuard, namedRegisterWithReplyDueWaits⟩

/-- Settles O32: a write of a guard changes beside it only the commands that waited on it. -/
theorem guardsAreComparedAndResolved : Obligations.GuardsAreComparedAndResolved :=
  ⟨comparisonsWriteTheirGuard, guardFunctionsResolve⟩

end Sys2Proof.Proofs
end

section
/-!
PROOFS. Where a distribution puts a global index (R271): BLOCK by the bounds of its parts, CYCLIC and BLOCKCYC by the digits of the index.
-/
namespace Sys2Proof.Machine
open Sys2Proof

/-! BLOCK. -/

/-- The owner in BLOCK is below P, and the index lies between the bounds of the owner's part. -/
theorem blockOwner_bounds {n p g : Nat} (hp : 0 < p) (hg : g < n) :
    ((g + 1) * p - 1) / n < p ∧ ((g + 1) * p - 1) / n * n / p ≤ g ∧ g < (((g + 1) * p - 1) / n + 1) * n / p := by
  have hn : 0 < n := by omega
  have scaled : 0 < (g + 1) * p := Nat.mul_pos (Nat.succ_pos g) hp
  have below : (g + 1) * p ≤ n * p := Nat.mul_le_mul_right p hg
  have floor : ((g + 1) * p - 1) / n * n ≤ (g + 1) * p - 1 := Nat.div_mul_le_self _ _
  have ceil : (g + 1) * p - 1 < (((g + 1) * p - 1) / n + 1) * n := Nat.lt_mul_of_div_lt (Nat.lt_succ_self _) hn
  refine ⟨?_, ?_, ?_⟩
  · rw [Nat.div_lt_iff_lt_mul hn, Nat.mul_comm p n]
    omega
  · rw [← Nat.lt_succ_iff, Nat.div_lt_iff_lt_mul hp]
    exact Nat.lt_of_le_of_lt floor (Nat.sub_one_lt (Nat.ne_of_gt scaled))
  · rw [← Nat.succ_le_iff, Nat.le_div_iff_mul_le hp]
    exact Nat.le_of_pred_lt ceil

theorem block_home {x : Dist} {g : Nat} (hk : x.kind = 0) (hp : 0 < x.p) (hg : g < x.n) :
    (ownerOf x g < x.p ∧ localOf x g < localExt x (ownerOf x g) ∧ globalOf x (ownerOf x g) (localOf x g) = g)
      ∧ ownerOf x g * x.n / x.p ≤ g ∧ g < (ownerOf x g + 1) * x.n / x.p ∧ localOf x g = g - ownerOf x g * x.n / x.p := by
  obtain ⟨owner, lower, upper⟩ := blockOwner_bounds hp hg
  have eo : ownerOf x g = ((g + 1) * x.p - 1) / x.n := if_pos hk
  rw [← eo] at owner lower upper
  have el : localOf x g = g - ownerOf x g * x.n / x.p := if_pos hk
  have ee : localExt x (ownerOf x g) = (ownerOf x g + 1) * x.n / x.p - ownerOf x g * x.n / x.p := if_pos hk
  have eg : globalOf x (ownerOf x g) (localOf x g) = ownerOf x g * x.n / x.p + localOf x g := if_pos hk
  refine ⟨⟨owner, ?_, ?_⟩, lower, upper, el⟩ <;> omega

/-! CYCLIC and BLOCKCYC: an index is its round, its owner and its place in the block. -/

/-- A global index by its three digits. -/
theorem cyclic_digits (b p g : Nat) : g = g / (b * p) * (b * p) + (g / b % p * b + g % b) ∧ g % (b * p) = g / b % p * b + g % b := by
  have digit : g % (b * p) = g / b % p * b + g % b := by rw [Nat.mod_mul, Nat.mul_comm b, Nat.add_comm]
  exact ⟨by rw [← digit, Nat.div_add_mod'], digit⟩

/-- A local index is below its owner's extent: its round is full, or the last one reaches it. -/
theorem cyclicLocal_lt_extent {n b p g : Nat} (hb : 0 < b) (hg : g < n) :
    g / (b * p) * b + g % b < n / (b * p) * b + min (n % (b * p) - g / b % p * b) b := by
  have inBlock : g % b < b := Nat.mod_lt g hb
  rcases Nat.lt_or_eq_of_le (Nat.div_le_div_right (c := b * p) (Nat.le_of_lt hg)) with full | last
  · have : (g / (b * p) + 1) * b ≤ n / (b * p) * b := Nat.mul_le_mul_right b full
    rw [Nat.succ_mul] at this
    omega
  · obtain ⟨-, digit⟩ := cyclic_digits b p g
    have rest : g % (b * p) < n % (b * p) := by
      have eg := Nat.div_add_mod g (b * p)
      have en := Nat.div_add_mod n (b * p)
      rw [last] at eg
      omega
    rw [last]
    omega

theorem cyclic_home {x : Dist} {g : Nat} (hk : x.kind ≠ 0) (hp : 0 < x.p) (hb : 0 < cycBlock x) (hg : g < x.n) :
    (ownerOf x g < x.p ∧ localOf x g < localExt x (ownerOf x g) ∧ globalOf x (ownerOf x g) (localOf x g) = g)
      ∧ ownerOf x g = g / cycBlock x % x.p ∧ localOf x g = g / (cycBlock x * x.p) * cycBlock x + g % cycBlock x := by
  have eo : ownerOf x g = g / cycBlock x % x.p := if_neg hk
  have el : localOf x g = g / (cycBlock x * x.p) * cycBlock x + g % cycBlock x := if_neg hk
  refine ⟨⟨eo ▸ Nat.mod_lt _ hp, ?_, ?_⟩, eo, el⟩
  · rw [localExt, if_neg hk, el, eo]
    exact cyclicLocal_lt_extent hb hg
  · have round : localOf x g / cycBlock x = g / (cycBlock x * x.p) := by
      rw [el, Nat.mul_comm, Nat.mul_add_div hb, Nat.div_eq_of_lt (Nat.mod_lt g hb), Nat.add_zero]
    have place : localOf x g % cycBlock x = g % cycBlock x := by
      rw [el, Nat.mul_comm, Nat.mul_add_mod, Nat.mod_mod]
    rw [globalOf, if_neg hk, round, place, eo, Nat.mul_assoc, Nat.add_assoc, ← (cyclic_digits (cycBlock x) x.p g).1]

end Sys2Proof.Machine
end

section
/-!
PROOFS. The exchange port and the hub's exchanges and messages (R273-R283): what each update of them leaves, and the end of a party's part.
-/
namespace Sys2Proof.Machine
open Sys2Proof

/-! Pending moves. -/

@[simp] theorem core_pushOnce (s : State) (e : Event) (c : Nat) : (s.pushOnce e).core c = s.core c := (sameParts_pushOnce s e).core c

@[simp] theorem exchs_pushOnce (s : State) (e : Event) : (s.pushOnce e).exchs = s.exchs := by unfold State.pushOnce; split <;> rfl
@[simp] theorem xmsgs_pushOnce (s : State) (e : Event) : (s.pushOnce e).xmsgs = s.xmsgs := by unfold State.pushOnce; split <;> rfl
@[simp] theorem awaiting_pushOnce (s : State) (e : Event) : (s.pushOnce e).awaiting = s.awaiting := by unfold State.pushOnce; split <;> rfl

theorem mem_events_pushOnce (s : State) (e : Event) : e ∈ (s.pushOnce e).events := by
  unfold State.pushOnce
  split
  · next h => simpa using h
  · exact List.mem_append_right _ List.mem_cons_self

theorem SameParts.bytes {s t : State} (h : SameParts s t) : BytesKept s t := by
  obtain ⟨-, -, bytes⟩ := h.elsewhere
  exact bytes

theorem bytesKept_pushOnce (s : State) (e : Event) : BytesKept s (s.pushOnce e) := (sameParts_pushOnce s e).bytes

/-! Bytes within a longer write. -/

theorem writeBytes_append (m : Mem) (a : Nat) (xs ys : List Byte) :
    writeBytes m a (xs ++ ys) = writeBytes (writeBytes m a xs) (a + xs.length) ys := by
  induction xs generalizing m a with
  | nil => rfl
  | cons x xs ih =>
    rw [List.cons_append, writeBytes, writeBytes, ih, List.length_cons, Nat.add_assoc, Nat.add_comm 1]

theorem readBytes_congr {m m' : Mem} {a n : Nat} (h : ∀ x, a ≤ x → x < a + n → readByte m x = readByte m' x) :
    readBytes m a n = readBytes m' a n := by
  induction n generalizing a with
  | zero => rfl
  | succ n ih => rw [readBytes, readBytes, h a (Nat.le_refl a) (by omega), ih fun x hx hn => h x (by omega) (by omega)]

/-- A part of what was written is read back. -/
theorem readBytes_writeBytes_part {m : Mem} (h : Memory.wf m = true) (a : Nat) (xs ys zs : List Byte) :
    readBytes (writeBytes m a (xs ++ ys ++ zs)) (a + xs.length) ys.length = ys := by
  have before := wf_writeBytes a xs h
  have written := wf_writeBytes (a + xs.length) ys before
  calc readBytes (writeBytes m a (xs ++ ys ++ zs)) (a + xs.length) ys.length
      = readBytes (writeBytes (writeBytes m a xs) (a + xs.length) ys) (a + xs.length) ys.length := by
        rw [writeBytes_append, writeBytes_append]
        refine readBytes_congr fun x _ hx => readByte_writeBytes_outside _ _ _ written (.inl ?_)
        rw [List.length_append]
        omega
    _ = ys := readBytes_writeBytes_same _ _ _ before

/-! Exchanges and messages of the hub. -/

theorem mem_updExch {s : State} {e : Exch} (h : e ∈ s.exchs) (f : Exch → Exch) : f e ∈ (updExch s e.id f).exchs :=
  List.mem_map.2 ⟨e, h, if_pos rfl⟩

theorem exchById_spec {s : State} {id : Nat} {e : Exch} (h : exchById s id = some e) : e ∈ s.exchs ∧ e.active = true := by
  have found := List.find?_some h
  exact ⟨List.mem_of_find?_eq_some h, (Bool.and_eq_true_iff.1 found).2⟩

theorem not_mem_dropXmsg (s : State) (id : Nat) : id ∉ (dropXmsg s id).xmsgs.map (·.id) := by
  simp [dropXmsg]

/-! The record and the result that a party's part leaves (R269, R276, R277). -/

/-- Bytes 96-127 of the record. -/
def recordTail (e : Exch) (expr result : Word) : List Byte := wordLE expr ++ natLE 8 e.rcvd ++ natLE 8 e.sent ++ wordLE result

theorem mem_writeRecord (s : State) (b : Nat) (e : Exch) (expr result : Word) :
    ((writeRecord s b e expr result).core b).mem = writeBytes (s.core b).mem (e.off + 96) (recordTail e expr result) := by
  rw [writeRecord, State.updCore_eq, State.core_setCore_same, recordTail]

/-- What a bank reads once the port has written a record there. -/
theorem readBytes_recordTail {m : Mem} (h : Memory.wf m = true) (e : Exch) (expr result : Word) :
    readBytes (writeBytes m (e.off + 96) (recordTail e expr result)) (e.off + 104) 8 = natLE 8 e.rcvd
      ∧ readBytes (writeBytes m (e.off + 96) (recordTail e expr result)) (e.off + 112) 8 = natLE 8 e.sent
      ∧ readBytes (writeBytes m (e.off + 96) (recordTail e expr result)) (e.off + 120) 8 = wordLE result := by
  refine ⟨?_, ?_, ?_⟩
  · have part := readBytes_writeBytes_part h (e.off + 96) (wordLE expr) (natLE 8 e.rcvd) (natLE 8 e.sent ++ wordLE result)
    simpa [recordTail, wordLE] using part
  · have part := readBytes_writeBytes_part h (e.off + 96) (wordLE expr ++ natLE 8 e.rcvd) (natLE 8 e.sent) (wordLE result)
    simpa [recordTail, wordLE] using part
  · have part := readBytes_writeBytes_part h (e.off + 96) (wordLE expr ++ natLE 8 e.rcvd ++ natLE 8 e.sent) (wordLE result) []
    simpa [recordTail, wordLE] using part

theorem rd_wrReply_same (k : Ctx) (d : Reg) (v : Word) : rd (wrReply k d v) d = if d = 0 then 0 else v := by
  have same : rd (wrReply k d v) d = rd (wr k d v) d := by
    unfold wrReply
    split
    · next h => rw [wr, if_pos h]
    · rfl
  rw [same, rd_wr_same]
  rfl

theorem events_wrReply (k : Ctx) (d : Reg) (v : Word) : (wrReply k d v).events = k.events := by
  unfold wrReply wr; split <;> rfl

/-! Parts of a core that an update keeps. -/

theorem core_updCore_keeps {α : Type} (part : Core → α) (s : State) (c : Nat) {f : Core → Core} (h : ∀ k, part (f k) = part k) (d : Nat) :
    part ((s.updCore c f).core d) = part (s.core d) := by
  rw [State.updCore_eq, State.core_setCore]
  split
  · subst d; exact h _
  · rfl

theorem ctx_updCore_of_ctxs (s : State) (c : Nat) {f : Core → Core} (h : ∀ k, (f k).ctxs = k.ctxs) (d x : Nat) :
    (s.updCore c f).ctx d x = s.ctx d x := congrArg (fun l : Tbl Ctx => Tbl.read l x {}) (core_updCore_keeps Core.ctxs s c h d)

theorem core_setCtx_keeps {α : Type} (part : Core → α) (s : State) (c x : Nat) (k : Ctx) (h : ∀ (q : Core) (l : Tbl Ctx), part { q with ctxs := l } = part q)
    (d : Nat) : part ((s.setCtx c x k).core d) = part (s.core d) := by
  rw [State.core_setCtx]
  split
  · subst d; exact h _ _
  · rfl

/-! An operation in the table. -/

/-- An operation of a context of the core changes that context. -/
theorem updOpCtx_of_lt (s : State) (c : Nat) {o : Op} (h : o.ctx < 16) (f : Ctx → Ctx) :
    updOpCtx s c o f = s.setCtx c o.ctx (f (s.ctx c o.ctx)) := by
  have ne : o.ctx ≠ orphan := by unfold orphan; omega
  rw [updOpCtx, updCtxN, if_neg ne, if_pos (by omega)]
  rfl

theorem id_of_opById {s : State} {c id : Nat} {o : Op} (h : opById s c id = some o) : o.id = id :=
  beq_iff_eq.1 (List.find?_some (p := fun o : Op => o.id == id) h)

theorem opById_dropOp (s : State) (c id : Nat) : opById (dropOp s c id) c id = none := by
  have ops : ((dropOp s c id).core c).ops = (s.core c).ops.filter fun o => o.id != id :=
    congrArg Core.ops (State.core_setCore_same s c { s.core c with ops := (s.core c).ops.filter fun o => o.id != id })
  rw [opById, ops, List.find?_eq_none]
  intro o ho
  simpa using (List.mem_filter.1 ho).2

theorem core_dropOp_keeps {α : Type} (part : Core → α) (s : State) (c id : Nat) (h : ∀ (k : Core) (l : List Op), part { k with ops := l } = part k)
    (d : Nat) : part ((dropOp s c id).core d) = part (s.core d) :=
  core_updCore_keeps part s c (f := fun k => { k with ops := k.ops.filter fun o => o.id != id }) (fun k => h k _) d

/-- A command none of whose writes wait for acknowledgements leaves the table. -/
theorem endOp_eq_dropOp {s : State} {c id : Nat} (h : ∀ q ∈ s.awaiting, q.op ≠ id) (v : Word) : endOp s c id v = dropOp s c id := by
  refine if_neg ?_
  rw [List.any_eq_true]
  rintro ⟨q, hq, same⟩
  exact h q hq (beq_iff_eq.1 (Bool.and_eq_true_iff.1 same).2)

/-! The end of a part, in its steps (R277, R280, R295). -/

/-- A context with the reply of its exchange, which its XWAIT at the record gives too (R284). -/
def withReply (e : Exch) (d : Reg) (result : Word) (k : Ctx) : Ctx :=
  { wrReply k d result with xwait := if k.xwait = some (e.off, none) then some (e.off, some result) else k.xwait }

theorem rd_withReply (e : Exch) (d : Reg) (result : Word) (k : Ctx) : rd (withReply e d result k) d = if d = 0 then 0 else result :=
  rd_wrReply_same k d result
theorem events_withReply (e : Exch) (d : Reg) (result : Word) (k : Ctx) : (withReply e d result k).events = k.events :=
  events_wrReply k d result

/-- A bank's core with the scope that a read of the result acquires (R278). -/
def withLast (e : Exch) (k : Core) : Core := { k with xlast := Tbl.put k.xlast e.off (if xRel e.record then xScope e.record else .core) }

/-- The record written, the reply given, the event counted. -/
def partAnswered (s : State) (e : Exch) (o : Op) (d : Reg) (expr result : Word) : State :=
  endEvent ((updOpCtx (writeRecord s o.bank e expr result) e.core o (withReply e d result)).updCore o.bank (withLast e)) e.core o

/-- The exchange out of the hub and out of its port, whose head may now start. -/
def partOffPort (s : State) (e : Exch) : State :=
  (State.updCore { s with exchs := s.exchs.filter fun q => q.id != e.id } e.core fun k =>
    { k with portQ := k.portQ.filter (· != e.op) }).pushOnce (.exchangeStart e.core)

/-- A part that neither fails nor is cancelled ends in these steps. -/
theorem endExch_eq {s : State} {e : Exch} {o : Op} {off : Nat} {d : Reg} {g : Guarded} {l : Bool} {status : Nat} (cause : Nat) (p : Stop)
    (hop : opById s e.core e.op = some o) (hbody : o.body = .exch off d g l) (hacq : status = 1 ∨ xRel e.record = false)
    (h2 : status ≠ 2) (h4 : status ≠ 4) :
    endExch s e status cause p =
      let result := exchReply status cause (if status = 1 then 0 else e.rcvd)
      endOp (partOffPort (partAnswered s e o d (if status = 1 then 0 else exprWord e) result) e) e.core o.id result := by
  have plain : ¬ ((status = 0 ∨ status = 3) ∧ xRel e.record = true ∧ xScope e.record = .sys) := by
    rintro ⟨hs, hr, -⟩
    rcases hacq with h | h
    · omega
    · rw [h] at hr; exact Bool.false_ne_true hr
  have kept : ¬ (status = 2 ∨ status = 4) := by omega
  unfold endExch
  simp only [hop, hbody, if_neg plain, if_neg kept, if_neg h2]
  rfl

theorem exchs_partAnswered (s : State) (e : Exch) {o : Op} (d : Reg) (expr result : Word) (h : o.ctx < 16) :
    (partAnswered s e o d expr result).exchs = s.exchs ∧ (partAnswered s e o d expr result).awaiting = s.awaiting := by
  unfold partAnswered endEvent
  rw [updOpCtx_of_lt _ _ h, updOpCtx_of_lt _ _ h]
  exact ⟨rfl, rfl⟩

theorem ctx_partAnswered (s : State) (e : Exch) {o : Op} (d : Reg) (expr result : Word) (h : o.ctx < 16) :
    (partAnswered s e o d expr result).ctx e.core o.ctx =
      { withReply e d result (s.ctx e.core o.ctx) with events := min 255 ((s.ctx e.core o.ctx).events + 1) } := by
  have recorded : (writeRecord s o.bank e expr result).ctx e.core o.ctx = s.ctx e.core o.ctx := ctx_updCore_of_ctxs s o.bank (fun _ => by rfl) _ _
  unfold partAnswered endEvent
  rw [updOpCtx_of_lt _ _ h, updOpCtx_of_lt _ _ h, recorded]
  refine (State.ctx_setCtx_same _ e.core o.ctx _).trans ?_
  rw [ctx_updCore_of_ctxs _ o.bank (fun _ => by rfl), State.ctx_setCtx_same, events_withReply]

theorem mem_partAnswered (s : State) (e : Exch) {o : Op} (d : Reg) (expr result : Word) (h : o.ctx < 16) :
    ((partAnswered s e o d expr result).core o.bank).mem = writeBytes (s.core o.bank).mem (e.off + 96) (recordTail e expr result) := by
  unfold partAnswered endEvent
  rw [updOpCtx_of_lt _ _ h, updOpCtx_of_lt _ _ h]
  refine (core_setCtx_keeps Core.mem _ e.core o.ctx _ (fun _ _ => by rfl) o.bank).trans ?_
  rw [core_updCore_keeps Core.mem _ o.bank (fun _ => by rfl), core_setCtx_keeps Core.mem _ _ _ _ (fun _ _ => by rfl), mem_writeRecord]

theorem partOffPort_spec (s : State) (e : Exch) :
    (partOffPort s e).exchs = s.exchs.filter (fun q => q.id != e.id) ∧ (partOffPort s e).awaiting = s.awaiting
      ∧ e.op ∉ ((partOffPort s e).core e.core).portQ ∧ (∀ x, (partOffPort s e).ctx e.core x = s.ctx e.core x)
      ∧ ∀ b, ((partOffPort s e).core b).mem = (s.core b).mem := by
  unfold partOffPort
  refine ⟨exchs_pushOnce _ _, awaiting_pushOnce _ _, ?_, fun x => ?_, fun b => ?_⟩
  · rw [core_pushOnce, State.updCore_eq, State.core_setCore_same]
    simp
  · rw [(sameParts_pushOnce _ _).ctx]
    exact ctx_updCore_of_ctxs _ e.core (fun _ => by rfl) _ _
  · rw [core_pushOnce]
    exact core_updCore_keeps Core.mem _ e.core (fun _ => by rfl) b

/-- What the end of a party's part leaves: its operation gone, its exchange out of the hub and the port, its reply in D, one event, and its
record's last 32 bytes. -/
structure PartEnded (s : State) (e : Exch) (o : Op) (d : Reg) (expr result : Word) (t : State) : Prop where
  op : opById t e.core e.op = none
  port : e.op ∉ (t.core e.core).portQ
  exchs : t.exchs = s.exchs.filter fun q => q.id != e.id
  reply : rd (t.ctx e.core o.ctx) d = if d = 0 then 0 else result
  event : (t.ctx e.core o.ctx).events = min 255 ((s.ctx e.core o.ctx).events + 1)
  record : (t.core o.bank).mem = writeBytes (s.core o.bank).mem (e.off + 96) (recordTail e expr result)

/-- A part that neither fails nor is cancelled, and acquires nothing, ends so. -/
theorem endExch_ended {s : State} {e : Exch} {o : Op} {off : Nat} {d : Reg} {g : Guarded} {l : Bool} {status : Nat} (cause : Nat) (p : Stop)
    (hop : opById s e.core e.op = some o) (hbody : o.body = .exch off d g l) (hctx : o.ctx < 16)
    (hq : ∀ q ∈ s.awaiting, q.op ≠ e.op) (hacq : status = 1 ∨ xRel e.record = false) (h2 : status ≠ 2) (h4 : status ≠ 4) :
    PartEnded s e o d (if status = 1 then 0 else exprWord e) (exchReply status cause (if status = 1 then 0 else e.rcvd))
      (endExch s e status cause p) := by
  rw [endExch_eq cause p hop hbody hacq h2 h4]
  dsimp only
  generalize exchReply status cause (if status = 1 then 0 else e.rcvd) = result
  generalize (if status = 1 then 0 else exprWord e) = expr
  obtain ⟨exchs, awaiting⟩ := exchs_partAnswered s e d expr result hctx
  have ctx := ctx_partAnswered s e d expr result hctx
  have mem := mem_partAnswered s e d expr result hctx
  obtain ⟨pexchs, pawaiting, pport, pctx, pmem⟩ := partOffPort_spec (partAnswered s e o d expr result) e
  have none : ∀ q ∈ (partOffPort (partAnswered s e o d expr result) e).awaiting, q.op ≠ e.op := by
    rw [pawaiting, awaiting]; exact hq
  rw [id_of_opById hop, endOp_eq_dropOp none]
  have tctx : ∀ x, (dropOp (partOffPort (partAnswered s e o d expr result) e) e.core e.op).ctx e.core x
      = (partAnswered s e o d expr result).ctx e.core x := fun x => by
    rw [State.ctx, core_dropOp_keeps Core.ctxs _ _ _ fun _ _ => rfl]
    exact pctx x
  exact {
    op := opById_dropOp _ e.core e.op
    port := by rw [core_dropOp_keeps Core.portQ _ _ _ fun _ _ => by rfl]; exact pport
    exchs := pexchs.trans (by rw [exchs])
    reply := by rw [tctx, ctx]; exact rd_withReply e d result _
    event := by rw [tctx, ctx]
    record := by rw [core_dropOp_keeps Core.mem _ _ _ fun _ _ => by rfl, pmem, mem] }

end Sys2Proof.Machine
end

section
/-!
PROOFS. A run written in a party's local piece (R275), with what the write of a bank leaves.
-/
namespace Sys2Proof.Machine
open Sys2Proof

/-! What a write of a bank touches beside its bytes. -/

/-- The hub's exchanges and messages stay, and the bytes and the injection register of every core. -/
def ExchKept (s t : State) : Prop :=
  t.exchs = s.exchs ∧ t.xmsgs = s.xmsgs ∧ ∀ c, (t.core c).mem = (s.core c).mem ∧ (t.core c).inj = (s.core c).inj

theorem exchKept_refl (s : State) : ExchKept s s := ⟨rfl, rfl, fun _ => ⟨rfl, rfl⟩⟩

theorem ExchKept.trans {s t u : State} (h : ExchKept s t) (g : ExchKept t u) : ExchKept s u := by
  obtain ⟨he, hx, hm⟩ := h
  obtain ⟨ge, gx, gm⟩ := g
  exact ⟨ge.trans he, gx.trans hx, fun c => ⟨(gm c).1.trans (hm c).1, (gm c).2.trans (hm c).2⟩⟩

theorem exchKept_foldl {α : Type} {f : State → α → State} (h : ∀ s x, ExchKept s (f s x)) (l : List α) (s : State) : ExchKept s (l.foldl f s) := by
  induction l generalizing s with
  | nil => exact exchKept_refl s
  | cons x l ih => exact (h s x).trans (ih (f s x))

theorem exchKept_pushOnce (s : State) (e : Event) : ExchKept s (s.pushOnce e) :=
  ⟨exchs_pushOnce s e, xmsgs_pushOnce s e, fun c => by rw [core_pushOnce]; exact ⟨rfl, rfl⟩⟩

theorem exchKept_updCore (s : State) (c : Nat) {f : Core → Core} (h : ∀ k, (f k).mem = k.mem ∧ (f k).inj = k.inj) :
    ExchKept s (s.updCore c f) :=
  ⟨rfl, rfl, fun d => ⟨core_updCore_keeps Core.mem s c (fun k => (h k).1) d, core_updCore_keeps Core.inj s c (fun k => (h k).2) d⟩⟩

theorem exchKept_coreLog (s : State) (c : Nat) (e : LogEntry) : ExchKept s (coreLog s c e) := by
  have logged : ExchKept s (s.updCore c fun k => { k with elog := logErr k.elog e }) := exchKept_updCore s c fun _ => by exact ⟨rfl, rfl⟩
  unfold coreLog
  dsimp only
  split
  · exact logged
  · refine logged.trans ?_
    unfold notify notifyRec
    exact ExchKept.trans ⟨rfl, rfl, fun _ => ⟨rfl, rfl⟩⟩ (exchKept_pushOnce _ _)

theorem exchKept_softRead (s : State) (c off n : Nat) : ExchKept s (softRead s c off n) := by
  unfold softRead
  dsimp only
  split
  · exact exchKept_refl s
  · exact (exchKept_updCore s c fun _ => by exact ⟨rfl, rfl⟩).trans (exchKept_foldl (fun u w => exchKept_coreLog u c _) _ _)

theorem exchKept_wakeJoins (s : State) (hit : Place → Bool) : ExchKept s (wakeJoins s hit) := by
  refine exchKept_foldl (fun u e => exchKept_foldl (fun v f => ?_) _ u) _ s
  split
  · split
    · exact ⟨rfl, rfl, fun c => ⟨core_setCtx_keeps Core.mem v e.1 f.1 _ (fun _ _ => by rfl) c, core_setCtx_keeps Core.inj v e.1 f.1 _ (fun _ _ => by rfl) c⟩⟩
    · exact exchKept_refl v
  · exact exchKept_refl v

/-! The write of a bank that has no sharers, no uncorrectable word and no injection (R69, R78, R387). -/

/-- Bytes written in a core's bank. -/
structure BankWritten (s : State) (c off : Nat) (bs : List Byte) (t : State) : Prop where
  exchs : t.exchs = s.exchs
  xmsgs : t.xmsgs = s.xmsgs
  mem : ∀ d, (t.core d).mem = if d = c then writeBytes (s.core d).mem off bs else (s.core d).mem

theorem BankWritten.of_kept {s t u v : State} {c off : Nat} {bs : List Byte} (h : ExchKept s t) (w : BankWritten t c off bs u) (g : ExchKept u v) :
    BankWritten s c off bs v := by
  obtain ⟨he, hx, hm⟩ := h
  obtain ⟨we, wx, wm⟩ := w
  obtain ⟨ge, gx, gm⟩ := g
  exact ⟨by rw [ge, we, he], by rw [gx, wx, hx], fun d => by rw [(gm d).1, wm, (hm d).1]⟩

theorem bankWritten_updCore (s : State) (c off : Nat) (bs : List Byte) {f : Core → Core} (h : ∀ k, (f k).mem = writeBytes k.mem off bs) :
    BankWritten s c off bs (s.updCore c f) := by
  refine ⟨rfl, rfl, fun d => ?_⟩
  rw [State.updCore_eq, State.core_setCore]
  split
  · subst d; exact h _
  · rfl

theorem dropSharers_of_none {s : State} {c : Nat} (h : (s.core c).dirl = []) (off : Nat) (via : Option (Nat × Target)) : dropSharers s c off via = s := by
  unfold dropSharers
  rw [h]
  rfl

theorem injectLocal_of_off {s : State} {c : Nat} (h : (s.core c).inj.mode ≠ 1) (off n : Nat) : injectLocal s c off n = s :=
  if_neg fun i => h i.1

/-- Such a write puts its bytes there and is not refused. -/
theorem bankWrite_plain {s : State} {c : Nat} (hbad : (s.core c).bad = []) (hdirl : (s.core c).dirl = []) (hinj : (s.core c).inj.mode ≠ 1)
    (off : Nat) (bs : List Byte) : ∃ t, bankWrite s c off bs = .ok () t ∧ BankWritten s c off bs t := by
  obtain ⟨u, hu⟩ : ∃ u, u = if off % 8 = 0 ∧ bs.length % 8 = 0 then s else softRead s c off bs.length := ⟨_, rfl⟩
  have read : ExchKept s u := by
    rw [hu]
    split
    · exact exchKept_refl s
    · exact exchKept_softRead s c off bs.length
  obtain ⟨v, hv⟩ : ∃ v, v = u.updCore c fun k =>
      { k with
        mem := writeBytes k.mem off bs, bad := k.bad.filter fun w => !(off / 8 ≤ w && w ≤ (off + bs.length - 1) / 8)
        soft := k.soft.filter fun w => !(off / 8 ≤ w.1 && w.1 ≤ (off + bs.length - 1) / 8) } := ⟨_, rfl⟩
  have written : BankWritten u c off bs v := by rw [hv]; exact bankWritten_updCore u c off bs fun _ => by rfl
  have injection : (v.core c).inj.mode ≠ 1 := by
    obtain ⟨-, -, kept⟩ := read
    rw [hv, core_updCore_keeps Core.inj u c (fun _ => by rfl), (kept c).2]
    exact hinj
  refine ⟨wakeJoins v ?hit, ?written,
    .of_kept read written (exchKept_wakeJoins v _)⟩
  case written =>
  unfold bankWrite
  simp only [hbad, hdirl, dropSharers_of_none hdirl, List.any_nil, Bool.false_eq_true, and_false, if_false, ← hu, ← hv,
    injectLocal_of_off injection]
  rfl

/-! A run as a beat (R65, R275). -/

/-- A local address in the banks names the accessing context's own bank. -/
theorem formOf_local (s : State) (c b : Nat) (user reads : Bool) {ea : Word} {lo : Nat} (h : ea.toNat = 0xC000000000000000 + lo) (hlo : lo < 0x30000) :
    formOf s c b user reads ea = .ok (.loc b lo) := by
  have f1 : field ea 63 62 = 3 := by unfold field; omega
  have f2 : field ea 61 18 = 0 := by unfold field; omega
  have f3 : field ea 17 0 = lo := by unfold field; omega
  have inBanks : ¬ lo ≥ 0x30000 := by omega
  unfold formOf
  rw [f1]
  simp only [f2, f3, bne_self_eq_false, inBanks, decide_false, Bool.and_false, Bool.or_self, Bool.false_eq_true, if_false]

theorem accessBy_local (s : State) (w : Who) (reads writes : Bool) {ea : Word} {lo : Nat} (h : ea.toNat = 0xC000000000000000 + lo) (hlo : lo < 0x30000)
    (hw : (s.core w.bank).windows = []) : accessBy s w ea reads writes = (.ok { place := .loc w.bank lo }, s) := by
  have outside : windowAt s w.bank lo = none := by rw [windowAt, hw]; rfl
  unfold accessBy
  simp only [formOf_local s w.core w.bank w.user reads h hlo, if_true, outside]

/-- The bytes of a sector are one piece, and no bytes are none. -/
theorem cutPieces_within {ea : Word} {bs : List Byte} (h : ea.toNat % 64 + bs.length ≤ 64) :
    cutPieces ea bs = if bs = [] then [] else [(ea, bs)] := by
  by_cases hn : bs = []
  · subst hn; rfl
  · have pos : bs.length ≠ 0 := fun e => hn (List.length_eq_zero_iff.1 e)
    have one : min bs.length (64 - ea.toNat % 64) = bs.length := by omega
    have pieces : piecesFrom 64 ea bs.length (bs.length / 64 + 2) = [(ea, bs.length)] := by
      simp only [piecesFrom, if_neg pos, one, Nat.sub_self, if_true]
    simp [cutPieces, cutBy, pieces, hn]

theorem bankWritten_nil (s : State) (c off : Nat) : BankWritten s c off [] s := ⟨rfl, rfl, fun d => by split <;> rfl⟩

/-- What keeps a write of a core's bank from being refused or put off: it is not behind the spoke of another die, lies in no window, and has no
uncorrectable word, no sharers and no injection. -/
structure PlainBank (s : State) (c b : Nat) : Prop where
  die : dieOf b = dieOf c
  windows : (s.core b).windows = []
  dirl : (s.core b).dirl = []
  bad : (s.core b).bad = []
  inj : (s.core b).inj.mode ≠ 1

/-- A run within one sector of a plain bank is written at once. -/
theorem writeBeat_local {s : State} {w : Who} (hp : PlainBank s w.core w.bank) {ea : Word} {lo : Nat} {bs : List Byte}
    (h : ea.toNat = 0xC000000000000000 + lo) (hs : lo % 64 + bs.length ≤ 64) (hlo : lo + bs.length ≤ 0x30000) (id : Nat) (g : Bool) :
    ∃ u t, writeBeat s w id [] g (cutPieces ea bs) = .ok u t ∧ BankWritten s w.bank lo bs t := by
  rw [cutPieces_within (by omega)]
  split
  · next hn =>
    subst hn
    exact ⟨[], s, rfl, bankWritten_nil s w.bank lo⟩
  · next hn =>
    have pos : bs.length ≠ 0 := fun e => hn (List.length_eq_zero_iff.1 e)
    obtain ⟨t, ht, written⟩ := bankWrite_plain hp.bad hp.dirl hp.inj lo bs
    have near : coreCut s w w.bank = false := by rw [coreCut, hp.die, bne_self_eq_false, Bool.false_and]
    have target : writeTarget s w id { place := .loc w.bank lo } bs g = .ok () t := by
      simp only [writeTarget, writePlace, reachWrite, near, viaOf, Option.isSome_none, Bool.false_eq_true, if_false, ht]
    refine ⟨?undo, t, ?wrote, written⟩
    case wrote =>
    unfold writeBeat writePieces
    simp only [accessBy_local s w false true h (by omega) hp.windows, target]
    rfl

end Sys2Proof.Machine
end

section
/-!
PROOFS. Exchanges from their port to their end (R273-R277, R280, R283).
-/
namespace Sys2Proof.Machine
open Sys2Proof

/-! The six moves of an exchange as rows. -/

section
variable {P : State → Prop} {s : State} {n : Nat}

theorem runs_exchangeStart (h : P (runExchangeStart n s)) : Runs (.exchangeStart n) s P := ⟨_, rfl, h⟩
theorem runs_exchangeRun (h : P (runExchangeRun n s)) : Runs (.exchangeRun n) s P := ⟨_, rfl, h⟩
theorem runs_exchangeEnd (h : P (runExchangeEnd n s)) : Runs (.exchangeEnd n) s P := ⟨_, rfl, h⟩
theorem runs_exchangeRunDeliver (h : P (runExchangeRunDeliver n s)) : Runs (.exchangeRunDeliver n) s P := ⟨_, rfl, h⟩
theorem runs_closingNotice (h : P (runClosingNotice n s)) : Runs (.closingNotice n) s P := ⟨_, rfl, h⟩
theorem runs_abandonment (h : P (runAbandonment n s)) : Runs (.abandonment n) s P := ⟨_, rfl, h⟩
theorem runs_exchangeAck (h : P (runExchangeAck n s)) : Runs (.exchangeAck n) s P := ⟨_, rfl, h⟩

end

/-! The port (R258, R283). -/

theorem runExchangeStart_empty {s : State} {c : Nat} (h : (s.core c).portQ = []) : runExchangeStart c s = s := by
  unfold runExchangeStart; rw [h]

/-- The port's head taken off, so that the next may start. -/
def headOff (s : State) (c : Nat) (rest : List Nat) : State := (s.updCore c fun k => { k with portQ := rest }).pushOnce (.exchangeStart c)

section
variable {s : State} {c id : Nat} {rest : List Nat} {o : Op} {off : Nat} {d : Reg} {g : Guarded} {l : Bool} {e : Exch}

/-- An exchange at the port's head does as its guard says. -/
theorem runExchangeStart_head (hq : (s.core c).portQ = id :: rest) (ho : opById s c id = some o) (hbody : o.body = .exch off d g l)
    (he : (s.exchs.find? fun e => e.core == c && e.op == id && !e.ended) = some e) :
    (g.taken = .waiting → runExchangeStart c s = s) ∧ (g.taken = .discard → runExchangeStart c s = endExch s e 1 0 { cause := .none })
      ∧ (g.taken = .run → (s.exchs.filter fun q => q.active && q.core == c).length ≥ 4 → runExchangeStart c s = s)
      ∧ (g.taken = .run → ¬ (s.exchs.filter fun q => q.active && q.core == c).length ≥ 4 → vectorsBefore s c o = false →
        releaseBefore s c o = false → xAcq e.record = false → runExchangeStart c s = startExch (headOff s c rest) c o e) := by
  unfold runExchangeStart
  refine ⟨fun hg => ?_, fun hg => ?_, fun hg full => ?_, fun hg room hv hr ha => ?_⟩
  · simp only [hq, ho, hbody, he, hg]
  · simp only [hq, ho, hbody, he, hg]
  · simp only [hq, ho, hbody, he, hg, if_pos full]
  · simp only [hq, ho, hbody, he, hg, if_neg room, hv, hr, ha, Bool.false_eq_true, false_and, or_false, if_false]
    rfl

end

theorem core_exchs (s : State) (l : List Exch) (c : Nat) : State.core { s with exchs := l } c = s.core c := rfl

/-- An exchange without ACQ starts: it stands active among the others with its debts, its record says so, and its walk begins. -/
theorem startExch_eq (s : State) (c : Nat) (o : Op) {e : Exch} (hacq : xAcq e.record = false) : ∃ (f : Exch) (expr : Word),
    startExch s c o e = (writeRecord { s with
        exchs := (s.exchs.filter fun q => !(q.ended && q.core == c && xXid q.record == xXid e.record)).map fun q =>
          if q.id = e.id then f else q } o.bank f expr (exchReply 5 0 0)).pushOnce (.exchangeRun e.id)
      ∧ f.id = e.id ∧ f.active = true ∧ f.record = e.record ∧ f.parties = e.parties ∧ f.off = e.off := by
  unfold startExch
  simp only [hacq, Bool.false_eq_true, if_false]
  exact ⟨_, _, rfl, rfl, rfl, rfl, rfl, rfl⟩

theorem startExch_spec (s : State) (c : Nat) (o : Op) {e : Exch} (he : e ∈ s.exchs) (live : e.ended = false) (hacq : xAcq e.record = false) :
    Event.exchangeRun e.id ∈ (startExch s c o e).events
      ∧ (∃ f ∈ (startExch s c o e).exchs, f.id = e.id ∧ f.active = true ∧ f.record = e.record ∧ f.parties = e.parties)
      ∧ (∀ b, ((startExch s c o e).core b).portQ = (s.core b).portQ)
      ∧ (Memory.wf (s.core o.bank).mem = true → readBytes ((startExch s c o e).core o.bank).mem (e.off + 120) 8 = wordLE (exchReply 5 0 0)) := by
  obtain ⟨f, expr, eq, hid, hactive, hrecord, hparties, hoff⟩ := startExch_eq s c o hacq
  have stays : e ∈ s.exchs.filter fun q => !(q.ended && q.core == c && xXid q.record == xXid e.record) :=
    List.mem_filter.2 ⟨he, by rw [live]; rfl⟩
  rw [eq]
  refine ⟨mem_events_pushOnce _ _, ⟨f, ?_, hid, hactive, hrecord, hparties⟩, fun b => ?_, fun wf => ?_⟩
  · rw [exchs_pushOnce]
    exact List.mem_map.2 ⟨e, stays, if_pos rfl⟩
  · rw [core_pushOnce]
    exact core_updCore_keeps Core.portQ _ o.bank (fun _ => by rfl) b
  · rw [core_pushOnce, mem_writeRecord, core_exchs, ← hoff]
    obtain ⟨-, -, result⟩ := readBytes_recordTail wf f expr (exchReply 5 0 0)
    exact result

theorem headOff_spec (s : State) (c : Nat) (rest : List Nat) :
    (headOff s c rest).exchs = s.exchs ∧ ((headOff s c rest).core c).portQ = rest ∧ ∀ b, ((headOff s c rest).core b).mem = (s.core b).mem := by
  unfold headOff
  refine ⟨exchs_pushOnce _ _, ?_, fun b => ?_⟩
  · rw [core_pushOnce, State.updCore_eq, State.core_setCore_same]
  · rw [core_pushOnce]
    exact core_updCore_keeps Core.mem s c (fun _ => by rfl) b

/-! The walk and the end of a party's part (R273, R276, R277). -/

section
variable {s : State} {e : Exch} {o : Op}

theorem runExchangeRun_still (he : exchById s e.id = some e) (ho : opById s e.core e.op = some o) (h : e.walked = true ∨ o.held = true) :
    runExchangeRun e.id s = s := by
  unfold runExchangeRun
  simp only [he, ho, if_pos h]

/-- A walk at its end sends nothing more; the part may now end. -/
theorem runExchangeRun_walked (he : exchById s e.id = some e) (ho : opById s e.core e.op = some o) (hwalk : e.walked = false) (hheld : o.held = false)
    (hst : storesBefore s e.core o = false) (hv : vectorsBefore s e.core o = false) (hx : xIndexed e.record = false)
    (hpos : product (srcExts e.record e.me) ≤ e.pos) :
    runExchangeRun e.id s = (updExch s e.id fun e => { e with walked := true }).pushOnce (.exchangeEnd e.id) := by
  unfold runExchangeRun
  simp only [he, ho, hwalk, hheld, hst, hv, hx, Nat.sub_eq_zero_of_le hpos, formRun, Bool.false_eq_true, or_self, if_false]

/-- A part that has neither failed nor lost a write ends when it has walked, is acknowledged, released and paid. -/
theorem runExchangeEnd_live (he : exchById s e.id = some e) (ho : opById s e.core e.op = some o) (hf : e.failed = none) (hc : o.cause ≠ .visfail) :
    (¬ (e.walked = true ∧ e.acked = e.sent) → runExchangeEnd e.id s = s)
      ∧ (e.walked = true ∧ e.acked = e.sent → exchRelease s e o = (true, s) →
        (¬ (paidUp e = true ∧ releasedBy e = true) → runExchangeEnd e.id s = s)
        ∧ (paidUp e = true ∧ releasedBy e = true → runExchangeEnd e.id s =
          endExch s e (if e.abandoned = [] then 0 else 3) ((e.abandoned.head?.map (·.2)).getD 0) { cause := .none })) := by
  have lost : (o.cause == Cause.visfail) = false := beq_eq_false_iff_ne.2 hc
  unfold runExchangeEnd
  refine ⟨fun h => ?_, fun h released => ⟨fun unpaid => ?_, fun paid => ?_⟩⟩
  · simp only [he, ho, hf, lost, Bool.false_and, Bool.false_eq_true, if_false, if_pos h]
  · simp only [he, ho, hf, lost, Bool.false_and, Bool.false_eq_true, if_false, if_neg (not_not_intro h), released, not_true_eq_false, if_pos unpaid]
  · simp only [he, ho, hf, lost, Bool.false_and, Bool.false_eq_true, if_false, if_neg (not_not_intro h), released, not_true_eq_false,
      if_neg (not_not_intro paid)]
    cases e.abandoned <;> rfl

/-- An exchange whose release is performed or not asked for has none left to perform. -/
theorem exchRelease_none {off : Nat} {d : Reg} {g : Guarded} (h : o.body = .exch off d g false) : exchRelease s e o = (true, s) := by
  unfold exchRelease; simp only [h]

theorem releasedBy_of_plain (h : xRel e.record = false) : releasedBy e = true := by
  unfold releasedBy; simp only [h, Bool.not_false, Bool.true_or]

end

end Sys2Proof.Machine
end

section
/-!
PROOFS. What arrives for a party: runs, acknowledgements, closing notices and abandonments (R274-R276, R280).
-/
namespace Sys2Proof.Machine
open Sys2Proof

/-! Updates of the hub's exchanges and messages alone. -/

theorem sameParts_updExch (s : State) (id : Nat) (f : Exch → Exch) : SameParts s (updExch s id f) := ⟨rfl, rfl, rfl, rfl⟩
theorem sameParts_dropXmsg (s : State) (id : Nat) : SameParts s (dropXmsg s id) := ⟨rfl, rfl, rfl, rfl⟩
theorem sameParts_ackRun (s : State) (m : XMsg) : SameParts s (ackRun s m) :=
  SameParts.trans ⟨rfl, rfl, rfl, rfl⟩ (sameParts_pushOnce _ _)

theorem mem_events_ackRun (s : State) (m : XMsg) : Event.exchangeAck m.id ∈ (ackRun s m).events := mem_events_pushOnce _ _

theorem exchs_ackRun (s : State) (m : XMsg) : (ackRun s m).exchs = s.exchs := exchs_pushOnce _ _

/-- An exchange that has learnt which exchange of a sender is meant (R275). -/
def withSender (m : XMsg) (e : Exch) : Exch := { e with bound := Tbl.put e.bound m.fromP m.sop }

theorem mem_bindSender {s : State} {e : Exch} (h : e ∈ s.exchs) (m : XMsg) : withSender m e ∈ (bindSender s e m).exchs := mem_updExch h (withSender m)

theorem receiver_spec {s : State} {m : XMsg} {e : Exch} (h : receiver s m = some e) : e ∈ s.exchs := List.mem_of_find?_eq_some h

section
variable {s : State} {m : XMsg} {e : Exch}

/-- What comes before its party has started waits. -/
theorem arrivals_wait (hm : xmsgById s m.id = some m) (hr : receiver s m = none) :
    runExchangeRunDeliver m.id s = s.pushOnce (.exchangeRunDeliver m.id) ∧ runClosingNotice m.id s = s.pushOnce (.closingNotice m.id)
      ∧ runAbandonment m.id s = s.pushOnce (.abandonment m.id) := by
  unfold runExchangeRunDeliver runClosingNotice runAbandonment
  simp only [hm, hr, and_self]

/-- A run for a part that has failed is acknowledged and not written. -/
theorem runExchangeRunDeliver_failed (hm : xmsgById s m.id = some m) (hr : receiver s m = some e) (hf : e.failed.isSome = true) :
    runExchangeRunDeliver m.id s = ackRun (bindSender s e m) m := by
  unfold runExchangeRunDeliver
  simp only [hm, hr, hf, or_true, if_true]

/-- An exchange with what a run brings counted (R275, R276). -/
def withRun (m : XMsg) (e : Exch) : Exch := { e with rcvd := e.rcvd + m.n, got := Tbl.put e.got m.fromP (Tbl.read e.got m.fromP 0 + m.n) }

/-- A run that fits its party's map is counted and acknowledged once its beat is written. -/
theorem runExchangeRunDeliver_fits {o : Op} {u : Undo} {t : State} (hm : xmsgById s m.id = some m) (hr : receiver s m = some e)
    (hf : e.failed = none) (live : e.ended = false) (same : sameMap m e = true) (fits : m.doff + m.n ≤ xEs e.record * product (dstExts e.record e.me))
    (ho : opById s e.core e.op = some o) (hheld : o.held = false)
    (ht : writeBeat (bindSender s e m) (whoOp (bindSender s e m) e.core o) e.op [] (xG e.record)
      (cutPieces (xBase e.record true + BitVec.ofNat 64 m.doff) m.bytes) = .ok u t) :
    runExchangeRunDeliver m.id s = ackRun (updExch t e.id (withRun m)) m := by
  have ho' : opById (bindSender s e m) e.core e.op = some o := ho
  unfold runExchangeRunDeliver
  simp only [hm, hr, hf, live, same, Nat.not_lt.2 fits, ho', hheld, ht, Option.isSome_none, Bool.false_eq_true, or_self, not_true_eq_false, if_false]
  rfl

/-- A closing notice, or the notice of a performed release, as its party notes it. -/
def withNotice (m : XMsg) (e : Exch) : Exch :=
  if m.rel then { e with released := m.fromP :: e.released } else { e with debt := Tbl.put e.debt m.fromP m.n }

theorem runClosingNotice_noted (hm : xmsgById s m.id = some m) (hr : receiver s m = some e) (hb : behindRuns s m = false) (hs : m.src / 8192 = 0)
    (live : e.ended = false) :
    runClosingNotice m.id s = (updExch (dropXmsg (bindSender s e m) m.id) e.id (withNotice m)).pushOnce (.exchangeEnd e.id) := by
  unfold runClosingNotice
  simp only [hm, hr, hb, hs, live, Bool.false_eq_true, if_false, if_true]
  rfl

def withAbandonment (m : XMsg) (e : Exch) : Exch := { e with abandoned := e.abandoned ++ [(m.fromP, m.cause)] }

theorem runAbandonment_noted (hm : xmsgById s m.id = some m) (hr : receiver s m = some e) (hb : behindRuns s m = false) (hs : m.src / 8192 = 0)
    (live : e.ended = false) :
    runAbandonment m.id s = (updExch (dropXmsg (bindSender s e m) m.id) e.id (withAbandonment m)).pushOnce (.exchangeEnd e.id) := by
  unfold runAbandonment
  simp only [hm, hr, hb, hs, live, Bool.false_eq_true, if_false, true_or, if_true]
  rfl

/-- A party noted something from a sender: the bytes stay, the message is gone, and the exchange is as it was but for its sender's name and the
note. -/
theorem noted_spec (s : State) (m : XMsg) {e : Exch} (he : e ∈ s.exchs) (f : Exch → Exch) (ev : Event) :
    let t := (updExch (dropXmsg (bindSender s e m) m.id) e.id f).pushOnce ev
    BytesKept s t ∧ m.id ∉ t.xmsgs.map (·.id) ∧ f (withSender m e) ∈ t.exchs := by
  intro t
  refine ⟨?_, ?_, ?_⟩
  · exact (((sameParts_updExch s _ _).trans (sameParts_dropXmsg _ _)).trans ((sameParts_updExch _ _ _).trans (sameParts_pushOnce _ _))).bytes
  · show _ ∉ (State.pushOnce _ _).xmsgs.map _
    rw [xmsgs_pushOnce]
    exact not_mem_dropXmsg (bindSender s e m) m.id
  · show _ ∈ (State.pushOnce _ _).exchs
    rw [exchs_pushOnce]
    exact mem_updExch (s := dropXmsg (bindSender s e m) m.id) (mem_bindSender he m) f

def withAck (m : XMsg) (e : Exch) : Exch := { e with acked := e.acked + m.n }

/-- An acknowledgement whose write is performed counts at its sender; its receiver, if it has one here, may end too. -/
theorem runExchangeAck_counted (hm : xmsgById s m.id = some m)
    (hq : ∀ r, receiver s m = some r → ∀ a ∈ s.awaiting, ¬ (a.core = r.core ∧ a.op = r.op)) (hs : m.src / 8192 = 0)
    (he : (s.exchs.find? fun e => (e.active || e.ended) && e.op == m.sop) = some e) :
    ∃ u, SameParts s u ∧ u.exchs = s.exchs ∧ u.xmsgs = (dropXmsg s m.id).xmsgs
      ∧ runExchangeAck m.id s = (updExch u e.id (withAck m)).pushOnce (.exchangeEnd e.id) := by
  unfold runExchangeAck
  cases hr : receiver s m with
  | none =>
    refine ⟨dropXmsg s m.id, sameParts_dropXmsg s m.id, rfl, rfl, ?_⟩
    have he' : ((dropXmsg s m.id).exchs.find? fun e => (e.active || e.ended) && e.op == m.sop) = some e := he
    simp only [hm, hr, hs, he', Bool.false_eq_true, if_false, ne_eq, not_true_eq_false]
    rfl
  | some r =>
    have performed : (s.awaiting.any fun a => a.core == r.core && a.op == r.op) = false := by
      rw [List.any_eq_false]
      intro a ha same
      obtain ⟨hcore, hop⟩ := Bool.and_eq_true_iff.1 same
      exact hq r hr a ha ⟨beq_iff_eq.1 hcore, beq_iff_eq.1 hop⟩
    refine ⟨(dropXmsg s m.id).pushOnce (.exchangeEnd r.id), (sameParts_dropXmsg s m.id).trans (sameParts_pushOnce _ _), exchs_pushOnce _ _,
      xmsgs_pushOnce _ _, ?_⟩
    have he' : (((dropXmsg s m.id).pushOnce (.exchangeEnd r.id)).exchs.find? fun e => (e.active || e.ended) && e.op == m.sop) = some e := by
      rw [exchs_pushOnce]; exact he
    simp only [hm, hr, hs, performed, he', Bool.false_eq_true, if_false, ne_eq, not_true_eq_false]
    rfl

end

end Sys2Proof.Machine
end

section
/-!
PROOFS. Exchanges from start to end (R271-R283), settled.
-/
namespace Sys2Proof.Proofs
open Sys2Proof Sys2Proof.Machine Sys2Proof.Claims

/-! Distributions. -/

theorem distributionsGiveEachIndexOneHome : DistributionsGiveEachIndexOneHome := fun x g _ hp hb hg => by
  by_cases hk : x.kind = 0
  · obtain ⟨home, bounds⟩ := block_home hk hp hg
    exact ⟨home, fun h => absurd hk h, fun _ => bounds⟩
  · have block : 0 < cycBlock x := by
      unfold cycBlock
      split
      · next h => exact hb h
      · exact Nat.one_pos
    obtain ⟨home, digits⟩ := cyclic_home hk hp block hg
    exact ⟨home, fun _ => digits, fun h => absurd h hk⟩

/-! The port. -/

section
variable {s : State} {c id : Nat} {rest : List Nat} {o : Op} {off : Nat} {d : Reg} {g : Guarded} {l : Bool} {e : Exch}

/-- An exchange that stands at its port is the head's own. -/
theorem exch_of_head (he : (s.exchs.find? fun e => e.core == c && e.op == id && !e.ended) = some e) :
    e ∈ s.exchs ∧ e.core = c ∧ e.op = id ∧ e.ended = false := by
  have found := List.find?_some he
  simp only [Bool.and_eq_true, beq_iff_eq, Bool.not_eq_true'] at found
  obtain ⟨⟨hcore, hop⟩, live⟩ := found
  exact ⟨List.mem_of_find?_eq_some he, hcore, hop, live⟩

theorem portDiscardsItsHead (hq : (s.core c).portQ = id :: rest) (ho : opById s c id = some o) (hbody : o.body = .exch off d g l)
    (he : (s.exchs.find? fun e => e.core == c && e.op == id && !e.ended) = some e) (hctx : o.ctx < 16) (hmem : memoriesCanonical s)
    (hawait : ∀ q ∈ s.awaiting, q.op ≠ id) (hg : g.taken = .discard) :
    Runs (.exchangeStart c) s fun t => opById t c id = none ∧ id ∉ (t.core c).portQ
      ∧ rd (t.ctx c o.ctx) d = (if d = 0 then 0 else commandReply 1 0 0) ∧ readBytes (t.core o.bank).mem (e.off + 120) 8 = wordLE (commandReply 1 0 0)
      ∧ (t.ctx c o.ctx).events = Min.min 255 ((s.ctx c o.ctx).events + 1) := by
  obtain ⟨-, discards, -, -⟩ := runExchangeStart_head hq ho hbody he
  obtain ⟨-, banks, -⟩ := hmem
  obtain ⟨-, rfl, rfl, -⟩ := exch_of_head he
  have ended := endExch_ended (status := 1) 0 { cause := .none } ho hbody hctx hawait (.inl rfl) (by decide) (by decide)
  obtain ⟨-, -, result⟩ := readBytes_recordTail (banks o.bank) e 0 (exchReply 1 0 0)
  apply runs_exchangeStart
  rw [discards hg]
  exact ⟨ended.op, ended.port, ended.reply, by rw [ended.record]; exact result, ended.event⟩

theorem portStartsItsHead (hq : (s.core c).portQ = id :: rest) (ho : opById s c id = some o) (hbody : o.body = .exch off d g l)
    (he : (s.exchs.find? fun e => e.core == c && e.op == id && !e.ended) = some e) (hmem : memoriesCanonical s)
    (hg : g.taken = .run) (room : ¬ (s.exchs.filter fun q => q.active && q.core == c).length ≥ 4) (hv : vectorsBefore s c o = false)
    (hr : releaseBefore s c o = false) (ha : xAcq e.record = false) :
    Runs (.exchangeStart c) s fun t => (t.core c).portQ = rest
      ∧ Event.exchangeRun e.id ∈ t.events ∧ (∃ f ∈ t.exchs, f.id = e.id ∧ f.active = true ∧ f.record = e.record ∧ f.parties = e.parties)
      ∧ readBytes (t.core o.bank).mem (e.off + 120) 8 = wordLE (commandReply 5 0 0) := by
  obtain ⟨-, -, -, starts⟩ := runExchangeStart_head hq ho hbody he
  obtain ⟨-, banks, -⟩ := hmem
  obtain ⟨member, -, -, live⟩ := exch_of_head he
  obtain ⟨exchs, port, mem⟩ := headOff_spec s c rest
  obtain ⟨walk, active, sport, record⟩ := startExch_spec (headOff s c rest) c o (exchs ▸ member) live ha
  apply runs_exchangeStart
  rw [starts hg room hv hr ha]
  exact ⟨by rw [sport, port], walk, active, record (by rw [mem]; exact banks o.bank)⟩

end

/-! The walk and the end of a part. -/

section
variable {s : State} {e : Exch} {o : Op} {d : Reg}

theorem walkEnds (h : Running s e o d) (hwalk : e.walked = false) (hheld : o.held = false) (hst : storesBefore s e.core o = false)
    (hv : vectorsBefore s e.core o = false) (hx : xIndexed e.record = false) (hpos : product (srcExts e.record e.me) ≤ e.pos) :
    Runs (.exchangeRun e.id) s fun t => BytesKept s t ∧ Event.exchangeEnd e.id ∈ t.events ∧ ∃ f ∈ t.exchs, f.id = e.id ∧ f.walked = true ∧ f.sent = e.sent := by
  obtain ⟨he, ho, -⟩ := h
  obtain ⟨member, -⟩ := exchById_spec he
  apply runs_exchangeRun
  rw [runExchangeRun_walked he ho hwalk hheld hst hv hx hpos]
  refine ⟨((sameParts_updExch s _ _).trans (sameParts_pushOnce _ _)).bytes, mem_events_pushOnce _ _, { e with walked := true }, ?_, rfl, rfl, rfl⟩
  rw [exchs_pushOnce]
  exact mem_updExch member _

theorem partWaits (h : Running s e o d) (hf : e.failed = none) (hc : o.cause ≠ .visfail)
    (due : e.walked = false ∨ e.acked ≠ e.sent ∨ ((∀ f g, o.body ≠ .exch f d g true) ∧ paidUp e = false)) :
    Runs (.exchangeEnd e.id) s fun t => t = s := by
  obtain ⟨he, ho, -, -, ⟨off, g, l, hbody⟩, -⟩ := h
  obtain ⟨unsent, sent⟩ := runExchangeEnd_live he ho hf hc
  apply runs_exchangeEnd
  by_cases hs : e.walked = true ∧ e.acked = e.sent
  · obtain ⟨walked, acked⟩ := hs
    rcases due with walking | unacked | ⟨norel, unpaid⟩
    · rw [walked] at walking; exact absurd walking (by decide)
    · exact absurd acked unacked
    · cases l with
      | true => exact absurd hbody (norel off g)
      | false =>
        obtain ⟨waits, -⟩ := sent ⟨walked, acked⟩ (exchRelease_none hbody)
        exact waits fun paid => by rw [unpaid] at paid; exact Bool.false_ne_true paid.1
  · exact unsent hs

theorem partEnds (h : Running s e o d) (hw : e.walked = true) (ha : e.acked = e.sent) (hp : paidUp e = true) (hf : e.failed = none) (hc : o.cause ≠ .visfail)
    (hr : xRel e.record = false) (hl : ∀ f g, o.body ≠ .exch f d g true) :
    let r := commandReply (if e.abandoned = [] then 0 else 3) ((e.abandoned.head?.map (·.2)).getD 0) e.rcvd
    Runs (.exchangeEnd e.id) s fun t => opById t e.core e.op = none ∧ (∀ f ∈ t.exchs, f.id ≠ e.id) ∧ rd (t.ctx e.core o.ctx) d = (if d = 0 then 0 else r)
      ∧ readBytes (t.core o.bank).mem (e.off + 120) 8 = wordLE r ∧ readBytes (t.core o.bank).mem (e.off + 104) 8 = natLE 8 e.rcvd
      ∧ readBytes (t.core o.bank).mem (e.off + 112) 8 = natLE 8 e.sent ∧ (t.ctx e.core o.ctx).events = Min.min 255 ((s.ctx e.core o.ctx).events + 1) := by
  intro r
  obtain ⟨he, ho, -, hctx, ⟨off, g, l, hbody⟩, hawait, -, banks, -⟩ := h
  have norel : l = false := by
    cases l with
    | true => exact absurd hbody (hl off g)
    | false => rfl
  subst norel
  obtain ⟨-, ends⟩ := (runExchangeEnd_live he ho hf hc).2 ⟨hw, ha⟩ (exchRelease_none hbody)
  have status : (if e.abandoned = [] then 0 else 3) ≠ 1 ∧ (if e.abandoned = [] then 0 else 3) ≠ 2 ∧ (if e.abandoned = [] then 0 else 3) ≠ 4 := by
    split <;> decide
  obtain ⟨h1, h2, h4⟩ := status
  have ended := endExch_ended ((e.abandoned.head?.map (·.2)).getD 0) { cause := .none } ho hbody hctx hawait (.inr hr) h2 h4
  rw [if_neg h1, if_neg h1] at ended
  obtain ⟨rcvd, sent, result⟩ := readBytes_recordTail (banks o.bank) e (exprWord e) r
  apply runs_exchangeEnd
  rw [ends ⟨hp, releasedBy_of_plain hr⟩]
  refine ⟨ended.op, fun f hf => ?_, ended.reply, ?_, ?_, ?_, ended.event⟩
  · rw [ended.exchs] at hf
    exact bne_iff_ne.1 (List.mem_filter.1 hf).2
  · rw [ended.record]; exact result
  · rw [ended.record]; exact rcvd
  · rw [ended.record]; exact sent

end

/-! What arrives for a party. -/

section
variable {s : State} {m : XMsg}

theorem arrivalsWait (hm : xmsgById s m.id = some m) (hr : receiver s m = none) :
    (Runs (.exchangeRunDeliver m.id) s fun t => BytesKept s t ∧ t.xmsgs = s.xmsgs ∧ Event.exchangeRunDeliver m.id ∈ t.events)
      ∧ (Runs (.closingNotice m.id) s fun t => t.xmsgs = s.xmsgs ∧ Event.closingNotice m.id ∈ t.events)
      ∧ Runs (.abandonment m.id) s fun t => t.xmsgs = s.xmsgs ∧ Event.abandonment m.id ∈ t.events := by
  obtain ⟨run, notice, abandonment⟩ := arrivals_wait hm hr
  refine ⟨runs_exchangeRunDeliver ?_, runs_closingNotice ?_, runs_abandonment ?_⟩
  · rw [run]; exact ⟨bytesKept_pushOnce _ _, xmsgs_pushOnce _ _, mem_events_pushOnce _ _⟩
  · rw [notice]; exact ⟨xmsgs_pushOnce _ _, mem_events_pushOnce _ _⟩
  · rw [abandonment]; exact ⟨xmsgs_pushOnce _ _, mem_events_pushOnce _ _⟩

variable {e : Exch} {o : Op} {d : Reg}

theorem runIsWritten {lo : Nat} (hm : xmsgById s m.id = some m) (hr : receiver s m = some e) (h : Running s e o d) (hf : e.failed = none)
    (live : e.ended = false) (same : sameMap m e = true) (hn : m.n = m.bytes.length)
    (fits : m.doff + m.n ≤ xEs e.record * product (dstExts e.record e.me)) (hheld : o.held = false)
    (hlo : (xBase e.record true + BitVec.ofNat 64 m.doff).toNat = 0xC000000000000000 + lo) (sector : lo % 64 + m.n ≤ 64) (inBanks : lo + m.n ≤ 0x30000)
    (plain : PlainBank s e.core o.bank) :
    Runs (.exchangeRunDeliver m.id) s fun t => readBytes (t.core o.bank).mem lo m.n = m.bytes
      ∧ (∀ x, (x < lo ∨ lo + m.n ≤ x) → readByte (t.core o.bank).mem x = readByte (s.core o.bank).mem x) ∧ (∀ c, c ≠ o.bank → (t.core c).mem = (s.core c).mem)
      ∧ Event.exchangeAck m.id ∈ t.events ∧ ∃ f ∈ t.exchs, f.id = e.id ∧ f.rcvd = e.rcvd + m.n := by
  obtain ⟨-, ho, -, -, -, -, -, banks, -⟩ := h
  rw [hn] at sector inBanks
  have free : PlainBank (bindSender s e m) e.core o.bank := ⟨plain.die, plain.windows, plain.dirl, plain.bad, plain.inj⟩
  obtain ⟨u, t, ht, written⟩ := writeBeat_local (w := whoOp (bindSender s e m) e.core o) free hlo sector inBanks e.op (xG e.record)
  have bank : ∀ c, ((ackRun (updExch t e.id (withRun m)) m).core c).mem = (t.core c).mem := fun c => by
    rw [(sameParts_ackRun _ m).core, (sameParts_updExch t _ _).core]
  have mine : (t.core o.bank).mem = writeBytes (s.core o.bank).mem lo m.bytes := (written.mem o.bank).trans (if_pos rfl)
  have counted : withRun m (withSender m e) ∈ (updExch t e.id (withRun m)).exchs :=
    mem_updExch (e := withSender m e) (written.exchs ▸ mem_bindSender (receiver_spec hr) m) (withRun m)
  apply runs_exchangeRunDeliver
  rw [runExchangeRunDeliver_fits hm hr hf live same fits ho hheld ht, hn]
  refine ⟨?_, fun x hx => ?_, fun c hc => ?_, mem_events_ackRun _ m, withRun m (withSender m e), ?_, rfl, ?_⟩
  · rw [bank, mine]; exact readBytes_writeBytes_same _ _ _ (banks o.bank)
  · rw [bank, mine]; exact readByte_writeBytes_outside _ _ _ (banks o.bank) hx
  · rw [bank]; exact (written.mem c).trans (if_neg hc)
  · rw [exchs_ackRun]; exact counted
  · rw [← hn]; rfl

theorem runForFailedIsRefused (hm : xmsgById s m.id = some m) (hr : receiver s m = some e) (hf : e.failed.isSome = true) :
    Runs (.exchangeRunDeliver m.id) s fun t => BytesKept s t ∧ Event.exchangeAck m.id ∈ t.events := by
  apply runs_exchangeRunDeliver
  rw [runExchangeRunDeliver_failed hm hr hf]
  exact ⟨((sameParts_updExch s _ _).trans (sameParts_ackRun _ m)).bytes, mem_events_ackRun _ m⟩

theorem noticesAreNoted (hm : xmsgById s m.id = some m) (hr : receiver s m = some e) (hb : behindRuns s m = false) (hs : m.src / 8192 = 0)
    (live : e.ended = false) :
    (Runs (.closingNotice m.id) s fun t => BytesKept s t ∧ m.id ∉ t.xmsgs.map (·.id) ∧ ∃ f ∈ t.exchs, f.id = e.id
        ∧ (m.rel = false → Tbl.find f.debt m.fromP = some m.n) ∧ (m.rel = true → f.debt = e.debt ∧ m.fromP ∈ f.released))
      ∧ Runs (.abandonment m.id) s fun t => BytesKept s t ∧ m.id ∉ t.xmsgs.map (·.id) ∧ ∃ f ∈ t.exchs, f.id = e.id
        ∧ f.abandoned = e.abandoned ++ [(m.fromP, m.cause)] := by
  refine ⟨runs_closingNotice ?_, runs_abandonment ?_⟩
  · rw [runClosingNotice_noted hm hr hb hs live]
    obtain ⟨bytes, gone, noted⟩ := noted_spec s m (receiver_spec hr) (withNotice m) (.exchangeEnd e.id)
    refine ⟨bytes, gone, _, noted, ?_⟩
    cases hrel : m.rel
    · simp [withNotice, withSender, hrel]
    · simp [withNotice, withSender, hrel]
  · rw [runAbandonment_noted hm hr hb hs live]
    obtain ⟨bytes, gone, noted⟩ := noted_spec s m (receiver_spec hr) (withAbandonment m) (.exchangeEnd e.id)
    exact ⟨bytes, gone, _, noted, rfl, rfl⟩

theorem ackCounts (hm : xmsgById s m.id = some m) (hq : ∀ r, receiver s m = some r → ∀ a ∈ s.awaiting, ¬ (a.core = r.core ∧ a.op = r.op))
    (hs : m.src / 8192 = 0) (he : (s.exchs.find? fun e => (e.active || e.ended) && e.op == m.sop) = some e) :
    Runs (.exchangeAck m.id) s fun t => BytesKept s t ∧ m.id ∉ t.xmsgs.map (·.id) ∧ Event.exchangeEnd e.id ∈ t.events
      ∧ ∃ f ∈ t.exchs, f.id = e.id ∧ f.acked = e.acked + m.n := by
  obtain ⟨u, parts, exchs, xmsgs, eq⟩ := runExchangeAck_counted hm hq hs he
  apply runs_exchangeAck
  rw [eq]
  refine ⟨((parts.trans (sameParts_updExch u _ _)).trans (sameParts_pushOnce _ _)).bytes, ?_, mem_events_pushOnce _ _, withAck m e, ?_, rfl, rfl⟩
  · rw [xmsgs_pushOnce]
    show m.id ∉ u.xmsgs.map _
    rw [xmsgs]
    exact not_mem_dropXmsg s m.id
  · rw [exchs_pushOnce]
    exact mem_updExch (exchs ▸ List.mem_of_find?_eq_some he) _

end

theorem exchangesRunAndEnd : ExchangesRunAndEnd := by
  refine ⟨fun c s h => runs_exchangeStart (runExchangeStart_empty h), ?_, ?_, ?_, fun m e s hm hq hs he => ackCounts hm hq hs he⟩
  · intro c id rest o off d g l e s hq ho _ hbody he hctx hmem hawait full
    obtain ⟨waits, -, stays, -⟩ := runExchangeStart_head hq ho hbody he
    refine ⟨?_, portDiscardsItsHead hq ho hbody he hctx hmem hawait, portStartsItsHead hq ho hbody he hmem⟩
    rintro (hg | ⟨hg, hfull⟩)
    · exact runs_exchangeStart (waits hg)
    · exact runs_exchangeStart (stays hg hfull)
  · intro e o d s h
    have ⟨he, ho, _⟩ := h
    exact ⟨fun still => runs_exchangeRun (runExchangeRun_still he ho still), walkEnds h, partWaits h,
      fun hw ha hp hf hc hr hl _ => partEnds h hw ha hp hf hc hr hl⟩
  · intro m s hm
    refine ⟨arrivalsWait hm, fun e o d hr h => ⟨?_, runForFailedIsRefused hm hr, noticesAreNoted hm hr⟩⟩
    intro lo hf live same hn fits hheld hlo sector inBanks die windows _ dirl bad inj
    exact runIsWritten hm hr h hf live same hn fits hheld hlo sector inBanks ⟨die, windows, dirl, bad, inj⟩

/-- Settles O51: each index has the home that its digits or its part's bounds give, and each move of an exchange does as its equation says. -/
theorem exchangesMoveTheirElements : Obligations.ExchangesMoveTheirElements :=
  ⟨distributionsGiveEachIndexOneHome, exchangesRunAndEnd⟩

end Sys2Proof.Proofs
end

section
/-!
PROOFS. Where a transfer ends, and what it leaves as it was (R8, R70, R287, R291, R385).
-/
namespace Sys2Proof.Machine
open Sys2Proof Sys2Proof.Claims

/-! Targets. -/

/-- A target checked against the offset that it names: the offset itself, or the fault that a branch to it raises (R8, R287). -/
def Targets (p : Int) (t : Except Stop Nat) : Prop :=
  if p % 4 ≠ 0 then ∃ ea, t = .error { cause := .align, eaddr := ea }
  else if p < 0 ∨ p > 0x2FFFC then ∃ ea, t = .error { cause := .laddr, eaddr := ea }
  else t = .ok p.toNat

theorem targets_checkTarget (p : Int) : Targets p (checkTarget p) := by
  unfold Targets checkTarget
  split
  · exact ⟨_, rfl⟩
  · split
    · exact ⟨_, rfl⟩
    · rfl

/-- A fault's address may be another one: it is not part of where a branch ends. -/
theorem Targets.mapError {p : Int} {t u : Except Stop Nat} (h : Targets p t) (ok : ∀ q, t = .ok q → u = .ok q)
    (error : ∀ e, t = .error e → ∃ ea, u = .error { e with eaddr := ea }) : Targets p u := by
  unfold Targets at *
  split
  case isTrue misaligned =>
    rw [if_pos misaligned] at h
    obtain ⟨ea, rfl⟩ := h
    exact error _ rfl
  case isFalse aligned =>
    rw [if_neg aligned] at h
    split
    case isTrue outside =>
      rw [if_pos outside] at h
      obtain ⟨ea, rfl⟩ := h
      exact error _ rfl
    case isFalse inside =>
      rw [if_neg inside] at h
      exact ok _ h

/-- A plain offset, or an address of local form. -/
theorem plainOrLocal_iff (v : Word) : (field v 63 18 = 0 ∨ (field v 63 62 = 3 ∧ field v 61 18 = 0))
    ↔ (v.toNat < 2 ^ 18 ∨ (v.toNat / 2 ^ 62 = 3 ∧ v.toNat / 2 ^ 18 % 2 ^ 44 = 0)) := by
  have := v.isLt
  simp only [field]
  omega

theorem targets_regTarget {v : Word} (h : v.toNat < 2 ^ 18 ∨ (v.toNat / 2 ^ 62 = 3 ∧ v.toNat / 2 ^ 18 % 2 ^ 44 = 0)) :
    Targets (v.toNat % 2 ^ 18 : Nat) (regTarget v) := by
  have low : field v 17 0 = v.toNat % 2 ^ 18 := by simp [field]
  have checked := targets_checkTarget (field v 17 0)
  rw [regTarget, if_pos ((plainOrLocal_iff v).2 h), ← low]
  refine checked.mapError (fun q hq => ?_) fun e he => ⟨v, ?_⟩
  · rw [hq]
  · rw [he]

theorem regTarget_outside {v : Word} (h : ¬ (v.toNat < 2 ^ 18 ∨ (v.toNat / 2 ^ 62 = 3 ∧ v.toNat / 2 ^ 18 % 2 ^ 44 = 0))) :
    regTarget v = .error { cause := .laddr, eaddr := v } := by
  rw [regTarget, if_neg (mt (plainOrLocal_iff v).1 h)]
  rfl

/-! What a branch leaves beside its transfer. -/

/-- The issuing context's region number, the counters and the replay's digests may have changed, and nothing else that a program can see. -/
def BranchNoted (s t : State) : Prop := KeptElsewhere s t ∧ ∃ r, t.k = { s.k with region := r }

theorem OnlyAcquires.noted {s t : State} (h : OnlyAcquires s t) : BranchNoted s t := by
  obtain ⟨kept, acquired⟩ := h
  exact ⟨kept.elsewhere, acquired⟩

theorem BranchNoted.trans {s t u : State} (h : BranchNoted s t) (g : BranchNoted t u) : BranchNoted s u := by
  obtain ⟨hp, _, hk⟩ := h
  obtain ⟨gp, r, gk⟩ := g
  exact ⟨hp.trans gp, r, by rw [gk, hk]⟩

theorem branchNoted_readReplies (s : State) (srcs : List Reg) : BranchNoted s (s.updK fun k => readReplies k srcs) :=
  (onlyAcquires_updK s (readReplies_eq s.k srcs)).noted

theorem sameParts_digest (s : State) (g key : Nat) (v : Word) : SameParts s (digest s g key v) := by
  unfold digest
  split <;> exact ⟨rfl, rfl, rfl, rfl⟩

theorem branchNoted_noteBranch (s : State) (taken wrong : Bool) : BranchNoted s (noteBranch s taken wrong) := by
  have counted : KeptElsewhere s (if wrong then countEv s s.cur.1 s.cur.2 0x0C 1 else s)
      ∧ (if wrong then countEv s s.cur.1 s.cur.2 0x0C 1 else s).k = s.k := by
    split
    · exact ⟨(packageKept_countEv ..).elsewhere, k_countEv ..⟩
    · exact ⟨keptElsewhere_refl s, rfl⟩
  obtain ⟨kept, same⟩ := counted
  have digested := sameParts_digest (if wrong then countEv s s.cur.1 s.cur.2 0x0C 1 else s) (domOf s.k) (homeKey s s.cur.1 s.cur.2)
    (if taken then 1 else 0)
  exact ⟨kept.trans digested.elsewhere, s.k.region, digested.k.trans same⟩

/-- What a branch noted and its retirement together keep. -/
theorem BranchNoted.flow {s w t : State} (h : BranchNoted s w) (regs : ∀ r, rd t.k r = rd w.k r) (ctx : ContextKept w.k t.k)
    (kept : PackageKept w t) : FlowKept s t := by
  obtain ⟨noted, r, hk⟩ := h
  obtain ⟨-, others, bytes⟩ := noted.trans kept.elsewhere
  rw [hk] at ctx
  exact ⟨fun q _ => by rw [regs, hk]; rfl, contextKept_trans (contextKept_region s.k r) ctx, others, bytes⟩

theorem regs_guards_bytes_of_flowKept {s t : State} (h : FlowKept s t) : RegsKept s t [] ∧ GuardsKept s t [] ∧ BytesKept s t := by
  obtain ⟨regs, ctx, -, bytes⟩ := h
  exact ⟨regs, fun q _ => guardOf_of_contextKept ctx q, bytes⟩

/-! How a transfer ends. -/

theorem loop_afterIssue (s : State) : (afterIssue s s.cur.1 s.cur.2).k.loop = s.k.loop := by
  rw [afterIssue, State.updCtx_eq, State.k_setCtx_cur]
  rfl

/-- A transfer stands in no LOOP slot (R294). -/
theorem loop_finish_goto (len : Nat) (d : Option Reg) (s : State) (p : Nat) : (finish len d (.goto s p)).k.loop = none := by
  have cur : (charge (dropFetch s s.cur.1) (domOf s.k) 0 1).cur = s.cur := (packageKept_charge ..).cur.trans (packageKept_dropFetch s _).cur
  show (afterIssue (countEv ((charge (dropFetch s s.cur.1) (domOf s.k) 0 1).updK
    fun k => { k with pc := p, loop := none, back := k.back.drop 1 }) s.cur.1 s.cur.2 2 1) s.cur.1 s.cur.2).k.loop = none
  generalize charge (dropFetch s s.cur.1) (domOf s.k) 0 1 = u at cur
  rw [State.updK_eq, ← cur]
  generalize hv : u.setCtx u.cur.1 u.cur.2 { u.k with pc := p, loop := none, back := u.k.back.drop 1 } = v
  have vcur : v.cur = u.cur := by rw [← hv]; rfl
  have counted := loop_afterIssue (countEv v u.cur.1 u.cur.2 2 1)
  rw [(packageKept_countEv v u.cur.1 u.cur.2 2 1).cur, vcur, k_countEv] at counted
  rw [counted, ← hv, State.k_setCtx_cur]

section
variable {srcs : List Reg} {body : State → Res} {s w : State}

/-- An issue whose body notes a branch and transfers. -/
theorem issue_goto {p : Nat} (hs : Settled s srcs) (hw : BranchNoted s w) (hb : body (s.updK fun k => readReplies k srcs) = .goto w p) :
    (issue 4 none srcs body s).k.pc = p ∧ (issue 4 none srcs body s).k.loop = none ∧ FlowKept s (issue 4 none srcs body s) := by
  rw [issue_settled (d := none) hs, hb]
  have charged := packageKept_charge w (domOf s.k) 1 (bytesMoved s srcs none w)
  have same := k_charge w (domOf s.k) 1 (bytesMoved s srcs none w)
  rw [atIssue]
  generalize charge w (domOf s.k) 1 (bytesMoved s srcs none w) = v at charged same ⊢
  obtain ⟨pc, regs, ctx, kept⟩ := finish_goto 4 none v p
  rw [same] at regs ctx
  exact ⟨pc, loop_finish_goto 4 none v p, hw.flow regs ctx (packageKept_trans charged kept)⟩

/-- An issue whose body notes a branch that is not taken. -/
theorem issue_goesOn (hs : Settled s srcs) (hw : BranchNoted s w) (hb : body (s.updK fun k => readReplies k srcs) = .ret w) :
    (issue 4 none srcs body s).k.pc = nextPc s.k 4 ∧ FlowKept s (issue 4 none srcs body s) := by
  obtain ⟨ek, kept⟩ := issue_ret (len := 4) (d := none) hs hb
  have ⟨_, r, hk⟩ := hw
  refine ⟨?_, hw.flow (fun q => ?_) ?_ kept⟩
  · rw [ek, pc_retired, hk]; rfl
  · rw [ek, rd_retired]
  · rw [ek]; exact contextKept_retired w.k 4

/-- An issue whose body transfers to its target, or faults there having noted nothing. -/
theorem issue_branches {p : Int} {t : Except Stop Nat} (hs : Settled s srcs) (hw : BranchNoted s w) (ht : Targets p t)
    (ok : ∀ q, t = .ok q → body (s.updK fun k => readReplies k srcs) = .goto w q)
    (error : ∀ e, t = .error e → body (s.updK fun k => readReplies k srcs) = .fault e (s.updK fun k => readReplies k srcs)) :
    BranchesTo p s (issue 4 none srcs body s) := by
  unfold Targets at ht
  unfold BranchesTo
  split at ht
  case isTrue misaligned =>
    obtain ⟨ea, ht⟩ := ht
    rw [if_pos misaligned]
    exact ⟨ea, issue_parks (d := none) hs rfl (error _ ht)⟩
  case isFalse aligned =>
    rw [if_neg aligned]
    split at ht
    case isTrue outside =>
      obtain ⟨ea, ht⟩ := ht
      rw [if_pos outside]
      exact ⟨ea, issue_parks (d := none) hs rfl (error _ ht)⟩
    case isFalse inside =>
      obtain ⟨pc, loop, flow⟩ := issue_goto hs hw (ok _ ht)
      rw [if_neg inside]
      exact ⟨by rw [pc]; omega, loop, flow⟩

/-- The unconditional transfers note nothing. -/
theorem issue_transfers {p : Int} {t : Except Stop Nat} (hs : Settled s srcs) (ht : Targets p t)
    (hb : body (s.updK fun k => readReplies k srcs) = transfer t (s.updK fun k => readReplies k srcs)) :
    BranchesTo p s (issue 4 none srcs body s) := by
  refine issue_branches hs (branchNoted_readReplies s srcs) ht (fun q hq => ?_) fun e he => ?_
  · rw [hb, hq]; rfl
  · rw [hb, he]; rfl

/-- An instruction whose body waits with no more than its own mark on the context. -/
theorem issue_waits_marked {len : Nat} {d : Option Reg} (hs : Settled s (d.toList ++ srcs)) (kept : PackageKept s w) (ctx : ContextKept s.k w.k)
    (regs : RegsKept s w []) (pc : w.k.pc = s.k.pc) (hb : body (s.updK fun k => readReplies k srcs) = .wait w) :
    Waits s (issue len d srcs body s) := by
  rw [issue_settled hs, hb]
  show Waits s (finish len d (.wait (w.updK fun k => { k with region := s.k.region })))
  rw [State.updK_eq]
  refine finish_waits (packageKept_trans kept (packageKept_setCtx_cur w _)) ?_ (fun r hr => ?_) ?_
  · rw [State.k_setCtx_cur]; exact contextKept_trans ctx (contextKept_region w.k s.k.region)
  · rw [State.k_setCtx_cur]; exact regs r hr
  · rw [State.k_setCtx_cur]; exact pc

end

end Sys2Proof.Machine
end

section
/-!
PROOFS. BZ, BG, J and JR (R287-R290), settled.
-/
namespace Sys2Proof.Proofs
open Sys2Proof Sys2Proof.Machine Sys2Proof.Claims

/-! BZ. -/

/-- The tests of BZ are those of R288. -/
theorem bzTaken_iff (c : Cond) (v : Word) : bzTaken c v = true ↔ BzTaken c v := by
  have zero : v = 0 ↔ v.toInt = 0 := ⟨fun h => by rw [h]; rfl, fun h => BitVec.eq_of_toInt_eq h⟩
  have bit : v.getLsbD 0 = decide (v.toNat % 2 = 1) := by rw [BitVec.getLsbD, Nat.testBit_zero]
  have sign : v.slt 0 = decide (v.toInt < 0) := rfl
  cases c <;> simp only [bzTaken, BzTaken, sign, bit, zero, beq_iff_eq, bne_iff_ne, Bool.not_eq_true', Bool.and_eq_true, Bool.or_eq_true,
    decide_eq_true_eq, decide_eq_false_iff_not, ne_eq] <;> omega

theorem bzBranchesOnItsRegister : BzBranchesOnItsRegister := fun o h c a s => by
  obtain ⟨u, hu⟩ : ∃ u, u = s.updK fun k => readReplies k [a] := ⟨_, rfl⟩
  have hk : u.k = readReplies s.k [a] := by rw [hu]; exact (issued_kept s [a]).2
  have value : rd u.k a = rd s.k a := by rw [hk, rd_readReplies]
  have target : relTarget u.k.pc o = checkTarget (s.k.pc + 4 * o.toInt) := by rw [hk, pc_readReplies]; rfl
  have noted (taken wrong : Bool) : BranchNoted s (noteBranch u taken wrong) := by
    rw [hu]; exact (branchNoted_readReplies s [a]).trans (branchNoted_noteBranch ..)
  refine ⟨fun busy => runs_waits_of_busy (d := none) rfl (List.mem_singleton_self a) busy, fun hs taken => ⟨_, rfl, ?_⟩, fun hs untaken => ⟨_, rfl, ?_⟩⟩
  · have test := (bzTaken_iff c _).2 taken
    refine issue_branches hs (noted true (true != h)) (targets_checkTarget _) (fun q hq => ?_) fun e he => ?_
    · simp only [← hu, value, test, target, hq, if_true]
    · simp only [← hu, value, test, target, he, if_true]
  · have test : bzTaken c (rd s.k a) = false := Bool.eq_false_iff.2 (mt (bzTaken_iff c _).1 untaken)
    refine issue_goesOn hs (noted false (false != h)) ?_
    simp only [← hu, value, test, Bool.false_eq_true, if_false]

/-! BG. -/

theorem bgBranchesOnItsGuard : BgBranchesOnItsGuard := fun o h n q s => by
  obtain ⟨u, hu⟩ : ∃ u, u = s.updK fun k => readReplies k [] := ⟨_, rfl⟩
  have ⟨kept, hk⟩ : PackageKept s u ∧ u.k = s.k := by rw [hu]; exact issued_kept s []
  have target : relTarget s.k.pc o = checkTarget (s.k.pc + 4 * o.toInt) := rfl
  have noted (taken wrong : Bool) : BranchNoted s (noteBranch (u.updK fun k => observe k [q]) taken wrong) := by
    rw [hu]
    exact ((branchNoted_readReplies s []).trans (onlyAcquires_updK _ (observe_eq _ [q])).noted).trans (branchNoted_noteBranch ..)
  refine ⟨fun taken => ⟨_, rfl, ?_⟩, fun untaken => ⟨_, rfl, ?_⟩, fun unresolved => ⟨_, rfl, ?_⟩⟩
  · have test : ((!n) != n) = true := by cases n <;> rfl
    refine issue_branches (settled_nil s) (noted true (true != h && !s.k.guardWait)) (targets_checkTarget _) (fun p hp => ?_) fun e he => ?_
    · simp only [← hu, hk, taken, test, target, hp, if_true]
    · simp only [← hu, hk, taken, test, target, he, if_true]
  · have test : (n != n) = false := bne_self_eq_false n
    refine And.imp_right regs_guards_bytes_of_flowKept (issue_goesOn (settled_nil s) (noted false (false != h && !s.k.guardWait)) ?_)
    simp only [← hu, hk, untaken, test, Bool.false_eq_true, if_false]
  · have ek : (u.setCtx u.cur.1 u.cur.2 { u.k with guardWait := true }).k = { s.k with guardWait := true } := by
      rw [State.k_setCtx_cur, hk]
    refine issue_waits_marked (d := none) (settled_nil s) (packageKept_trans kept (packageKept_setCtx_cur u { u.k with guardWait := true }))
      ?_ (fun r _ => ?_) ?_ ?_
    · rw [ek]
    · rw [ek]; rfl
    · rw [ek]
    · simp only [← hu, hk, unresolved]
      rw [State.updK_eq, hk]

/-! J and JR. -/

theorem jumpsReachTheirTarget : JumpsReachTheirTarget := fun s => by
  refine ⟨fun o => ⟨_, rfl, ?_⟩, fun a hs => ⟨_, rfl, ?_⟩⟩
  · refine issue_transfers (settled_nil s) (targets_checkTarget _) ?_
    rw [(issued_kept s []).2]
    rfl
  · have value : rd (s.updK fun k => readReplies k [a]).k a = rd s.k a := by rw [(issued_kept s [a]).2, rd_readReplies]
    unfold JumpsTo
    split
    case isTrue named =>
      refine issue_transfers hs (targets_regTarget named) ?_
      rw [value]
    case isFalse unnamed =>
      refine issue_parks (d := none) hs rfl ?_
      rw [value, regTarget_outside unnamed]
      rfl

/-- Settles O35: each of them transfers to its checked target, faults there, waits or goes on, as its test says. -/
theorem branchesAndJumpsReachTheirTarget : Obligations.BranchesAndJumpsReachTheirTarget :=
  ⟨bzBranchesOnItsRegister, bgBranchesOnItsGuard, jumpsReachTheirTarget⟩

end Sys2Proof.Proofs
end

section
/-!
PROOFS. Runs of numbers and tables; what an instruction reads of plain banks while it is issued; and what an acquire leaves where no copy of a peer
line stands (R65, R77, R200).
-/
namespace Sys2Proof.Machine
open Sys2Proof Sys2Proof.Claims

/-! Runs of numbers. -/

theorem mem_upFrom {i k n : Nat} : i ∈ upFrom k n ↔ k ≤ i ∧ i < k + n := by rw [Proofs.upFrom_eq_range', List.mem_range'_1]

theorem drop_upFrom (k n m : Nat) : (upFrom k n).drop m = upFrom (k + m) (n - m) := by
  rw [Proofs.upFrom_eq_range', Proofs.upFrom_eq_range', List.drop_range', Nat.mul_one]

theorem take_upFrom {n m : Nat} (k : Nat) (h : m ≤ n) : (upFrom k n).take m = upFrom k m := by
  obtain ⟨r, rfl⟩ := Nat.exists_eq_add_of_le h
  rw [Proofs.upFrom_eq_range', Proofs.upFrom_eq_range', ← List.range'_append_1, List.take_left' List.length_range']

theorem upFrom_eq_map_add (k n : Nat) : upFrom k n = (upFrom 0 n).map (k + ·) := by
  rw [Proofs.upFrom_eq_range', Proofs.upFrom_eq_range', List.map_add_range', Nat.add_zero]

/-! Tables. -/

/-- What a table holds once each entry is changed by its number. -/
theorem find_map_entries {α β : Type} (t : Tbl α) (f : Nat → α → β) (j : Nat) :
    Tbl.find (t.map fun e => (e.1, f e.1 e.2)) j = (Tbl.find t j).map (f j) := by
  induction t with
  | nil => rfl
  | cons e r ih =>
    obtain ⟨k, v⟩ := e
    rw [List.map_cons, Tbl.find, Tbl.find, ih]
    split
    · next same => rw [same]; rfl
    · rfl

/-! Double words of plain banks. -/

/-- Banks with no uncorrectable and no corrected word and no bound ring read as their memory holds, and nothing changes (R69, R108). -/
theorem bankRead_plain {s : State} {c off : Nat} (hbad : (s.core c).bad = []) (hsoft : (s.core c).soft = []) (hrings : (s.core c).rings = [])
    (hoff : off < 0x30000) (n : Nat) : bankRead s c off n = .ok (readBytes (s.core c).mem off n) s := by
  have inBanks : ¬ off ≥ bankEnd := Nat.not_le.2 hoff
  have quiet : softRead s c off n = s := by rw [softRead, hsoft]; rfl
  rw [bankRead, if_neg inBanks, hbad, quiet, overRings, hrings]
  rfl

/-- An aligned double word of its plain banks, read by a context with nothing outstanding. -/
theorem readNow_local {s : State} {b lo : Nat} {ea : Word} (hb : PlainBanks s b) (idle : opsOf s s.cur.1 s.cur.2 = [])
    (h : ea.toNat = 0xC000000000000000 + lo) (h8 : lo % 8 = 0) (hlo : lo < 0x30000) :
    readNow s ea 8 = .ok (readBytes (s.core b).mem lo 8) s := by
  obtain ⟨rfl, hdie, hwin, hbad, hsoft, hrings, -⟩ := hb
  have aligned : ¬ ea.toNat % 8 ≠ 0 := by omega
  have target : access s s.cur.1 s.cur.2 ea true false = (.ok { place := .loc (bankCore s s.cur.1 s.cur.2) lo }, s) :=
    accessBy_local s (whoOf s s.cur.1 s.cur.2) true false h hlo hwin
  have near : coreCut s (whoOf s s.cur.1 s.cur.2) (bankCore s s.cur.1 s.cur.2) = false := by
    rw [coreCut, whoOf, hdie, bne_self_eq_false, Bool.false_and]
  have got : readTarget s (whoOf s s.cur.1 s.cur.2) (syncId s.cur.2) { place := .loc (bankCore s s.cur.1 s.cur.2) lo } 8 false
      = .ok (readBytes (s.core (bankCore s s.cur.1 s.cur.2)).mem lo 8) s := by
    simp only [readTarget, readPlace, reachRead, near, Bool.false_eq_true, if_false, bankRead_plain hbad hsoft hrings hlo]
  have free : ¬ (acqPending [] = true ∨ coveredBy s s.cur.1 s.cur.2 [] ea 8 = true) := by
    rintro (h | h) <;> exact Bool.false_ne_true h
  rw [readNow]
  simp only [if_neg aligned, idle, if_neg free, target, got]
  rfl

/-- Double words from an aligned address up. -/
theorem readWords_local {s : State} {b lo : Nat} {ea : Word} (hb : PlainBanks s b) (idle : opsOf s s.cur.1 s.cur.2 = []) (n : Nat)
    (h : ea.toNat = 0xC000000000000000 + lo) (h8 : lo % 8 = 0) (hlo : lo + 8 * n ≤ 0x30000) :
    readWords s ea n = .ok ((upFrom 0 n).map fun i => leWord (readBytes (s.core b).mem (lo + 8 * i) 8)) s := by
  suffices shifted : ∀ k ea, ea.toNat = 0xC000000000000000 + lo + 8 * k → lo + 8 * (k + n) ≤ 0x30000 →
      readWords s ea n = .ok ((upFrom k n).map fun i => leWord (readBytes (s.core b).mem (lo + 8 * i) 8)) s from
    shifted 0 ea h (by omega)
  clear hlo
  induction n with
  | zero => exact fun _ _ _ _ => rfl
  | succ n ih =>
    intro k ea h hk
    have first := readNow_local (lo := lo + 8 * k) (ea := ea) hb idle (by omega) (by omega) (by omega)
    have next : (ea + 8).toNat = 0xC000000000000000 + lo + 8 * (k + 1) := by
      have eight : (8 : Word).toNat = 8 := rfl
      rw [BitVec.toNat_add, h, eight]
      omega
    have rest := ih (k + 1) (ea + 8) next (by omega)
    rw [readWords, first]
    simp only [rest]
    rfl

/-- Banks that are plain when an instruction issues are plain when its body runs. -/
theorem plainBanks_issued {s : State} {b : Nat} (srcs : List Reg) (h : PlainBanks s b) : PlainBanks (s.updK fun k => readReplies k srcs) b := by
  obtain ⟨bank, plain⟩ := h
  have parts := core_setCtx_keeps (fun k => (k.windows, k.bad, k.soft, k.rings, k.dirl, k.inj, k.mem)) s s.cur.1 s.cur.2 (readReplies s.k srcs)
    (fun _ _ => by rfl) b
  simp only [Prod.mk.injEq] at parts
  obtain ⟨windows, bad, soft, rings, dirl, inj, mem⟩ := parts
  have home : bankCore (s.updK fun k => readReplies k srcs) s.cur.1 s.cur.2 = bankCore s s.cur.1 s.cur.2 := by
    have away : (readReplies s.k srcs).away = s.k.away := by unfold readReplies; split <;> rfl
    rw [bankCore, State.updK_eq, State.ctx_setCtx_same, away]
    rfl
  refine ⟨bank.trans home.symm, ?_⟩
  rw [State.updK_eq, windows, bad, soft, rings, dirl, inj, mem]
  exact plain

/-! Acquires. -/

/-- Where a die holds no peer line, what an acquire at system scope drops is no context and no byte of it (R77). -/
theorem elsewhere_dropCachedPeers {s : State} {c : Nat} (h : ∀ e ∈ (s.die (dieOf c)).sectors, isOwn (e.1 * 64) = true) :
    KeptElsewhere s (dropCachedPeers s c) ∧ (dropCachedPeers s c).k = s.k := by
  have noPeer : (s.die (dieOf c)).sectors.filter (fun e => !isOwn (e.1 * 64)) = [] := by
    rw [List.filter_eq_nil_iff]
    intro e he
    rw [h e he]
    decide
  have clean : sendPeerDirty s (dieOf c) none = s := by
    have dirty : peerDirty s (dieOf c) = [] := by
      rw [peerDirty, List.map_eq_nil_iff, List.filter_eq_nil_iff]
      intro e he
      rw [h e he]
      exact Bool.false_ne_true
    rw [sendPeerDirty, dirty]
    rfl
  have dropped : dropCachedPeers s c = { dropStash s [c] isCachedPeer with sent := s.sent.filter fun r => r.core != fillCore (dieOf c) } := by
    unfold dropCachedPeers
    dsimp only
    rw [clean]
    change List.foldl _ _ (List.map _ (List.filter _ (s.die (dieOf c)).sectors)) = _
    rw [noPeer]
    rfl
  obtain ⟨kept, same⟩ := elsewhere_setCore s c { s.core c with stash := (s.core c).stash.filter fun e => !isCachedPeer e.2 } rfl rfl
  have parts : SameParts (dropStash s [c] isCachedPeer) (dropCachedPeers s c) := by rw [dropped]; exact ⟨rfl, rfl, rfl, rfl⟩
  exact ⟨kept.trans parts.elsewhere, parts.k.trans same⟩

/-- An acquire that finds no copy of a peer line in the die's cache counts in the region number, and changes nothing else that a program can
see (R200, R216). -/
theorem elsewhere_acquireAt {s : State} {sc : Scope} (h : sc = .sys → ∀ e ∈ (s.die (dieOf s.cur.1)).sectors, isOwn (e.1 * 64) = true) :
    KeptElsewhere s (acquireAt s s.cur.1 s.cur.2 sc) ∧ (acquireAt s s.cur.1 s.cur.2 sc).k = region s.k := by
  obtain ⟨u, hu⟩ : ∃ u, u = if sc = .sys then dropCachedPeers s s.cur.1 else s := ⟨_, rfl⟩
  have ⟨kept, same⟩ : KeptElsewhere s u ∧ u.k = s.k := by
    rw [hu]
    split
    · next sys => exact elsewhere_dropCachedPeers (h sys)
    · exact ⟨keptElsewhere_refl s, rfl⟩
  have ⟨cur, _⟩ := kept
  have acquired : acquireAt s s.cur.1 s.cur.2 sc = u.setCtx u.cur.1 u.cur.2 (region u.k) := by
    rw [acquireAt, ← hu, State.updCtx_eq, State.k, cur]
  rw [acquired, State.k_setCtx_cur, same]
  exact ⟨kept.trans (packageKept_setCtx_cur u _).elsewhere, rfl⟩

/-! Retiring with one register written. -/

theorem region_wr (k : Ctx) (d : Reg) (v : Word) : (wr k d v).region = k.region := by unfold wr; split <;> rfl

theorem region_retired (k : Ctx) (len : Nat) : (retired k len).region = k.region := by
  unfold retired advance
  split
  · rfl
  · rfl
  · split <;> rfl

/-- An issue whose body changes the issuing context's region number and one register of it, and no byte and no other context. -/
theorem issue_writes_elsewhere {len : Nat} {d : Reg} {srcs : List Reg} {body : State → Res} {s w : State} {v : Word} {r : BitVec 32}
    (h : Settled s (d :: srcs)) (hw : KeptElsewhere s w) (hk : w.k = { s.k with region := r })
    (hb : body (s.updK fun k => readReplies k srcs) = .ret (w.wrK d v)) :
    let t := issue len (some d) srcs body s
    rd t.k d = (if d = 0 then 0 else v) ∧ RegsKept s t [d] ∧ GuardsKept s t [] ∧ t.k.pc = nextPc s.k len ∧ t.k.region = r
      ∧ OthersKept s t ∧ BytesKept s t ∧ PackageKept (w.wrK d v) t := by
  obtain ⟨ek, kept⟩ := issue_ret (len := len) (d := some d) h hb
  have wrote : (w.wrK d v).k = wr { s.k with region := r } d v := by rw [State.wrK_eq, State.k_setCtx_cur, hk]
  have written : KeptElsewhere w (w.wrK d v) := (packageKept_setCtx_cur w _).elsewhere
  obtain ⟨-, others, bytes⟩ := (hw.trans written).trans kept.elsewhere
  rw [wrote] at ek
  have ctx : ContextKept s.k (retired (wr { s.k with region := r } d v) len) :=
    contextKept_trans (contextKept_trans (contextKept_region s.k r) (contextKept_wr _ d v)) (contextKept_retired _ len)
  dsimp only
  rw [RegsKept, GuardsKept, ek]
  refine ⟨?_, fun q hq => ?_, fun q _ => guardOf_of_contextKept ctx q, ?_, ?_, others, bytes, kept⟩
  · rw [rd_retired, rd_wr_same]; rfl
  · rw [rd_retired, rd_wr_other _ _ (by simpa using hq)]; rfl
  · rw [pc_retired, nextPc_wr]; rfl
  · rw [region_retired, region_wr]

end Sys2Proof.Machine
end

section
/-!
PROOFS. LVRD, LVSTEP and LVBIND (R328-R330), settled.
-/
namespace Sys2Proof.Proofs
open Sys2Proof Sys2Proof.Machine Sys2Proof.Claims

/-! What the body of an instruction sees once its operands are read. -/

theorem work_issued (s : State) (srcs : List Reg) : (s.updK fun k => readReplies k srcs).k.work = s.k.work := by
  rw [(issued_kept s srcs).2]
  unfold readReplies
  split <;> rfl

theorem domOf_issued (s : State) (srcs : List Reg) : domOf (s.updK fun k => readReplies k srcs).k = domOf s.k := by
  rw [domOf, work_issued]
  rfl

theorem rd_issued (s : State) (srcs : List Reg) (r : Reg) : rd (s.updK fun k => readReplies k srcs).k r = rd s.k r := by
  rw [(issued_kept s srcs).2, rd_readReplies]

theorem ownBlockOf_issued (s : State) (srcs : List Reg) :
    (s.updK fun k => readReplies k srcs).k.work.bind (ownBlock (s.updK fun k => readReplies k srcs)) = ownBlockOf s := by
  rw [work_issued]
  rfl

theorem dom_issued (s : State) (srcs : List Reg) (g : Nat) : (s.updK fun k => readReplies k srcs).dom g = s.dom g := rfl

/-! LVRD (R328). -/

/-- A block's number is neither of the two that name the nadir and the own block. -/
theorem ne_nadir_and_own_of_lt {v : Nat} (h : v < 2 ^ 64 - 2) : v ≠ 2 ^ 64 - 2 ∧ v ≠ 2 ^ 64 - 1 := by omega

section
variable {a d : Reg} {s : State}

theorem lvrd_nadir (hs : Settled s [d, a]) (hv : (rd s.k a).toNat = 2 ^ 64 - 2) :
    Runs (.lvrd a d) s (Writes 4 d ((s.dom (domOf s.k)).nadir.setWidth 64) s) := by
  refine ⟨_, rfl, issue_writes hs ?_⟩
  simp only [rd_issued, domOf_issued, dom_issued, hv, if_true]

theorem lvrd_blockless (hs : Settled s [d, a]) (hv : (rd s.k a).toNat = 2 ^ 64 - 1) (hown : ownBlockOf s = none) :
    Runs (.lvrd a d) s (Parks { cause := .shape, einfo := 0xA0 } s) := by
  refine ⟨_, rfl, issue_parks (d := some d) hs rfl ?_⟩
  simp only [rd_issued, ownBlockOf_issued, hv, hown, if_true]
  rfl

theorem lvrd_own {j : Nat} {b : Block} (hs : Settled s [d, a]) (hown : ownBlockOf s = some (j, b))
    (hv : (rd s.k a).toNat = 2 ^ 64 - 1 ∨ ((rd s.k a).toNat = j ∧ (rd s.k a).toNat < (s.dom (domOf s.k)).nblk ∧ (rd s.k a).toNat < 2 ^ 64 - 2)) :
    Runs (.lvrd a d) s (Writes 4 d (levelOf b.t b.d b.fin) s) := by
  refine ⟨_, rfl, issue_writes hs ?_⟩
  simp only [rd_issued, domOf_issued, dom_issued, ownBlockOf_issued, hown]
  rcases hv with all | ⟨rfl, present, number⟩
  · rw [all]
    rfl
  · obtain ⟨notNadir, notOwn⟩ := ne_nadir_and_own_of_lt number
    have inside : ¬ (rd s.k a).toNat ≥ (s.dom (domOf s.k)).nblk := Nat.not_le.2 present
    rw [if_neg notNadir, if_neg notOwn, if_neg inside, if_pos (beq_self_eq_true _)]
    rfl

theorem lvrd_pastLast (hs : Settled s [d, a]) (number : (rd s.k a).toNat < 2 ^ 64 - 2) (past : (s.dom (domOf s.k)).nblk ≤ (rd s.k a).toNat) :
    Runs (.lvrd a d) s (Parks { cause := .shape, einfo := 0xA2 } s) := by
  refine ⟨_, rfl, issue_parks (d := some d) hs rfl ?_⟩
  obtain ⟨notNadir, notOwn⟩ := ne_nadir_and_own_of_lt number
  simp only [rd_issued, domOf_issued, dom_issued]
  rw [if_neg notNadir, if_neg notOwn, if_pos past]
  rfl

/-- LVRD of a block's level as an acquire at the level scope (R328). -/
def LevelAcquired (a d : Reg) (w : Word) (s t : State) : Prop :=
  rd t.k d = (if d = 0 then 0 else w) ∧ RegsKept s t [d] ∧ GuardsKept s t [] ∧ t.k.pc = nextPc s.k 4
    ∧ t.k.region = (readReplies s.k [a]).region + 1 ∧ OthersKept s t ∧ BytesKept s t

/-- A body that acquires and writes D. -/
theorem levelAcquired_of_body {body : State → Res} {sc : Scope} {w : Word} (hs : Settled s [d, a]) (hfree : PeerFree s s.cur.1 sc)
    (hb : body (s.updK fun k => readReplies k [a]) = .ret ((acquireAt (s.updK fun k => readReplies k [a]) s.cur.1 s.cur.2 sc).wrK d w)) :
    LevelAcquired a d w s (issue 4 (some d) [a] body s) := by
  obtain ⟨read, ek⟩ := issued_kept s [a]
  obtain ⟨acquired, ak⟩ := elsewhere_acquireAt (s := s.updK fun k => readReplies k [a]) (sc := sc) fun sys => (hfree sys).1
  obtain ⟨r, hr⟩ := readReplies_eq s.k [a]
  have counted : region (readReplies s.k [a]) = { s.k with region := (readReplies s.k [a]).region + 1 } := by rw [hr]; rfl
  rw [ek, counted] at ak
  obtain ⟨value, regs, guards, pc, counts, others, bytes, -⟩ := issue_writes_elsewhere (len := 4) hs (read.elsewhere.trans acquired) ak hb
  exact ⟨value, regs, guards, pc, counts, others, bytes⟩

section
variable (hs : Settled s [d, a]) (present : (rd s.k a).toNat < (s.dom (domOf s.k)).nblk) (number : (rd s.k a).toNat < 2 ^ 64 - 2)
  (hfree : PeerFree s s.cur.1 (s.dom (domOf s.k)).scope)
include hs present number hfree

theorem lvrd_neighbour {j : Nat} {b : Block} {e : Edge} (hown : ownBlockOf s = some (j, b)) (other : j ≠ (rd s.k a).toNat)
    (hedge : b.edges.find? (fun e => e.j == (rd s.k a).toNat) = some e) :
    Runs (.lvrd a d) s (LevelAcquired a d (levelOf e.lvl e.step e.fin) s) := by
  refine ⟨_, rfl, levelAcquired_of_body hs hfree ?_⟩
  obtain ⟨notNadir, notOwn⟩ := ne_nadir_and_own_of_lt number
  have inside : ¬ (rd s.k a).toNat ≥ (s.dom (domOf s.k)).nblk := Nat.not_le.2 present
  have notMine : ¬ (j == (rd s.k a).toNat) = true := mt beq_iff_eq.1 other
  simp only [rd_issued, domOf_issued, dom_issued, ownBlockOf_issued, hown, hedge]
  rw [if_neg notNadir, if_neg notOwn, if_neg inside, if_neg notMine]
  rfl

theorem lvrd_block (other : ∀ j b, ownBlockOf s = some (j, b) → j ≠ (rd s.k a).toNat)
    (noEdge : ∀ j b, ownBlockOf s = some (j, b) → b.edges.find? (fun e => e.j == (rd s.k a).toNat) = none)
    (here : Here s (s.dom (domOf s.k)) (rd s.k a).toNat) :
    let b := Tbl.read (s.dom (domOf s.k)).blocks (rd s.k a).toNat {}
    Runs (.lvrd a d) s (LevelAcquired a d (levelOf b.t b.d b.fin) s) := by
  refine ⟨_, rfl, levelAcquired_of_body hs hfree ?_⟩
  obtain ⟨notNadir, notOwn⟩ := ne_nadir_and_own_of_lt number
  have inside : ¬ (rd s.k a).toNat ≥ (s.dom (domOf s.k)).nblk := Nat.not_le.2 present
  have near : blockAway (s.updK fun k => readReplies k [a]) (domOf s.k) (rd s.k a).toNat = none := if_pos here
  simp only [rd_issued, domOf_issued, dom_issued, ownBlockOf_issued, near]
  rw [if_neg notNadir, if_neg notOwn, if_neg inside]
  cases hown : ownBlockOf s with
  | none => rfl
  | some p =>
    obtain ⟨j, b⟩ := p
    have notMine : ¬ (j == (rd s.k a).toNat) = true := mt beq_iff_eq.1 (other j b hown)
    simp only [noEdge j b hown]
    rw [if_neg notMine]
    rfl

end

end

/-! LVSTEP (R329). -/

section
variable {a : Reg} {s : State}

theorem lvstep_blockless (hs : Settled s [a]) (hown : ownBlockOf s = none) :
    Runs (.lvstep a) s (Parks { cause := .shape, einfo := 0xA0 } s) := by
  refine ⟨_, rfl, issue_parks (d := none) hs rfl ?_⟩
  simp only [ownBlockOf_issued, hown]
  rfl

theorem lvstep_tooLarge {p : Nat × Block} (hs : Settled s [a]) (hown : ownBlockOf s = some p) (large : 65535 < (rd s.k a).toNat) :
    Runs (.lvstep a) s (Parks { cause := .stepalign, einfo := 1 } s) := by
  refine ⟨_, rfl, issue_parks (d := none) hs rfl ?_⟩
  simp only [rd_issued, ownBlockOf_issued, hown]
  rw [if_pos large]
  rfl

/-- A body that records a step and retires. -/
theorem recorded_of_body {body : State → Res} {n : Nat} (hs : Settled s [a])
    (hb : body (s.updK fun k => readReplies k [a]) = .ret ((s.updK fun k => readReplies k [a]).updK fun k => { k with lvstep := some n })) :
    let t := issue 4 none [a] body s
    t.k.lvstep = some n ∧ RegsKept s t [] ∧ GuardsKept s t [] ∧ ContextKept s.k { t.k with lvstep := s.k.lvstep } ∧ Retires 4 s t := by
  obtain ⟨read, ek⟩ := issued_kept s [a]
  obtain ⟨r, hr⟩ := readReplies_eq s.k [a]
  obtain ⟨tk, retires⟩ := issue_ret (len := 4) (d := none) hs hb
  rw [State.updK_eq (s.updK fun k => readReplies k [a])] at tk retires
  rw [State.k_setCtx_cur, ek, hr] at tk
  have cleared := contextKept_retired { s.k with region := r, lvstep := some n } 4
  have step := congrArg Ctx.lvstep cleared
  have rest := congrArg (fun k : Ctx => { k with lvstep := s.k.lvstep, region := s.k.region }) cleared
  dsimp only
  rw [RegsKept, GuardsKept, tk]
  refine ⟨step, fun q _ => ?_, fun q _ => guardOf_of_contextKept cleared q, rest, ?_, ?_⟩
  · rw [rd_retired]; rfl
  · rw [tk, pc_retired]; rfl
  · exact packageKept_trans (packageKept_trans read (packageKept_setCtx_cur _ _)) retires

theorem lvstep_records {p : Nat × Block} (hs : Settled s [a]) (hown : ownBlockOf s = some p) (small : (rd s.k a).toNat ≤ 65535) :
    Runs (.lvstep a) s fun t => t.k.lvstep = some (rd s.k a).toNat ∧ RegsKept s t [] ∧ GuardsKept s t []
      ∧ ContextKept s.k { t.k with lvstep := s.k.lvstep } ∧ Retires 4 s t := by
  refine ⟨_, rfl, recorded_of_body hs ?_⟩
  simp only [rd_issued, ownBlockOf_issued, hown]
  rw [if_neg (Nat.not_lt.2 small)]

end

end Sys2Proof.Proofs
end

section
/-!
PROOFS. LVBIND (R330), and the level functions together settled.
-/
namespace Sys2Proof.Proofs
open Sys2Proof Sys2Proof.Machine Sys2Proof.Claims

/-! The rule table (R330). -/

/-- The double words of a rule table for `n` blocks: its header and eight for each block. -/
def ruleTable (w : Nat → Word) (n : Nat) : List Word := (upFrom 0 (8 + 8 * n)).map w

/-- A double word of a rule table's rows that R330 refuses: a reserved bit set, or an enabled edge from no block. -/
def RuleOdd (n : Nat) (v : Word) : Prop := field v 63 48 ≠ 0 ∨ field v 31 22 ≠ 0 ∨ (v.getLsbD 21 = true ∧ n ≤ field v 19 0)

/-- What of a rule table for the right number of blocks is SHAPE 0xA5 (R330). -/
def RuleBad (n : Nat) (w : Nat → Word) : Prop :=
  field (w 0) 63 20 ≠ 0 ∨ (∃ i, 1 ≤ i ∧ i < 8 ∧ w i ≠ 0) ∨ ∃ j e, j < n ∧ e < 8 ∧ RuleOdd n (w (8 + 8 * j + e))

section
variable (w : Nat → Word) (n : Nat)

theorem headD_ruleTable : (ruleTable w n).headD 0 = w 0 := by
  rw [ruleTable, Nat.add_comm]
  rfl

theorem any_header_ruleTable : ((ruleTable w n).drop 1 |>.take 7).any (· != 0) = true ↔ ∃ i, 1 ≤ i ∧ i < 8 ∧ w i ≠ 0 := by
  rw [ruleTable, ← List.map_drop, ← List.map_take, drop_upFrom, take_upFrom _ (by omega)]
  simp only [List.any_map, List.any_eq_true, mem_upFrom, Function.comp_apply, bne_iff_ne, ne_eq, and_assoc]

theorem rows_ruleTable : (ruleTable w n).drop 8 = (upFrom 8 (8 * n)).map w := by
  rw [ruleTable, ← List.map_drop, drop_upFrom, Nat.add_sub_cancel_left]

theorem any_rows_ruleTable (p : Word → Bool) :
    ((ruleTable w n).drop 8).any p = true ↔ ∃ j e, j < n ∧ e < 8 ∧ p (w (8 + 8 * j + e)) = true := by
  rw [rows_ruleTable]
  simp only [List.any_map, List.any_eq_true, mem_upFrom, Function.comp_apply]
  constructor
  · rintro ⟨i, ⟨h8, hn⟩, hp⟩
    have digits : 8 + 8 * ((i - 8) / 8) + (i - 8) % 8 = i := by omega
    exact ⟨(i - 8) / 8, (i - 8) % 8, by omega, by omega, by rwa [digits]⟩
  · rintro ⟨j, e, hj, he, hp⟩
    exact ⟨8 + 8 * j + e, by omega, hp⟩

/-- The eight double words of a block. -/
theorem row_ruleTable {j : Nat} (h : j < n) :
    (((ruleTable w n).drop 8).drop (8 * j)).take 8 = (upFrom 0 8).map fun e => w (8 + 8 * j + e) := by
  rw [rows_ruleTable, ← List.map_drop, ← List.map_take, drop_upFrom, take_upFrom _ (by omega), upFrom_eq_map_add, List.map_map]
  rfl

theorem ruleBad_iff : RuleBad n w ↔ (field ((ruleTable w n).headD 0) 63 20 ≠ 0 ∨ ((ruleTable w n).drop 1 |>.take 7).any (· != 0) = true
    ∨ ((ruleTable w n).drop 8).any ruleReserved = true ∨ ((ruleTable w n).drop 8).any (fun v => v.getLsbD 21 && field v 19 0 ≥ n) = true) := by
  have odd (v : Word) : RuleOdd n v ↔ ruleReserved v = true ∨ (v.getLsbD 21 && field v 19 0 ≥ n) = true := by
    simp only [RuleOdd, ruleReserved, Bool.or_eq_true, Bool.and_eq_true, bne_iff_ne, decide_eq_true_eq, ge_iff_le, or_assoc]
  rw [RuleBad, headD_ruleTable, any_header_ruleTable, any_rows_ruleTable, any_rows_ruleTable]
  simp only [odd, and_or_left, exists_or]

end

/-! LVBIND. -/

/-- Other packages: none that a domain of this package alone could ask (R336). -/
theorem askOthers_of_alone {s : State} {g : Nat} (h : Alone s g) (bytes : List Byte) : askOthers s g bytes = [] := by
  have none : otherPkgs s (s.dom g) = [] := by
    rw [otherPkgs, List.filter_eq_nil_iff]
    intro p hp
    simp [h p hp]
  rw [askOthers, none]
  rfl

theorem askAll_nil (s : State) (core id sub g : Nat) : askAll s core id sub g [] = .ok [] s := rfl

theorem dropAsked_nil (s : State) (core id sub : Nat) : dropAsked s core id sub [] = s := by
  have all : (s.sent.filter fun r => !([] : List Ask).any fun q => askedBy core id sub q r) = s.sent := List.filter_eq_self.2 fun _ _ => rfl
  rw [dropAsked, all]

section
variable {a d : Reg} {s : State} {x lo : Nat}

theorem lvbind_misaligned (hs : Settled s [d, a]) (h : (rd s.k a).toNat % 64 ≠ 0) :
    Runs (.lvbind a d) s (Parks { cause := .align, eaddr := rd s.k a } s) := by
  refine ⟨_, rfl, issue_parks (d := some d) hs rfl ?_⟩
  simp only [rd_issued]
  rw [if_pos h]
  rfl

/-- The blocks of a domain with the edges that a rule table gives them. -/
def boundBlocks (bs : Tbl Block) (w : Nat → Word) (n : Nat) : Tbl Block :=
  bs.map fun b => (b.1, { b.2 with edges := ruleEdges bs ((((ruleTable w n).drop 8).drop (8 * b.1)).take 8) })

theorem find_boundBlocks {bs : Tbl Block} {j n : Nat} {b : Block} (w : Nat → Word) (hj : j < n) (h : Tbl.find bs j = some b) :
    Tbl.find (boundBlocks bs w n) j = some { b with edges := ruleEdges bs ((upFrom 0 8).map fun e => w (8 + 8 * j + e)) } := by
  have found := find_map_entries bs (fun k b => { b with edges := ruleEdges bs ((((ruleTable w n).drop 8).drop (8 * k)).take 8) }) j
  rw [h, Option.map_some, row_ruleTable w n hj] at found
  exact found

/-- The domain whose blocks a rule table binds. -/
def rulesBound (s : State) (g : Nat) (bs : Tbl Block) : State := s.updDom g fun q => { q with blocks := bs, nested := isNested bs }

/-- A body that binds a domain's blocks and says in D whether the table is nested. -/
theorem bound_of_body {body : State → Res} {g : Nat} {bs : Tbl Block} (hs : Settled s [d, a])
    (hb : body (s.updK fun k => readReplies k [a]) = .ret ((rulesBound (s.updK fun k => readReplies k [a]) g bs).wrK d (if isNested bs then 0 else 1))) :
    let t := issue 4 (some d) [a] body s
    RegsKept s t [d] ∧ GuardsKept s t [] ∧ t.k.pc = nextPc s.k 4 ∧ BytesKept s t
      ∧ rd t.k d = (if d = 0 then 0 else if isNested (t.dom g).blocks then 0 else 1) ∧ (t.dom g).blocks = bs := by
  obtain ⟨read, ek⟩ := issued_kept s [a]
  obtain ⟨r, hr⟩ := readReplies_eq s.k [a]
  have bound : SameParts (s.updK fun k => readReplies k [a]) (rulesBound (s.updK fun k => readReplies k [a]) g bs) := ⟨rfl, rfl, rfl, rfl⟩
  have bk : (rulesBound (s.updK fun k => readReplies k [a]) g bs).k = { s.k with region := r } := bound.k.trans (ek.trans hr)
  obtain ⟨value, regs, guards, pc, -, -, bytes, -, -, -, doms⟩ :=
    issue_writes_elsewhere (len := 4) hs (read.elsewhere.trans bound.elsewhere) bk hb
  have blocks : ((issue 4 (some d) [a] body s).dom g).blocks = bs := by
    have e := congrArg Dom.blocks (doms g)
    refine e.trans ?_
    rw [State.wrK_eq, State.dom_setCtx, rulesBound, State.dom_updDom_same]
  dsimp only
  rw [blocks]
  exact ⟨regs, guards, pc, bytes, value, rfl⟩

/-- A double word of the banks. -/
def bankWord (s : State) (x lo i : Nat) : Word := leWord (readBytes (s.core x).mem (lo + 8 * i) 8)

section
variable (idle : opsOf s s.cur.1 s.cur.2 = []) (plain : PlainBanks s x)
  (addr : (rd s.k a).toNat = 0xC000000000000000 + lo) (aligned : lo % 64 = 0) (inBanks : lo + 64 * ((s.dom (domOf s.k)).nblk + 1) ≤ 0x30000)
include idle plain addr aligned inBanks

/-- The table is read whole from the plain banks. -/
theorem readRules : readWords (s.updK fun k => readReplies k [a]) (rd s.k a) (8 + 8 * (s.dom (domOf s.k)).nblk)
    = .ok (ruleTable (bankWord s x lo) (s.dom (domOf s.k)).nblk) (s.updK fun k => readReplies k [a]) := by
  have mem : ((s.updK fun k => readReplies k [a]).core x).mem = (s.core x).mem := core_setCtx_keeps Core.mem s _ _ _ (fun _ _ => by rfl) x
  have read := readWords_local (plainBanks_issued [a] plain) ((opsOf_readReplies s [a]).trans idle) (8 + 8 * (s.dom (domOf s.k)).nblk) addr
    (by omega) (by omega)
  rw [mem] at read
  exact read

/-- What LVBIND does with the table that it has read. -/
theorem lvbind_body : ∃ body : State → Res, exec (.lvbind a d) s = .next (issue 4 (some d) [a] body s) ∧
    let u := s.updK fun k => readReplies k [a]
    let g := s.dom (domOf s.k)
    let w := bankWord s x lo
    (field (w 0) 19 0 ≠ g.nblk → body u = .fault (stopWhy .shape 0xA4) u)
    ∧ (field (w 0) 19 0 = g.nblk → RuleBad g.nblk w → body u = .fault (stopWhy .shape 0xA5) u)
    ∧ (field (w 0) 19 0 = g.nblk → ¬ RuleBad g.nblk w → g.frozen = false → body u = .fault (stopWhy .shape 0xA1) u)
    ∧ (field (w 0) 19 0 = g.nblk → ¬ RuleBad g.nblk w → g.frozen = true → Alone s (domOf s.k) → levelsOnWay s (domOf s.k) = false →
      untold s (domOf s.k) = false →
      body u = .ret ((rulesBound u (domOf s.k) (boundBlocks g.blocks w g.nblk)).wrK d (if isNested (boundBlocks g.blocks w g.nblk) then 0 else 1))) := by
  have multiple : ¬ (rd s.k a).toNat % 64 ≠ 0 := by omega
  have head := headD_ruleTable (bankWord s x lo) (s.dom (domOf s.k)).nblk
  refine ⟨_, rfl, ?_⟩
  dsimp only
  rw [rd_issued, domOf_issued, dom_issued, if_neg multiple, readRules idle plain addr aligned inBanks]
  dsimp only
  rw [dom_issued, ← head]
  refine ⟨fun other => ?_, fun number bad => ?_, fun number good frozen => ?_, fun number good frozen alone quiet told => ?_⟩
  · rw [if_pos other]
  · rw [if_neg (not_not_intro number), if_pos ((ruleBad_iff ..).1 bad)]
  · have thawed : ¬ (s.dom (domOf s.k)).frozen = true := by rw [frozen]; exact Bool.false_ne_true
    rw [if_neg (not_not_intro number), if_neg (mt (ruleBad_iff ..).2 good), if_pos thawed]
  · have goesOn : ¬ (levelsOnWay (s.updK fun k => readReplies k [a]) (domOf s.k) = true ∨ untold (s.updK fun k => readReplies k [a]) (domOf s.k) = true) := by
      rintro (e | e)
      · exact Bool.false_ne_true (quiet.symm.trans e)
      · exact Bool.false_ne_true (told.symm.trans e)
    have noAsk (bs : Tbl Block) (f : Nat × Block → List Byte) :
        bs.flatMap (fun b => askOthers (s.updK fun k => readReplies k [a]) (domOf s.k) (f b)) = [] :=
      List.flatMap_eq_nil_iff.2 fun b _ => askOthers_of_alone (s := s.updK fun k => readReplies k [a]) alone (f b)
    rw [if_neg (not_not_intro number), if_neg (mt (ruleBad_iff ..).2 good), if_neg (not_not_intro frozen), if_neg goesOn, noAsk, askAll_nil]
    dsimp only
    rw [dropAsked_nil]
    rfl

end

end

/-- Settles O20: LVRD reads what its operand names, LVSTEP records or refuses its step, and LVBIND refuses a table or binds its rows. -/
theorem levelFunctionsReadAndBind : Obligations.LevelFunctionsReadAndBind := by
  refine ⟨fun a d s hs => ?_, fun a s hs => ?_, fun a d s x lo hs => ⟨lvbind_misaligned hs, ?_⟩⟩
  · exact ⟨lvrd_nadir hs, lvrd_blockless hs, fun j b hv hown => lvrd_own hs hown hv, lvrd_pastLast hs, fun present number free other =>
      ⟨fun j b e hown hedge => lvrd_neighbour hs present number free hown (other j b hown) hedge,
        fun noEdge here => lvrd_block hs present number free other noEdge here⟩⟩
  · exact ⟨lvstep_blockless hs, fun b hown large => lvstep_tooLarge hs hown large, fun b hown small => lvstep_records hs hown small⟩
  · rintro ⟨-, idle, -⟩ plain addr aligned inBanks
    obtain ⟨body, runs, otherNumber, bad, unfrozen, binds⟩ := lvbind_body (d := d) idle plain addr aligned inBanks
    refine ⟨fun h => ⟨_, runs, issue_parks (d := some d) hs rfl (otherNumber h)⟩, fun h b => ⟨_, runs, issue_parks (d := some d) hs rfl (bad h b)⟩,
      fun h g f => ⟨_, runs, issue_parks (d := some d) hs rfl (unfrozen h g f)⟩, fun number good frozen alone quiet told => ⟨_, runs, ?_⟩⟩
    obtain ⟨regs, guards, pc, bytes, value, blocks⟩ := bound_of_body hs (binds number good frozen alone quiet told)
    refine ⟨regs, guards, pc, bytes, value, fun j b found inside => ?_⟩
    have bound := find_boundBlocks (bankWord s x lo) inside found
    rw [← blocks] at bound
    exact ⟨_, bound, rfl, rfl⟩

end Sys2Proof.Proofs
end

section
/-!
PROOFS. NOP, PREF and SYNCI; taking an in-core trap and returning from it (R71, R88, R353-R356).
-/
namespace Sys2Proof.Machine
open Sys2Proof Sys2Proof.Claims

/-! ESTAT's fields as bits and numbers (R353). -/

/-- A field of one bit is that bit. -/
theorem field_bit (w : Word) (i : Nat) : field w i i = bitN (w.getLsbD i) := by
  rw [field, Nat.add_sub_cancel_left, Nat.pow_one, BitVec.getLsbD, Nat.testBit_eq_decide_div_mod_eq]
  rcases Nat.mod_two_eq_zero_or_one (w.toNat / 2 ^ i) with h | h
  · rw [h]; rfl
  · rw [h]; rfl

theorem field_bit_eq_zero_iff (w : Word) (i : Nat) : field w i i = 0 ↔ w.getLsbD i = false := by
  rw [field_bit]
  cases w.getLsbD i
  · exact iff_of_true rfl rfl
  · exact iff_of_false Nat.one_ne_zero Bool.false_ne_true.symm

theorem field_bit_beq_one (w : Word) (i : Nat) : (field w i i == 1) = w.getLsbD i := by
  rw [field_bit]
  cases w.getLsbD i <;> rfl

/-- ESTAT in a handler just entered: INH is set, and no LOOP slot stands in it (R293, R354). -/
def estatEntered (e : Word) : Word := setField (setField e 22 2 0) 0 0 1

/-- ESTAT after HRET: INH and SLOT are clear (R356). -/
def estatLeft (e : Word) : Word := setField (setField e 0 0 0) 3 2 0

theorem inh_estatEntered (e : Word) : (estatEntered e).getLsbD 0 = true := by
  have bit : field (estatEntered e) 0 0 = 1 := by
    simp only [estatEntered, setField, field, BitVec.toNat_ofNat]
    omega
  rw [← field_bit_beq_one, bit]
  rfl

theorem slot_estatEntered (e : Word) : (estatEntered e).toNat / 4 % 4 = 0 := by
  have := e.isLt
  simp only [estatEntered, setField, field, BitVec.toNat_ofNat]
  omega

theorem inh_estatLeft (e : Word) : (estatLeft e).getLsbD 0 = false := by
  rw [← field_bit_eq_zero_iff]
  simp only [estatLeft, setField, field, BitVec.toNat_ofNat]
  omega

theorem slot_estatLeft (e : Word) : (estatLeft e).toNat / 4 % 4 = 0 := by
  have := e.isLt
  simp only [estatLeft, setField, field, BitVec.toNat_ofNat]
  omega

/-! The two ends of a handler. -/

/-- The context of a handler just entered (R354). -/
def enteredCtx (k : Ctx) (cause : Cause) (ret : Nat) (info : Word) : Ctx :=
  { k with
    epc := BitVec.ofNat 64 ret, ecause := BitVec.ofNat 64 cause.code, einfo := info, estat := estatEntered k.estat
    pc := k.tvec.toNat / 4 % 2 ^ 16 * 4, loop := none }

/-- The LOOP slot that ESTAT records (R353, R356). -/
def loopOfEstat (e : Word) : Option LoopSt :=
  if e.toNat / 4 % 4 = 0 then none else some ⟨e.toNat / 4 % 4, e.getLsbD 22, e.toNat / 64 % 2 ^ 16 * 4⟩

/-- The context of a handler just left (R356). -/
def leftCtx (k : Ctx) : Ctx :=
  { k with estat := estatLeft k.estat, pc := k.epc.toNat / 4 % 2 ^ 16 * 4, loop := loopOfEstat k.estat }

/-- The issuing context is `k`, its core's fetch buffer is empty, and the rest of the package is as it was. -/
def Refetches (k : Ctx) (s t : State) : Prop := t.k = k ∧ (t.core s.cur.1).fetch = none ∧ PackageKept s t

theorem fetch_dropFetch (s : State) (c : Nat) : ((dropFetch s c).core c).fetch = none := by
  rw [dropFetch, State.updCore_eq, State.core_setCore_same]

theorem refetches_dropFetch (s : State) : Refetches s.k s (dropFetch s s.cur.1) :=
  ⟨k_dropFetch s _, fetch_dropFetch s _, packageKept_dropFetch s _⟩

theorem updK_spec (s : State) (f : Ctx → Ctx) : (s.updK f).k = f s.k ∧ PackageKept s (s.updK f) := by
  rw [State.updK_eq]
  exact ⟨State.k_setCtx_cur s _, packageKept_setCtx_cur s _⟩

/-- A fetch buffer dropped with the issuing context changed. -/
theorem refetches_updK (s : State) (f : Ctx → Ctx) : Refetches (f s.k) s (dropFetch (s.updK f) s.cur.1) := by
  obtain ⟨ek, changed⟩ := updK_spec s f
  obtain ⟨same, empty, kept⟩ := refetches_dropFetch (s.updK f)
  exact ⟨same.trans ek, empty, packageKept_trans changed kept⟩

theorem enterHandler_refetches (s : State) (cause : Cause) (ret : Nat) (info : Word) :
    Refetches (enteredCtx s.k cause ret info) s (enterHandler s s.cur.1 s.cur.2 cause ret info) :=
  refetches_updK s fun k => enteredCtx k cause ret info

theorem leaveHandler_refetches (s : State) : Refetches (leftCtx s.k) s (leaveHandler s s.cur.1 s.cur.2) := by
  have slots : leaveHandler s s.cur.1 s.cur.2 = dropFetch (s.updK leftCtx) s.cur.1 := by
    rw [State.updK_eq, leaveHandler, State.updCtx_eq, field_bit_beq_one]
    rfl
  rw [slots]
  exact refetches_updK s leftCtx

theorem Refetches.after {k : Ctx} {s t u : State} (g : Refetches k t u) (h : PackageKept s t) : Refetches k s u := by
  obtain ⟨same, empty, kept⟩ := g
  exact ⟨same, h.cur ▸ empty, packageKept_trans h kept⟩

/-- Whether a handler can run, as the model tests it and as the claims say it (R354). -/
theorem handlerReady_iff (s : State) : handlerReady s.k = true ↔ canHandle s := by
  rw [handlerReady, Bool.and_eq_true, bne_iff_ne, beq_iff_eq, field_bit_eq_zero_iff]
  rfl

/-! An instruction that has itself set what follows. -/

/-- The state in which an instruction that reads no register runs its body. -/
def issued (s : State) : State := s.updK fun k => readReplies k []

theorem packageKept_issued (s : State) : PackageKept s (issued s) := (issued_kept s []).1

theorem k_issued (s : State) : (issued s).k = s.k := (issued_kept s []).2

/-- An issue whose body has itself set what follows ends as the body left it. -/
theorem issue_raw {len : Nat} {body : State → Res} {s t : State} (hb : body (issued s) = .raw t) : issue len none [] body s = t := by
  rw [issue_settled (d := none) (settled_nil s)]
  exact congrArg (fun r => finish len none (atIssue s [] none r)) hb

/-- The retirement of an instruction that reads no register. -/
def retiredState (s : State) : State := finish 4 none (.ret (issued s))

theorem retiredState_spec (s : State) : (retiredState s).k = retired s.k 4 ∧ PackageKept s (retiredState s) := by
  obtain ⟨ek, kept⟩ := finish_ret 4 none (issued s)
  rw [k_issued] at ek
  exact ⟨ek, packageKept_trans (packageKept_issued s) kept⟩

/-- The retirement of an instruction that reads no register and changes its context. -/
theorem finish_issued_updK (s : State) (f : Ctx → Ctx) : (finish 4 none (.ret ((issued s).updK f))).k = retired (f s.k) 4
    ∧ PackageKept s (finish 4 none (.ret ((issued s).updK f))) := by
  obtain ⟨ck, changed⟩ := updK_spec (issued s) f
  obtain ⟨ek, kept⟩ := finish_ret 4 none ((issued s).updK f)
  rw [ck, k_issued] at ek
  exact ⟨ek, packageKept_trans (packageKept_issued s) (packageKept_trans changed kept)⟩

theorem onlyRetires_of_retired {s t : State} (hk : t.k = retired s.k 4) (kept : PackageKept s t) : OnlyRetires 4 s t := by
  rw [OnlyRetires, RegsKept, Retires, hk]
  exact ⟨fun r _ => rd_retired s.k 4 r, contextKept_retired s.k 4, pc_retired s.k 4, kept⟩

/-! In-core traps (R354). -/

/-- A body that takes an in-core trap retires into the handler; where none can run it parks with the trap's number (R354). -/
theorem issue_trapTo {cause : Cause} {n : Nat} {body : State → Res} {s : State} (hb : body (issued s) = trapTo cause n (issued s)) :
    (canHandle s → Refetches (enteredCtx (retired s.k 4) cause (nextPc s.k 4) (BitVec.ofNat 64 n)) s (issue 4 none [] body s))
      ∧ (¬ canHandle s → Parks { cause := cause, einfo := BitVec.ofNat 64 n } s (issue 4 none [] body s)) := by
  have ready : handlerReady (issued s).k = true ↔ canHandle s := by rw [k_issued, handlerReady_iff]
  refine ⟨fun h => ?_, fun h => ?_⟩
  · have entered : trapTo cause n (issued s) = .raw (enterHandler (retiredState s) (retiredState s).cur.1 (retiredState s).cur.2 cause
        (retiredState s).k.pc (BitVec.ofNat 64 n)) := if_pos (ready.2 h)
    obtain ⟨ek, kept⟩ := retiredState_spec s
    rw [issue_raw (hb.trans entered), ← pc_retired, ← ek]
    exact (enterHandler_refetches ..).after kept
  · exact issue_parks (d := none) (settled_nil s) rfl (hb.trans (if_neg (mt ready.1 h)))

/-- What a handler's begin keeps of a context whose instruction retired. -/
theorem entersHandler_of_refetches {cause : Cause} {info : Word} {ret : Nat} {s t : State}
    (h : Refetches (enteredCtx (retired s.k 4) cause ret info) s t) : EntersHandler cause info ret s t := by
  obtain ⟨ek, empty, kept⟩ := h
  have ctx := contextKept_retired s.k 4
  have tvec : (retired s.k 4).tvec = s.k.tvec := (congrArg Ctx.tvec ctx :)
  have eaddr : (retired s.k 4).eaddr = s.k.eaddr := (congrArg Ctx.eaddr ctx :)
  obtain ⟨-, others, bytes⟩ := kept.elsewhere
  rw [EntersHandler, RegsKept, GuardsKept, ek]
  refine ⟨?_, rfl, rfl, rfl, inh_estatEntered _, rfl, empty, tvec, eaddr, fun r _ => ?_, fun q _ => ?_, others, bytes⟩
  · rw [← tvec]; rfl
  · exact rd_retired s.k 4 r
  · exact guardOf_of_contextKept ctx q

/-! HRET (R356). -/

/-- HRET in a handler, as what becomes of the issuing context. -/
theorem hret_refetches {s : State} (h : s.k.estat.getLsbD 0 = true) : Runs .hret s (Refetches (leftCtx (retired s.k 4)) s) := by
  refine ⟨_, rfl, ?_⟩
  have inh : ¬ field (issued s).k.estat 0 0 = 0 := by rw [k_issued, field_bit_eq_zero_iff, h]; exact Bool.false_ne_true.symm
  obtain ⟨ek, kept⟩ := retiredState_spec s
  rw [issue_raw (if_neg inh), ← ek]
  exact (leaveHandler_refetches (retiredState s)).after kept

end Sys2Proof.Machine

namespace Sys2Proof.Proofs
open Sys2Proof Sys2Proof.Machine Sys2Proof.Claims

/-! Retiring and no more (R71, R88, R355). -/

/-- What SYNCI waits for, in the state of its body and before. -/
theorem ownStorePending_issued (s : State) : ownStorePending (issued s) = ownStorePending s := by
  have ops : opsOf (issued s) (issued s).cur.1 (issued s).cur.2 = opsOf s s.cur.1 s.cur.2 := opsOf_readReplies s []
  have bank : bankCore (issued s) (issued s).cur.1 (issued s).cur.2 = bankCore s s.cur.1 s.cur.2 := by
    have ctx : (issued s).ctx (issued s).cur.1 (issued s).cur.2 = s.ctx s.cur.1 s.cur.2 := k_issued s
    rw [bankCore, ctx]
    rfl
  unfold ownStorePending
  rw [ops, bank]

theorem nopPrefAndSynciOnlyRetire : NopPrefAndSynciOnlyRetire := fun s => by
  refine ⟨⟨_, rfl, issue_retires (d := none) (settled_nil s) rfl⟩, fun b a hs => ⟨_, rfl, issue_retires (d := none) hs rfl⟩,
    fun written => ⟨_, rfl, ?_⟩, fun due => ⟨_, rfl, issue_waits (d := none) (settled_nil s) (if_pos ?_)⟩⟩
  · have stored : ¬ ownStorePending (issued s) = true := by rw [ownStorePending_issued, written]; exact Bool.false_ne_true
    obtain ⟨ek, kept⟩ := retiredState_spec s
    obtain ⟨same, empty, all⟩ := (refetches_dropFetch (retiredState s)).after kept
    rw [kept.cur] at same empty all
    rw [issue_raw (if_neg stored)]
    exact ⟨onlyRetires_of_retired (same.trans ek) all, empty⟩
  · exact (ownStorePending_issued s).trans due

/-! Traps (R354-R356). -/

theorem watched_issued (s : State) : watched (issued s) (gtidOf (issued s).k) = watched s (gtidOf s.k) := by
  rw [k_issued]
  rfl

/-- A BRK that a stop entry watches retires with its number, and its context halts for the debugger (R355). -/
theorem brk_watched {n : BitVec 5} {s : State} (h : watched s (gtidOf s.k) = true) : Runs (.brk n) s fun t =>
    t.k.dhalt = true ∧ t.k.pc = nextPc s.k 4 ∧ t.k.einfo = n.setWidth 64 ∧ RegsKept s t [] ∧ OthersKept s t ∧ BytesKept s t := by
  refine ⟨_, rfl, ?_⟩
  rw [issue_raw (if_pos ((watched_issued s).trans h)), BitVec.ofNat_toNat]
  obtain ⟨ek, retires⟩ := finish_issued_updK s fun k => { k with einfo := n.setWidth 64 }
  generalize finish 4 none (.ret ((issued s).updK fun k => { k with einfo := n.setWidth 64 })) = u at ek retires ⊢
  obtain ⟨hk, halts⟩ := updK_spec u fun k => { k with dhalt := true }
  obtain ⟨-, others, bytes⟩ := (packageKept_trans retires halts).elsewhere
  have einfo : (retired { s.k with einfo := n.setWidth 64 } 4).einfo = n.setWidth 64 := (congrArg Ctx.einfo (contextKept_retired _ 4) :)
  rw [ek] at hk
  rw [RegsKept, hk]
  exact ⟨rfl, pc_retired { s.k with einfo := n.setWidth 64 } 4, einfo, fun r _ => rd_retired { s.k with einfo := n.setWidth 64 } 4 r,
    others, bytes⟩

theorem trapAndBrkEnterTheHandlerOrPark : TrapAndBrkEnterTheHandlerOrPark := fun n s => by
  rw [← BitVec.ofNat_toNat]
  have unwatched (h : watched s (gtidOf s.k) = false) : ¬ watched (issued s) (gtidOf (issued s).k) = true := by
    rw [watched_issued, h]; exact Bool.false_ne_true
  exact ⟨fun h => ⟨_, rfl, entersHandler_of_refetches ((issue_trapTo rfl).1 h)⟩, fun h => ⟨_, rfl, (issue_trapTo rfl).2 h⟩,
    fun w h => ⟨_, rfl, entersHandler_of_refetches ((issue_trapTo (if_neg (unwatched w))).1 h)⟩,
    fun w h => ⟨_, rfl, (issue_trapTo (if_neg (unwatched w))).2 h⟩, fun w => by rw [BitVec.ofNat_toNat]; exact brk_watched w⟩

/-- What a return from a handler keeps of a context whose instruction retired. -/
theorem left_of_retired (k : Ctx) : (leftCtx (retired k 4)).pc = k.epc.toNat / 4 % 2 ^ 16 * 4
    ∧ (leftCtx (retired k 4)).loop = loopOfEstat k.estat ∧ (leftCtx (retired k 4)).epc = k.epc ∧ (leftCtx (retired k 4)).ecause = k.ecause
    ∧ (leftCtx (retired k 4)).eaddr = k.eaddr ∧ (leftCtx (retired k 4)).einfo = k.einfo ∧ (∀ r, rd (leftCtx (retired k 4)) r = rd k r)
    ∧ ∀ q, guardOf (leftCtx (retired k 4)) q = guardOf k q := by
  have ctx := contextKept_retired k 4
  have epc : (retired k 4).epc = k.epc := (congrArg Ctx.epc ctx :)
  have estat : (retired k 4).estat = k.estat := (congrArg Ctx.estat ctx :)
  have ecause : (retired k 4).ecause = k.ecause := (congrArg Ctx.ecause ctx :)
  have eaddr : (retired k 4).eaddr = k.eaddr := (congrArg Ctx.eaddr ctx :)
  have einfo : (retired k 4).einfo = k.einfo := (congrArg Ctx.einfo ctx :)
  refine ⟨?_, ?_, epc, ecause, eaddr, einfo, rd_retired k 4, fun q => ?_⟩
  · rw [← epc]; rfl
  · rw [← estat]; rfl
  · exact guardOf_of_contextKept ctx q

theorem hretReturnsFromTheHandler : HretReturnsFromTheHandler := fun s => by
  refine ⟨fun outside => ⟨_, rfl, issue_parks (d := none) (settled_nil s) rfl (if_pos ?_)⟩, fun inside => ?_⟩
  · exact (congrArg (field ·.estat 0 0) (k_issued s)).trans ((field_bit_eq_zero_iff s.k.estat 0).2 outside)
  · obtain ⟨t, runs, ek, empty, kept⟩ := hret_refetches inside
    obtain ⟨-, others, bytes⟩ := kept.elsewhere
    obtain ⟨pc, loop, epc, ecause, eaddr, einfo, regs, guards⟩ := left_of_retired s.k
    rw [← ek] at pc loop epc ecause eaddr einfo regs guards
    exact ⟨t, runs, pc, ek ▸ inh_estatLeft _, ek ▸ slot_estatLeft _, empty, loop, epc, ecause, eaddr, einfo, fun r _ => regs r, fun q _ => guards q,
      others, bytes⟩

/-- HRET in a handler entered at a point goes back to that point, in no LOOP slot (R354, R356). -/
theorem hret_after_entry {cause : Cause} {info : Word} {ret : Nat} {k : Ctx} {t : State} (h : t.k = enteredCtx k cause ret info)
    (aligned : ret % 4 = 0) (inside : ret < 2 ^ 18) : Runs .hret t fun u =>
      u.k.pc = ret ∧ u.k.loop = none ∧ u.k.estat.getLsbD 0 = false ∧ (∀ r, rd u.k r = rd k r) ∧ (∀ q, guardOf u.k q = guardOf k q)
        ∧ PackageKept t u := by
  have inh : t.k.estat.getLsbD 0 = true := by rw [h]; exact inh_estatEntered _
  obtain ⟨u, runs, uk, -, kept⟩ := hret_refetches inh
  obtain ⟨pc, loop, -, -, -, -, regs, guards⟩ := left_of_retired t.k
  rw [← uk, h] at pc loop regs guards
  refine ⟨u, runs, pc.trans ?_, loop.trans (if_pos (slot_estatEntered _)), uk ▸ inh_estatLeft _, regs, guards, kept⟩
  simp only [enteredCtx, BitVec.toNat_ofNat]
  omega

theorem trapThenHretComesBack : TrapThenHretComesBack := fun n s ready noLoop noBack aligned inside => by
  have next : nextPc s.k 4 = s.k.pc + 4 := by rw [nextPc, noBack, noLoop]
  obtain ⟨ek, -, trapped⟩ := (issue_trapTo (cause := .trap) (n := n.toNat) (s := s) rfl).1 ready
  rw [next] at ek
  obtain ⟨u, runs, pc, loop, left, regs, guards, returned⟩ := hret_after_entry ek (by omega) inside
  obtain ⟨-, others, bytes⟩ := (packageKept_trans trapped returned).elsewhere
  exact ⟨_, rfl, u, runs, pc, loop, left, fun r _ => (regs r).trans (rd_retired s.k 4 r),
    fun q _ => (guards q).trans (guardOf_of_contextKept (contextKept_retired s.k 4) q), others, bytes⟩

/-- Settles O37: an in-core trap retires into its handler or parks, and HRET takes EPC's PC and the LOOP slot of ESTAT; NOP, PREF and
SYNCI change nothing but the PC. -/
theorem trapsEnterTheHandlerAndReturn : Obligations.TrapsEnterTheHandlerAndReturn :=
  ⟨nopPrefAndSynciOnlyRetire, trapAndBrkEnterTheHandlerOrPark, hretReturnsFromTheHandler, trapThenHretComesBack⟩

end Sys2Proof.Proofs
end
